-- ==== Sys2Proof/Word.lean ====
section
/-! DEFINITION. The words, numbers and sparse tables the whole model is written with. -/
namespace Sys2Proof

/-- One byte. -/
abbrev Byte := BitVec 8

/-- The 64 bytes of one memory line, byte 0 in the low bits (R8: little-endian). -/
abbrev Line := BitVec 512

/-- The 256 bytes of one quad, byte 0 in the low bits (Table 0.3, R142). -/
abbrev Quad := BitVec 2048

/-- A landing number, LD00 to LD15 (R2). -/
abbrev Ld := Fin 16

/-- A memory slice number, MS00 to MS15 (R2, R17). -/
abbrev Sl := Fin 16

/-- A channel number, CH00 to CH15; MSnn owns CHnn (R17). -/
abbrev Ch := Fin 16

/-- A Barge channel number, BG00 to BG63 (Table 0.1). -/
abbrev BgNo := Fin 64

/-- A service class, SC00 to SC63 (Table 0.1). -/
abbrev Cls := Fin 64

/-- A sparse table: numbered places in rising order, a place that holds the default value not listed.
`Machine/Table.lean` gives its read and its write. -/
abbrev Tbl (α : Type) := List (Nat × α)

end Sys2Proof
end

