-- ==== Sys2Proof/Operand.lean ====
section
/-! DEFINITION. The operands that commands carry: host requests, flits, and the outcomes of the physical checks a step meets. -/
namespace Sys2Proof

/-- How one physical check comes out: it passes, it fails once and passes on the re-read (the transient rule), or it fails again.
The spec leaves to the silicon which of the three happens, so the command carries it. -/
inductive Chk where
  | ok | transient | lasting
  deriving DecidableEq, Repr, Inhabited

/-- The outcomes of the physical checks one step of the data path meets; every check passes by default. -/
structure Phys where
  /-- Wharf tag and state copies (R172). -/
  tag : Chk := .ok
  /-- Wharf data parity of the line read (R184, R185); `transient` never occurs, the refetch is the transient test. -/
  par : Bool := false
  /-- The location of a parity error fails its read-back (R186). -/
  locBad : Bool := false
  /-- Page-map-cache slot uncorrectable (R122). -/
  pmc : Bool := false
  /-- Segment-directory entry of the slice itself (R112). -/
  dirOwn : Chk := .ok
  /-- The partner's copy of the directory entry fails its parity (R112). -/
  dirPartner : Bool := false
  /-- Every other slice's copy of the directory entry fails its parity (R112). -/
  dirOthers : Bool := false
  /-- Page-map entry copy A, its ECC or CHK (R116). -/
  pmA : Chk := .ok
  /-- Page-map entry copy B (R116). -/
  pmB : Chk := .ok
  /-- CHK corrected a single-bit error of the copy used (R103, R116). -/
  pmFix : Bool := false
  /-- The rewrite of copy A does not read back (R116). -/
  pmWr : Bool := false
  /-- The failing entry copies are uncorrectable bursts (R292, Table 9.5). -/
  pmEcc : Bool := false
  /-- Stow header (R141). -/
  hdr : Chk := .ok
  /-- The failing stow-header check is an uncorrectable burst (R292). -/
  hdrEcc : Bool := false
  /-- Data burst of the quad (R292). -/
  ecc : Chk := .ok
  /-- Which 64 B burst of the data read `ecc` and `fixed` speak of, counted from its first (R291). -/
  burst : Nat := 0
  /-- A burst of the quad carries the stored-poison syndrome (R293). -/
  stored : Bool := false
  /-- Corrected symbols in the quad's bursts (R291, R294). -/
  fixed : Nat := 0
  /-- Decode of the slot in a decompression lane (R157). -/
  dec : Chk := .ok
  /-- Verification of a compressor stream (R156). -/
  cmpv : Chk := .ok
  /-- MAC of a Sealed quad (R261). -/
  mac : Chk := .ok
  /-- Counter-tree node copy A: uncorrectable when `lasting` (R263). -/
  nodeA : Chk := .ok
  /-- Counter-tree node copy B (R263). -/
  nodeB : Chk := .ok
  /-- Level of the node that `nodeA` and `nodeB` speak of (R249). -/
  nodeLvl : Nat := 0
  /-- Seal-cache line uncorrectable (R266). -/
  sealc : Bool := false
  /-- Root-store copies: a copy disagrees (`transient`), or no two agree (`lasting`) (R254). -/
  root : Chk := .ok
  /-- Key-table slot parity (R244). -/
  key : Chk := .ok
  /-- Snoop-filter entry parity (R212). -/
  filt : Chk := .ok
  /-- The location of a filter parity error fails its test (R212, R186). -/
  filtBad : Bool := false
  /-- Staging-buffer parity of a Barge channel (Table 15.5). -/
  stg : Chk := .ok
  /-- Dictionary-engine parity (Table 15.5). -/
  dict : Bool := false
  deriving DecidableEq, Repr, Inhabited

/-- Snoop types of a CXL.mem read (R213, Table 7.2). -/
inductive Snp where
  | none | cur | data | inv
  deriving DecidableEq, Repr, Inhabited

/-- MetaField No-Op and the MetaValues of a CXL.mem write (R213, Table 7.2). -/
inductive MetaV where
  | noOp | i | a | s
  deriving DecidableEq, Repr, Inhabited

/-- The CXL.mem request kinds of Table 7.2, with the Barge's and the commands' own accesses under R213. -/
inductive ReqKind where
  | rd (snp : Snp)
  | minv
  | wr (m : MetaV)
  | wrPtl (m : MetaV)
  | clnEvct
  deriving DecidableEq, Repr, Inhabited

/-- The request writes (check 5 of Table 3.5). -/
def ReqKind.writes : ReqKind → Bool
  | .wr _ | .wrPtl _ => true
  | _ => false

/-- A MemRd or MemInv from a host (R26). -/
structure ReadReq where
  minv : Bool := false
  snp : Snp := .none
  hpa : BitVec 64
  tag : BitVec 16 := 0#16
  deriving DecidableEq, Repr, Inhabited

/-- A MemWr or MemWrPtl from a host (R32). -/
structure WriteReq where
  ptl : Bool := false
  mv : MetaV := .noOp
  hpa : BitVec 64
  tag : BitVec 16 := 0#16
  data : Line
  /-- Byte enables of a partial write. -/
  be : BitVec 64 := 0#64
  /-- The write data carries poison. -/
  poison : Bool := false
  deriving DecidableEq, Repr, Inhabited

/-- One CXL.mem request of either kind, as a landing sees it. -/
structure Req where
  kind : ReqKind
  hpa : BitVec 64 := 0#64
  tag : BitVec 16 := 0#16
  data : Line := 0#512
  be : BitVec 64 := 0#64
  poison : Bool := false
  deriving DecidableEq, Repr, Inhabited

/-- A read as a request. -/
def ReadReq.toReq (r : ReadReq) : Req :=
  { kind := if r.minv then .minv else .rd r.snp, hpa := r.hpa, tag := r.tag }

/-- A write as a request. -/
def WriteReq.toReq (w : WriteReq) : Req :=
  { kind := if w.ptl then .wrPtl w.mv else .wr w.mv, hpa := w.hpa, tag := w.tag, data := w.data, be := w.be, poison := w.poison }

/-- Answers of a host to a back-invalidate snoop: the host keeps nothing, or keeps the line shared. -/
inductive BiRsp where
  | i | s
  deriving DecidableEq, Repr, Inhabited

/-- A message a landing receives; the receive classes of Table 2.3. -/
inductive Msg where
  | rd (r : ReadReq)
  | clnEvct (hpa : BitVec 64) (tag : BitVec 16)
  | wr (w : WriteReq)
  | biRsp (line : BitVec 39) (blk : Bool) (rsp : BiRsp)
  | posted (dataSlots : Nat)
  | nonPosted (dataSlots : Nat)
  | completion (dataSlots : Nat)
  deriving DecidableEq, Repr, Inhabited

/-- Credits a flit returns, in messages, for S2M responses and data the landing sends (R57, R62). -/
structure Credits where
  req : Nat := 0
  rwd : Nat := 0
  birsp : Nat := 0
  deriving DecidableEq, Repr, Inhabited

/-- A received flit: its sequence number, its check, and what it carries (R62, R66). -/
structure Flit where
  seq : Nat
  good : Bool := true
  credits : Nat := 0
  msgs : List Msg := []
  deriving DecidableEq, Repr, Inhabited

/-- The two directions of an IDE stream (R75). -/
inductive Dir where
  | rx | tx
  deriving DecidableEq, Repr, Inhabited

/-- The two IDE streams of a landing (R72). -/
inductive IdeStream where
  | mem | io
  deriving DecidableEq, Repr, Inhabited

/-- IDE modes a host chooses for the CXL.mem stream (R73). -/
inductive IdeMode where
  | off | containment | skid | insecure
  deriving DecidableEq, Repr, Inhabited

/-- What a debug read names (R270, R418): bytes of the internal map, a key-table slot, Tollhouse SRAM, a Wharf line by its place, a seal-cache
line by its place, the state of an AES pipeline. -/
inductive DbgTarget where
  | map (a n : Nat)
  | key (sl : Sl) (slot : Nat)
  | tlhSram (a : Nat)
  | wharf (sl : Sl) (place : Nat)
  | sealc (sl : Sl) (place : Nat)
  | aes (sl : Sl)
  deriving DecidableEq, Repr, Inhabited

/-- Agents that reach the scratch window (R189, R190): Syust, a Pilot module, the Toll world, the Tollhouse, Syust's and BG63's Barge channels, a Pilot
module's Barge channels. -/
inductive ScrAgent where
  | syust | pilot (slot : Fin 8) | toll | tollhouse | barge | pilotBarge (slot : Fin 8)
  deriving DecidableEq, Repr, Inhabited

/-- One access to the scratch window: bytes read, with what the check finds, or the bytes written (R189). -/
inductive ScrAcc where
  | read (n : Nat) (chk : Chk)
  | write (bs : List Byte)
  deriving DecidableEq, Repr, Inhabited

/-- What Syust's scheduler finds of one Pilot slot at a tick (R436): Ferryman time used since the last tick, in ns, and whether the callback has returned. -/
structure PilotUse where
  slot : Fin 8
  ns : Nat := 0
  returned : Bool := false
  deriving DecidableEq, Repr, Inhabited

/-- Islands a stopped slip names as suspect or reporter (R20, Tables 15.2 to 15.5). -/
inductive Island where
  | landing (ld : Ld)
  | slice (sl : Sl)
  | qfab (q : Fin 4)
  | lane (q r : Fin 4)
  | fmn | tlh | brg
  deriving DecidableEq, Repr, Inhabited

/-- What a training of a link ends with (R42 to R52): speed and width codes of Table 2.7, reversal, what the partner supports, polarity. -/
structure Train where
  speed : BitVec 3
  width : BitVec 3
  reversed : Bool := false
  flitMode : Bool := true
  latOpt : Bool := true
  polarity : BitVec 16 := 0#16
  /-- credits the host advertises for what the landing sends -/
  hostCred : Nat := 0
  deriving DecidableEq, Repr, Inhabited

/-- A standard Initiate Dynamic Capacity Add or Release (R88, R92): landing, tag, sharing indication, and the extents, first byte and length. -/
structure DcReq where
  ld : Nat
  tag : BitVec 128 := 0#128
  shared : Bool := false
  exts : List (Nat × Nat) := []
  deriving DecidableEq, Repr, Inhabited

/-- Resources of Table 10.1. -/
inductive Share where
  | w | q | i
  deriving DecidableEq, Repr, Inhabited

/-- What a unit measured of one class in one 4 µs window (R314, R474): unit number, receipt in 1/1024, and whether demand of at least
the effective guarantee waited throughout. -/
structure Receipt where
  share : Share
  unit : Fin 16
  cls : Fin 64
  got : Nat
  demand : Bool := false
  deriving DecidableEq, Repr, Inhabited

/-- Command paths (Table 12.1). -/
inductive CmdPath where
  | primary (ld : Ld)
  | secondary (ld : Ld)
  | i3c
  | vdm (ld : Ld)
  | pilot (slot : Fin 8)
  deriving DecidableEq, Repr, Inhabited

/-- What the verification of one image finds in it (R422): the header's version, security version number, the SHA-384 of the key it carries,
whether its signature verifies and its body matches, and its digest. -/
structure Img where
  ver : BitVec 64 := 0#64
  svn : Nat := 0
  keyHash : BitVec 384 := 0#384
  sigOk : Bool := false
  digest : BitVec 384 := 0#384
  deriving DecidableEq, Repr, Inhabited

/-- One firmware bank: Tollhouse firmware, Toll monitor, Syust, and whether its self-test vector set unpacks (Table 19.7, R524). -/
structure Bank where
  tlh : Option Img := none
  mon : Option Img := none
  sy : Option Img := none
  vec : Bool := false
  deriving DecidableEq, Repr, Inhabited

/-- A Pilot package (Table 14.14). -/
structure Pkg where
  modid : BitVec 64 := 0#64
  svn : Nat := 0
  codeLen : Nat := 0
  dataLen : Nat := 0
  heap : Nat := 0
  scratch : Nat := 0
  nchan : Nat := 0
  entry : Nat := 0
  keyHash : BitVec 384 := 0#384
  sigOk : Bool := false
  digest : BitVec 384 := 0#384
  deriving DecidableEq, Repr, Inhabited

/-- What PLDM firmware update installs (R365, R423, R434). -/
inductive PldmPkg where
  | bank (b : Bank)
  | pilot (slot : Fin 8) (p : Pkg)
  deriving DecidableEq, Repr, Inhabited

/-- Arrays of the SRAM self-test (Table 19.4). -/
inductive SramArr where
  | wharf | scratch | pmc | sealCache | keyTable | pool | boarding | conflict | staging | fabric
  deriving DecidableEq, Repr, Inhabited

/-- One location that failed its first test: its array, the landing, slice, quadrant or Barge channel it lies in, its place there, and whether the second
test failed too (R523). -/
structure SramFail where
  arr : SramArr
  unit : Nat
  place : Nat := 0
  lasting : Bool := true
  deriving DecidableEq, Repr, Inhabited

/-- Compression lanes of a slice (R167). -/
inductive CmpLane where
  | cmp | dec0 | dec1
  deriving DecidableEq, Repr, Inhabited

/-- A DIMM's SPD identity and health as bring-up finds it (R518, R519). -/
structure SpdRead where
  /-- SPD readable, population within R274 -/
  ok : Bool := true
  type : Fin 3 := 0
  gib : Nat := 0
  dpc : Nat := 0
  ranks : Nat := 1
  x4 : Bool := true
  stack : Nat := 1
  speed : Nat := 0
  rows : Nat := 65536
  rfm : Option Nat := none
  /-- module serial numbers -/
  serial : List Nat := []
  /-- full training succeeds for set A, set B; speed reached in set A -/
  trainA : Bool := true
  trainB : Bool := true
  reach : Nat := 8800
  /-- write-read check of cached values and of fully trained values -/
  cacheOk : Bool := true
  checkOk : Bool := true
  deriving DecidableEq, Repr, Inhabited

/-- What a register write names (R13): an offset of a host-visible page with the size of the write (Tables 13.4 to 13.6), a firmware-internal register,
or a control the host sets in the registers CXL and PCIe define. -/
inductive RegId where
  /-- Rhaboind landing page: byte offset, bytes written (Table 13.5). -/
  | landingPage (ld : Ld) (off size : Nat)
  /-- Barge host-queue page (Table 13.4, R403). -/
  | hostQueue (ld : Ld) (off size : Nat)
  /-- counter page, read-only (R406). -/
  | counterPage (ld : Ld) (off size : Nat)
  /-- Barge registers as Syust sees them: CFG 00h, RING 08h, PTR 10h, STAT 18h (Tables 11.8 to 11.11). -/
  | barge (bg : BgNo) (off : Nat)
  /-- CTR.SEL of a counter (Table 16.1), CTR.ACC of a pair (Table 16.4), QOS.RCPT of a class (Table 16.6). -/
  | ctrSel (k : Fin 1024)
  | ctrAcc (k : Fin 512)
  | rcpt (cls : Cls)
  /-- TEL.PTMSTAT (Table 16.8), WHF.PINLOSS (Table 6.4), PWR.WAKE (Table 17.11). -/
  | ptmstat
  | pinloss
  | wake
  /-- MSI-X table entry: address, data, mask bit; MSI-X enable (R405). -/
  | msixAddr (ld : Ld) (vec : Fin 8)
  | msixData (ld : Ld) (vec : Fin 8)
  | msixMask (ld : Ld) (vec : Fin 8)
  | msixEnable (ld : Ld)
  /-- back-invalidation enable (R71), PTM enable (R478), ASPM L1 enable (R484). -/
  | biEnable (ld : Ld)
  | ptmEnable (ld : Ld)
  | aspmEnable (ld : Ld)
  /-- mode of an IDE stream: 0 off, 1 containment, 2 skid (R73). -/
  | ideMode (ld : Ld) (stream : IdeStream)
  /-- the I3C target's dynamic address, given by SETDASA or ENTDAA; 0 takes it away (R541). -/
  | i3cAddr
  deriving DecidableEq, Repr, Inhabited

end Sys2Proof
end

