-- ==== Sys2Proof/Syntax.lean ====
section
/-! DEFINITION. The commands of the block: one constructor per row of the opcode table, in its order. Where a row leaves to the silicon or to the outside
how a step comes out, the command carries that outcome as an operand. -/
namespace Sys2Proof

/-- One command. -/
inductive Instr where
  /-- MEM_READ_REQUEST (R26): A CXL.mem read (MemRd, MemInv) received at a landing is decoded, checked and served at its home slice from the Wharf, a Z entry
  or a DRAM fill. -/
  | memReadRequest (ld : Ld) (q : ReadReq) (ph : Phys)
  /-- MEM_WRITE_REQUEST (R32): A CXL.mem MemWr or MemWrPtl received at a landing is checked, ordered and buffered at its home slice, and the landing returns
  the completion. -/
  | memWriteRequest (ld : Ld) (q : WriteReq) (ph : Phys)
  /-- MEM_CLN_EVCT (R213): A MemClnEvct from a host updates the shared-line state at the home slice. -/
  | memClnEvct (ld : Ld) (hpa : BitVec 64) (tag : BitVec 16) (ph : Phys)
  /-- DRAM_READ_DATA_RETURN (R26): Data of a DRAM read arrives at the slice, is ECC-checked, decrypted, verified and decoded, and is forwarded and filled
  into the Wharf. `ph` is what the checks on the way find. -/
  | dramReadDataReturn (sl : Sl) (quad : BitVec 37) (ph : Phys)
  /-- MISS_TRACKER_ENTRY_FREE (R36): A freed quad-miss tracker entry is offered round-robin to landings with a request waiting for the home slice. -/
  | missTrackerEntryFree (sl : Sl) (ph : Phys)
  /-- DIRTY_LINE_WRITEBACK (R34): A dirty line leaving the Wharf is gathered, compressed, encrypted, placed, stored and marked clean or released. `mask`
  names the dirty quads. -/
  | dirtyLineWriteback (sl : Sl) (page : BitVec 33) (mask : BitVec 16) (ph : Phys)
  /-- HOLD_RELEASE (R134): When room appears, held writebacks are placed in the order they were held. -/
  | holdRelease (sl : Sl) (ph : Phys)
  /-- THOLD_EXPIRY (R134): A hold reaching tHOLD is placed from ballast or ends in capacity poison. `page` is the held page. -/
  | tholdExpiry (sl : Sl) (page : BitVec 33) (ph : Phys)
  /-- GROWTH_TOKEN_REFILL (R132): The growth token bucket of a channel in Ebb or Ballast grants p0165 operations per 10 µs. -/
  | growthTokenRefill (ch : Ch)
  /-- CLEANING_TICK (R180): A cleaning tick of tDIRTY/8 passes at a slice, making lines urgent once two ticks have passed since their DTICK. -/
  | cleaningTick (sl : Sl)
  /-- IDLE_CLEANING (R181): The idle scanner issues writebacks of dirty lines while channel utilisation is below p0175. `util` is the channel utilisation in
  %. -/
  | idleCleaning (sl : Sl) (util : Nat) (ph : Phys)
  /-- CLASS_TRIM (R178): A class over its Wharf maximum has its oldest lines invalidated or cleaned until it is at its maximum. -/
  | classTrim (sl : Sl) (cls : Cls) (ph : Phys)
  /-- PMC_TALLY_FLUSH (R121): The background flush writes back TALLY and TEPOCH of every dirty page-map-cache slot at least once a second. -/
  | pmcTallyFlush (sl : Sl)
  /-- TALLY_SWEEP_COMPLETE (R129): The sweep after a tally-epoch advance finishes and clears PGM.TEPOCH.SWEEP. -/
  | tallySweepComplete
  /-- SLIP_STOP (R20): A slip handshake phase incomplete for tSLIP reports a slip-stop fault naming the suspect island. `suspect` is the island that did not
  complete `phase`; `sender` and `receiver` are the ends of the slip, the reporter being the receiver when `byReceiver`. -/
  | slipStop (suspect sender receiver : Island) (byReceiver : Bool) (cls phase : Nat)
  /-- FLIT_RECEIVED (R62): A landing accepts a flit in sequence, applying its credit returns and passing its messages to the receive pool. -/
  | flitReceived (ld : Ld) (f : Flit)
  /-- INGRESS_DEPARTURE (R312): A waiting M2S message departs the receive pool to the fabric under class order, freeing its slots and returning credit. -/
  | ingressDeparture (ld : Ld) (ph : Phys)
  /-- CREDIT_RETURN_TIMER (R57): When no flit is due within tCRET, the landing transmits a flit carrying only credit returns. -/
  | creditReturnTimer (ld : Ld)
  /-- FLIT_ACKNOWLEDGE (R61): An acknowledgement from the partner frees replay-buffer entries. -/
  | flitAcknowledge (ld : Ld) (seq : Nat)
  /-- FLIT_REPLAY (R60): A NAK or retry request makes the landing replay flits from its replay buffer. -/
  | flitReplay (ld : Ld) (seq : Nat)
  /-- REPLAY_LIMIT (R63): A flit replayed four times without progress sends the landing into Recovery to retrain. -/
  | replayLimit (ld : Ld)
  /-- LINK_TRAINED (R42): Training of a landing completes at a speed, width and flit mode, enabling CXL.mem only at 8 GT/s or above. -/
  | linkTrained (ld : Ld) (t : Train)
  /-- LOCK_LOST (R65): Loss of symbol, block or flit lock puts the landing into recovery with its state kept. -/
  | lockLost (ld : Ld)
  /-- LOCK_REGAINED (R65): Lock returns before tDOWN and the landing resumes by replay. -/
  | lockRegained (ld : Ld)
  /-- TDOWN_EXPIRY (R64): Lock lost continuously for tDOWN declares the landing down. -/
  | tdownExpiry (ld : Ld)
  /-- PERST_ASSERT (R69): PERST_N held asserted for at least 1 µs resets its landing. `ns`: how long the pin has been held asserted. -/
  | perstAssert (ld : Ld) (ns : Nat)
  /-- PERST_DEASSERT (R69): Deassertion of PERST_N makes the landing enter Detect within 20 ms. -/
  | perstDeassert (ld : Ld)
  /-- HOT_RESET (R64): An in-band hot reset or link disable from the host declares the landing down. -/
  | hotReset (ld : Ld)
  /-- PARTNER_DETECT (R64): Training sets showing the partner has passed through Detect declare the landing down. -/
  | partnerDetect (ld : Ld)
  /-- IDE_MAC_EPOCH (R73): The MAC of an IDE epoch arrives and is verified, releasing or confirming the epoch's messages. `ok`: the MAC verifies; `newSlot`:
  the transmitter names the new key slot. -/
  | ideMacEpoch (ld : Ld) (stream : IdeStream) (dir : Dir) (ok newSlot : Bool)
  /-- KEY_PROG (R75): IDE_KM KEY_PROG loads a key into the idle slot of a stream direction. -/
  | keyProg (ld : Ld) (stream : IdeStream) (dir : Dir) (slot : Bool) (key : BitVec 256)
  /-- K_SET_GO (R75): IDE_KM K_SET_GO switches a stream direction to the named key slot. -/
  | kSetGo (ld : Ld) (stream : IdeStream) (dir : Dir) (slot : Bool)
  /-- HDM_DECODER_COMMIT (R81): The host commits the landing's HDM decoder, which is refused if its size, base or alias fields are invalid. -/
  | hdmDecoderCommit (ld : Ld) (hbase size dbase : BitVec 64) (iw ig : Nat)
  /-- BIRSP_RECEIVED (R219): A back-invalidate response from a host completes a pending snoop at the landing or home slice. -/
  | birspReceived (ld : Ld) (line : BitVec 39) (blk : Bool) (rsp : BiRsp)
  /-- BICONFLICT (R222): A host BIConflict is answered with BIConflictAck after earlier completions have been sent. -/
  | biconflict (ld : Ld) (line : BitVec 39)
  /-- SHARED_CREDIT_REQUEST (R218): A home slice requests a shared boarding-queue credit from a landing, which grants it while shared entries are free. -/
  | sharedCreditRequest (sl : Sl) (ld : Ld)
  /-- BOARDING_HEAD_SERVE (R219): The owner landing snoops its host for the head of a sector's boarding queue once the hold has expired. -/
  | boardingHeadServe (ld : Ld) (sector : BitVec 37)
  /-- TMINHOLD_EXPIRY (R221): The minimum hold of a newly won sector expires, allowing snoops for it. -/
  | tminholdExpiry (ld : Ld) (sector : BitVec 37)
  /-- HANDOFF (R220): A handoff from the owner landing updates the filter entry and passes or returns the remaining queue entries. -/
  | handoff (sl : Sl)
  /-- TRANSFER_DATA_ARRIVAL (R224): A data response reaches the requesting landing, which accepts the first with its epoch and completes its host's request.
  -/
  | transferDataArrival (ld : Ld)
  /-- TBIRSP_EXPIRY (R226): A snoop with no BIRsp after tBIRSP fences the landing with a Contained fault. -/
  | tbirspExpiry (ld : Ld) (line : BitVec 39)
  /-- LOSS_REPORT (R227): A loss report from a down landing settles its in-flight transfers at the home slice. -/
  | lossReport (sl : Sl)
  /-- FILTER_MOVE_COMPLETE (R232): The filter entries of a bypassed Wharf slice finish moving to the partner slice. -/
  | filterMoveComplete (sl : Sl)
  /-- OFFER_EXPIRY (R90): An extent still Offered after tOFFER returns to Free with an event to the Pool owner. -/
  | offerExpiry (n : Fin 32768)
  /-- RELEASE_DRAIN_COMPLETE (R93): A Releasing record whose admitted work has drained goes to Free or Reclaiming. -/
  | releaseDrainComplete (n : Fin 32768)
  /-- RECLAIM_COMPLETE (R94): Reclaiming of a record's blocks finishes with their entries Z and storage freed, and the record goes to Free. -/
  | reclaimComplete (n : Fin 32768)
  /-- SCRATCH_ACCESS (R189): A Ferryman, Tollhouse or Barge access to the scratch window reads or writes a scratch way, or ends in an access error. `off` is
  the byte offset in the window. -/
  | scratchAccess (ag : ScrAgent) (off : Nat) (acc : ScrAcc)
  /-- WAY_CONVERSION_COMPLETE (R192): A scratch-way conversion finishes in every slice and Set Parameter returns. -/
  | wayConversionComplete
  /-- RANGE_OPERATION_SLICE_DONE (R202): A slice reports completion of a range maintenance operation once every line before its marker is settled. `id` is
  the number of the operation. -/
  | rangeOperationSliceDone (sl : Sl) (id : Nat)
  /-- WHARF_SLICE_DRAIN_COMPLETE (R203): A fenced Wharf slice finishes draining and enters bypass. -/
  | wharfSliceDrainComplete (sl : Sl) (ph : Phys)
  /-- QUAD_BUFFER_GATHER_TIMEOUT (R204): Full-line writes gathered 100 ns in a bypassed slice's quad buffer are completed and written back. -/
  | quadBufferGatherTimeout (sl : Sl) (quad : BitVec 37) (ph : Phys)
  /-- SEAL_NODE_CLEAN (R257): A dirty tree node is cleaned or evicted, advancing its parent counter and writing both copies. `blk`, `lvl`, `idx` name the
  node. -/
  | sealNodeClean (sl : Sl) (blk lvl idx : Nat)
  /-- KEY_IMPORT (R426): A host's vendor-defined SPDM request imports a context key into an Awaiting-key context. `keys` says which keys are given. -/
  | keyImport (ld : Ld) (ctx keys : Nat) (k0 k1 : BitVec 256)
  /-- DIMM_TEMP_POLL (R276): Every 10 ms the DIMM temperature sensors are read and DRC.STAT.TEMP updated. `reading`: the hottest sensor in °C, none when the
  poll failed. -/
  | dimmTempPoll (ch : Ch) (reading : Option Int)
  /-- REFRESH_DUE (R284): A same-bank refresh falls due at tREFI and issues, postponed up to its limit. `busy`: the bank has demand waiting. -/
  | refreshDue (ch : Ch) (bank : Nat) (busy : Bool)
  /-- TREFW_CLEAR (R285): At each tREFW boundary the row-activation tracker clears every table. -/
  | trefwClear (ch : Ch)
  /-- RFM_THRESHOLD (R286): A bank's RAA count reaching the DIMM's threshold issues RFMsb. -/
  | rfmThreshold (ch : Ch) (bank : Nat)
  /-- ENTRY_STARVE (R280): A scheduler entry waiting longer than tSTARVE rises to the head of its group. -/
  | entryStarve (ch : Ch) (quad : BitVec 37)
  /-- RETRAINING_PAUSE (R287): Each tRETRAIN a channel takes its retraining pause, repeating it after 100 µs if the margin stays low. `low`: the margin is
  low. -/
  | retrainingPause (ch : Ch) (low : Bool)
  /-- ALERT_N_ERROR (R295): A write-CRC or CA-parity error on ALERT_n replays commands and fences the channel if it recurs. `off`: channel byte offset of the
  command; `chk`: how the replay comes out. -/
  | alertNError (ch : Ch) (off : Nat) (chk : Chk)
  /-- PATROL_SCRUB (R296): Patrol scrub reads each burst once per tSCRUB, correcting and reporting errors. -/
  | patrolScrub (ch : Ch) (ph : Phys)
  /-- SOFT_REPAIR (R298): A queued row is repaired by sPPR in one channel pause. `clean`: the row reads clean after the repair. -/
  | softRepair (ch : Ch) (clean : Bool)
  /-- DELIVERABLE_RECOMPUTE (R317): After a lasting change the power manager recomputes and broadcasts D_W, D_Q and D_I. -/
  | deliverableRecompute
  /-- QOS_WINDOW_BOUNDARY (R314): At each 4 µs window boundary units apply admitted changes and scaled shares and measure class receipt. `rs`: what the units
  measured. -/
  | qosWindowBoundary (rs : List Receipt)
  /-- BARGE_DOORBELL (R324): A write of TAIL posts descriptors to a Barge channel's ring. -/
  | bargeDoorbell (bg : BgNo) (tail : BitVec 17)
  /-- BARGE_DESCRIPTOR_FETCH (R325): The Barge reads the descriptor at HEAD and starts it if OWN is set. -/
  | bargeDescriptorFetch (bg : BgNo) (ph : Phys)
  /-- BARGE_DESCRIPTOR_COMPLETE (R326): A descriptor's writes are all accepted, and the Barge writes status, clears OWN, advances HEAD and interrupts. -/
  | bargeDescriptorComplete (bg : BgNo) (ph : Phys)
  /-- COPY (R333): A COPY descriptor copies LEN bytes from SRC to DST. At most `lines` lines are taken in this step. -/
  | copy (bg : BgNo) (lines : Nat) (ph : Phys)
  /-- ZERO (R337): A ZERO descriptor zeroes a range, setting whole pages to Z. -/
  | zero (bg : BgNo) (lines : Nat) (ph : Phys)
  /-- FILL (R337): A FILL descriptor fills a range with a 64-bit pattern. -/
  | fill (bg : BgNo) (lines : Nat) (ph : Phys)
  /-- PACK (R154): A PACK descriptor stores P pages in a tight K layout or as Z. At most `pages` pages are taken in this step. -/
  | pack (bg : BgNo) (pages : Nat) (ph : Phys)
  /-- UNPACK (R330): An UNPACK descriptor turns K pages into P pages. -/
  | unpack (bg : BgNo) (pages : Nat) (ph : Phys)
  /-- REPACK (R154): A REPACK descriptor relays K and P pages tightly. -/
  | repack (bg : BgNo) (pages : Nat) (ph : Phys)
  /-- MIGRATE (R330): A MIGRATE descriptor moves page storage to a new berth in the named form. -/
  | migrate (bg : BgNo) (pages : Nat) (ph : Phys)
  /-- PAGE_RETIREMENT (R341): A MIGRATE with RETIRE moves a page out of a retired berth, ignoring PIN and TCOND. -/
  | pageRetirement (bg : BgNo) (pages : Nat) (ph : Phys)
  /-- REKEY (R267): A REKEY descriptor re-encrypts a page from its context to another in the home slice. -/
  | rekey (bg : BgNo) (pages : Nat) (ph : Phys)
  /-- SCRUB (R330): A SCRUB descriptor reads and verifies every stored quad of its pages. -/
  | scrub (bg : BgNo) (pages : Nat) (ph : Phys)
  /-- DICT_UNPACK (R164): A DICT-UNPACK descriptor decodes a D-format stream within the output limit. -/
  | dictUnpack (bg : BgNo) (lines : Nat) (ph : Phys)
  /-- DICT_PACK (R164): A DICT-PACK descriptor encodes bytes into a D-format stream within the output limit. -/
  | dictPack (bg : BgNo) (lines : Nat) (ph : Phys)
  /-- BARGE_STOP (R343): Setting STOP stops the channel at the next descriptor boundary. -/
  | bargeStop (bg : BgNo)
  /-- BARGE_RUN (R344): Writing RUN takes a channel out of Stopped or Halted. -/
  | bargeRun (bg : BgNo)
  /-- BARGE_ENABLE (R404): A CFG write that sets ENABLE on a Disabled channel enables it with the written RINGLOG2 and IRQEN. -/
  | bargeEnable (bg : BgNo) (ringlog2 : Fin 16) (irqen : Bool)
  /-- BARGE_DISABLE (R345): Clearing ENABLE acts as a STOP and leaves the channel Disabled at the boundary. -/
  | bargeDisable (bg : BgNo)
  /-- BUS_ERROR_RETRY (R344): A beat that met a bus error is retried after p01B2, and the channel halts when retries run out. `ok`: the retried beat
  succeeds. -/
  | busErrorRetry (bg : BgNo) (ok : Bool)
  /-- UNSUPPORTED_COMMAND (R366): A command with an opcode not supported or not permitted to the role is answered Unsupported. -/
  | unsupportedCommand (p : CmdPath) (opcode : BitVec 16)
  /-- BACKGROUND_COMPLETE (R361): A background command finishes and its final return code becomes readable. `done`: pages or steps completed when it ends;
  for a scan or a rekey, how far it came. -/
  | backgroundComplete (p : CmdPath) (done : Nat) (ph : Phys)
  /-- IDENTIFY (R366): The Identify command returns device identity. -/
  | identify (p : CmdPath)
  /-- BACKGROUND_OPERATION_STATUS (R361): Returns progress and return code of the path's background command. -/
  | backgroundOperationStatus (p : CmdPath)
  /-- REQUEST_ABORT_BACKGROUND_OPERATION (R361): Stops an abortable background command at its next page or step. -/
  | requestAbortBackgroundOperation (p : CmdPath)
  /-- GET_RESPONSE_MESSAGE_LIMIT (R366): Returns the CCI response message limit. -/
  | getResponseMessageLimit (p : CmdPath)
  /-- SET_RESPONSE_MESSAGE_LIMIT (R366): Sets the CCI response message limit from 256 B to 64 KiB. -/
  | setResponseMessageLimit (p : CmdPath) (log2 : BitVec 8)
  /-- GET_EVENT_RECORDS (R366): Returns event records from the issuer's logs. -/
  | getEventRecords (p : CmdPath) (log : BitVec 8)
  /-- CLEAR_EVENT_RECORDS (R366): Clears event records from the issuer's logs. -/
  | clearEventRecords (p : CmdPath) (log : BitVec 8) (all : Bool) (handles : List Nat)
  /-- GET_EVENT_INTERRUPT_POLICY (R366): Returns the event interrupt policy. -/
  | getEventInterruptPolicy (p : CmdPath)
  /-- SET_EVENT_INTERRUPT_POLICY (R366): Sets the event interrupt policy. -/
  | setEventInterruptPolicy (p : CmdPath) (modes : List Nat)
  /-- GET_FW_INFO (R366): Returns the firmware slots and versions. -/
  | getFwInfo (p : CmdPath)
  /-- TRANSFER_FW (R530): Writes a firmware image into the inactive bank. -/
  | transferFw (p : CmdPath) (slot : BitVec 8) (img : Bank)
  /-- ACTIVATE_FW (R365): Activates the inactive bank online through quiesce, verification and restart, or offline at the next reset. -/
  | activateFw (p : CmdPath) (slot : BitVec 8) (online : Bool)
  /-- PLDM_FW_UPDATE (R365): PLDM firmware update over MCTP installs Syust or Pilot packages. -/
  | pldmFwUpdate (pkg : PldmPkg)
  /-- GET_TIMESTAMP (R366): Returns device time. -/
  | getTimestamp (p : CmdPath)
  /-- SET_TIMESTAMP (R478): Steps device time, refused while PTM-synchronised. -/
  | setTimestamp (p : CmdPath) (time : BitVec 64)
  /-- GET_SUPPORTED_LOGS (R366): Returns the supported log list. -/
  | getSupportedLogs (p : CmdPath)
  /-- GET_LOG (R366): Returns the Command Effects Log. -/
  | getLog (p : CmdPath) (cel : Bool)
  /-- GET_SUPPORTED_FEATURES (R366): Returns the supported maintenance features. -/
  | getSupportedFeatures (p : CmdPath)
  /-- GET_FEATURE (R366): Returns a maintenance feature setting. -/
  | getFeature (p : CmdPath) (k : Nat)
  /-- SET_FEATURE (R366): Sets a maintenance feature. -/
  | setFeature (p : CmdPath) (k : Nat) (v : List Byte)
  /-- PERFORM_MAINTENANCE (R299): Queues a row for soft repair, retiring used granules first. -/
  | performMaintenance (p : CmdPath) (cls sub : BitVec 8) (ch : Nat) (bank row : Nat)
  /-- IDENTIFY_MEMORY_DEVICE (R366): Returns memory-device identity with all capacity dynamic. -/
  | identifyMemoryDevice (p : CmdPath)
  /-- GET_HEALTH_INFO (R479): Returns health information including device temperature. -/
  | getHealthInfo (p : CmdPath)
  /-- GET_ALERT_CONFIGURATION (R366): Returns the alert configuration. -/
  | getAlertConfiguration (p : CmdPath)
  /-- SET_ALERT_CONFIGURATION (R366): Sets the alert configuration. -/
  | setAlertConfiguration (p : CmdPath) (v : List Byte)
  /-- GET_POISON_LIST (R367): Returns the landing's poison list of up to 512 entries. -/
  | getPoisonList (p : CmdPath) (dpa len : BitVec 64)
  /-- INJECT_POISON (R367): Sets the QPOIS bit of an address's quad, up to 16 per landing. -/
  | injectPoison (p : CmdPath) (dpa : BitVec 64)
  /-- CLEAR_POISON (R367): Writes 64 B to a line as a full-line host write. -/
  | clearPoison (p : CmdPath) (dpa : BitVec 64) (data : Line) (ph : Phys)
  /-- GET_SCAN_MEDIA_CAPABILITIES (R366): Returns scan-media capabilities. -/
  | getScanMediaCapabilities (p : CmdPath) (dpa len : BitVec 64)
  /-- SCAN_MEDIA (R367): Runs a SCRUB of a range and adds lasting errors to the poison list. -/
  | scanMedia (p : CmdPath) (dpa len : BitVec 64)
  /-- GET_SCAN_MEDIA_RESULTS (R366): Returns scan-media results. -/
  | getScanMediaResults (p : CmdPath)
  /-- SANITIZE (R369): Zeroes every berth pool, discards caches and disables every context but 0. -/
  | sanitize (p : CmdPath)
  /-- GET_DYNAMIC_CAPACITY_CONFIGURATION (R366): Returns the landing's dynamic-capacity configuration. -/
  | getDynamicCapacityConfiguration (p : CmdPath)
  /-- GET_DYNAMIC_CAPACITY_EXTENT_LIST (R366): Returns the landing's extent list. -/
  | getDynamicCapacityExtentList (p : CmdPath)
  /-- ADD_DYNAMIC_CAPACITY_RESPONSE (R90): The host's response grants the listed Offered extents and frees the rest of the answered add. -/
  | addDynamicCapacityResponse (p : CmdPath) (exts : List (Nat × Nat))
  /-- RELEASE_DYNAMIC_CAPACITY (R92): The host releases Granted extents, which enter Releasing. -/
  | releaseDynamicCapacity (p : CmdPath) (exts : List (Nat × Nat))
  /-- GET_DCD_INFO (R366): Returns dynamic-capacity device information. -/
  | getDcdInfo (p : CmdPath)
  /-- GET_HOST_DC_REGION_CONFIGURATION (R366): Returns a host's region configuration. -/
  | getHostDcRegionConfiguration (p : CmdPath) (host : Nat)
  /-- SET_DC_REGION_CONFIGURATION (R368): Accepted only when it restates the fixed region with 256 MiB blocks. -/
  | setDcRegionConfiguration (p : CmdPath) (region : Nat) (base len block : BitVec 64)
  /-- GET_DC_REGION_EXTENT_LISTS (R366): Returns region extent lists. -/
  | getDcRegionExtentLists (p : CmdPath) (host : Nat)
  /-- INITIATE_DYNAMIC_CAPACITY_ADD (R88): Checks all listed extents and, if all pass, writes Offered records and sends add events. -/
  | initiateDynamicCapacityAdd (p : CmdPath) (q : DcReq)
  /-- INITIATE_DYNAMIC_CAPACITY_RELEASE (R368): Requests release from the host, or forces it with the forced-removal flag. -/
  | initiateDynamicCapacityRelease (p : CmdPath) (q : DcReq) (force : Bool)
  /-- DYNAMIC_CAPACITY_ADD_REFERENCE (R366): Adds a reference to a tagged extent. -/
  | dynamicCapacityAddReference (p : CmdPath) (tag : BitVec 128)
  /-- DYNAMIC_CAPACITY_REMOVE_REFERENCE (R366): Removes a reference to a tagged extent. -/
  | dynamicCapacityRemoveReference (p : CmdPath) (tag : BitVec 128)
  /-- DYNAMIC_CAPACITY_LIST_TAGS (R366): Lists extent tags. -/
  | dynamicCapacityListTags (p : CmdPath)
  /-- GET_MULTI_HEADED_INFO (R366): Returns multi-headed device information. -/
  | getMultiHeadedInfo (p : CmdPath)
  /-- GET_HEAD_INFO (R366): Returns head information. -/
  | getHeadInfo (p : CmdPath) (head : Nat)
  /-- STAGE_EXTENT_ATTRIBUTES (R371): Stages homing, writability and context for the next add of a block range. -/
  | stageExtentAttributes (p : CmdPath) (payload : List Byte)
  /-- GET_EXTENT_RECORDS (R370): Returns extent records. -/
  | getExtentRecords (p : CmdPath) (payload : List Byte)
  /-- WITHDRAW_OFFER (R372): Moves an Offered record to Free and sends the host the release. -/
  | withdrawOffer (p : CmdPath) (payload : List Byte)
  /-- GET_PAGE_MAP_ENTRIES (R475): Returns page-map entries with tallies against the current epoch. -/
  | getPageMapEntries (p : CmdPath) (payload : List Byte)
  /-- ADVANCE_TALLY_EPOCH (R128): Advances the global tally epoch in every slice and starts the sweep. -/
  | advanceTallyEpoch (p : CmdPath) (payload : List Byte)
  /-- SET_PAGE_PIN (R109): Sets or clears the PIN bit of page-map entries. -/
  | setPagePin (p : CmdPath) (payload : List Byte)
  /-- WHARF_PIN (R187): Pins or unpins Wharf lines of a range within the per-set limit. -/
  | wharfPin (p : CmdPath) (payload : List Byte)
  /-- WHARF_MAINTENANCE (R198): Cleans or invalidates the Wharf lines of a range. -/
  | wharfMaintenance (p : CmdPath) (payload : List Byte)
  /-- CLEAR_ADRIFT (R230): Ends the Adrift state of lines in a range by zero-fill or last copy. -/
  | clearAdrift (p : CmdPath) (payload : List Byte)
  /-- PAGE_MAP_AUDIT (R374): Counts and optionally frees used granules that no entry references. -/
  | pageMapAudit (p : CmdPath) (payload : List Byte)
  /-- SET_HOST_QUEUE_PERMISSION (R346): Sets or clears HOSTOK of a landing's host Barge queue. -/
  | setHostQueuePermission (p : CmdPath) (payload : List Byte)
  /-- GET_CAPACITY_STATUS (R370): Returns per-channel or per-extent capacity figures. -/
  | getCapacityStatus (p : CmdPath) (payload : List Byte)
  /-- ENABLE_CONTEXT (R238): Enables a context with a generated key or puts it in Awaiting key. -/
  | enableContext (p : CmdPath) (payload : List Byte)
  /-- DISABLE_CONTEXT (R239): Disables an unused context and erases its keys. -/
  | disableContext (p : CmdPath) (payload : List Byte)
  /-- GET_CONTEXT_RECORDS (R376): Returns context records. -/
  | getContextRecords (p : CmdPath) (payload : List Byte)
  /-- REKEY_EXTENT (R268): Sets a new context for an extent's records and posts REKEY for its pages. -/
  | rekeyExtent (p : CmdPath) (payload : List Byte)
  /-- RESEAL_SUBTREE (R265): Zeroes every page beneath a tree node and resets the node. -/
  | resealSubtree (p : CmdPath) (payload : List Byte)
  /-- SET_CLASS_RECORD (R309): Writes a service-class record subject to admission control. -/
  | setClassRecord (p : CmdPath) (payload : List Byte)
  /-- GET_CLASS_RECORDS (R370): Returns class records. -/
  | getClassRecords (p : CmdPath) (payload : List Byte)
  /-- SET_LABEL_TABLE (R306): Writes label-table entries of a landing subject to admission. -/
  | setLabelTable (p : CmdPath) (payload : List Byte)
  /-- GET_CLASS_OCCUPANCY (R370): Returns a class's occupancy per slice and landing. -/
  | getClassOccupancy (p : CmdPath) (payload : List Byte)
  /-- GET_FAULT_RECORDS (R445): Returns fault records from the Lookout. -/
  | getFaultRecords (p : CmdPath) (payload : List Byte)
  /-- ACKNOWLEDGE_FAULT (R459): Sets ACK on a fault record. -/
  | acknowledgeFault (p : CmdPath) (payload : List Byte)
  /-- INJECT_FAULT (R466): Sets a force bit or inverts check bits at a source's checker. -/
  | injectFault (p : CmdPath) (payload : List Byte)
  /-- FENCE_UNIT (R379): Applies the fence of a lane, Wharf slice, landing, link or channel. -/
  | fenceUnit (p : CmdPath) (payload : List Byte)
  /-- RESTORE_UNIT (R379): Re-enables a fenced landing. -/
  | restoreUnit (p : CmdPath) (payload : List Byte)
  /-- RETRAIN_CHANNEL (R380): Retrains a channel in a series of pauses. -/
  | retrainChannel (p : CmdPath) (payload : List Byte)
  /-- LANDING_TO_MOORED (R483): Moors one landing, enabling eager ASPM L1 entry. -/
  | landingToMoored (p : CmdPath) (ld : Ld)
  /-- LANDING_TO_UNDERWAY (R484): Returns one landing to Underway. -/
  | landingToUnderway (p : CmdPath) (ld : Ld)
  /-- DEVICE_TO_MOORED (R485): Starts device Moored entry with a Wharf clean. -/
  | deviceToMoored (p : CmdPath)
  /-- DEVICE_TO_LAID_UP (R486): Starts device Laid-up entry preparation. -/
  | deviceToLaidUp (p : CmdPath)
  /-- DEVICE_TO_UNDERWAY (R488): Returns the device from Moored or Laid-up to Underway. -/
  | deviceToUnderway (p : CmdPath)
  /-- MOORED_COMMIT (R485): The Moored clean completes at the commit point and the frequency change follows. -/
  | mooredCommit
  /-- LAID_UP_COMMIT (R486): Laid-up preparation completes and the device powers down its islands. -/
  | laidUpCommit
  /-- GET_POWER_STATUS (R370): Returns the power section and landing states. -/
  | getPowerStatus (p : CmdPath) (payload : List Byte)
  /-- WARM_DEVICE_RESET (R526): Begins a warm device reset 1 ms after returning. -/
  | warmDeviceReset (p : CmdPath) (payload : List Byte)
  /-- WARM_RESET_PREPARATION_DONE (R526): Warm reset preparation ends and the core islands are reset. -/
  | warmResetPreparationDone
  /-- WARM_RESET_ESCALATION (R527): Preparation unfinished 200 ms after C802h turns the reset cold. -/
  | warmResetEscalation
  /-- GET_GANGWAY_STATUS (R370): Returns Gangway readings and state. -/
  | getGangwayStatus (p : CmdPath) (payload : List Byte)
  /-- MANIFEST (R384): Takes or reads a Manifest snapshot part. -/
  | manifest (p : CmdPath) (payload : List Byte)
  /-- MANIFEST_SNAPSHOT_EXPIRY (R384): A path's snapshot not read for 60 s is dropped. -/
  | manifestSnapshotExpiry (p : CmdPath)
  /-- GET_PARAMETER (R382): Returns parameter values, flags and pending values. -/
  | getParameter (p : CmdPath) (payload : List Byte)
  /-- SET_PARAMETER (R382): Checks and applies parameter values all or none, live or pending. -/
  | setParameter (p : CmdPath) (payload : List Byte)
  /-- GET_PERSISTENT_LOG (R383): Returns persistent-log entries. -/
  | getPersistentLog (p : CmdPath) (payload : List Byte)
  /-- MCALL (R411): A monitor call enters the Toll world with a call block, or raises a sandbox fault if misused. `slot`: the Pilot module that calls, none
  for Syust; `blk`: the call block; `img`: what an image verification would find. -/
  | mcall (slot : Option (Fin 8)) (blk : Nat) (img : Img)
  /-- TM_VERSION (R413): Returns monitor and Tollhouse versions. -/
  | tmVersion (blk : Fin 8)
  /-- TM_RESULT (R412): Returns the final status of a ticket. -/
  | tmResult (blk : Fin 8) (ticket : BitVec 64)
  /-- TM_REGION_SET (R417): Writes a region register unless fused or locked. -/
  | tmRegionSet (blk : Fin 8) (mem region lo hi : BitVec 64)
  /-- TM_REGION_GET (R413): Reads a region register. -/
  | tmRegionGet (blk : Fin 8) (mem region : BitVec 64)
  /-- TM_HOLD (R430): Sets or clears a secure-hold bit. -/
  | tmHold (blk : Fin 8) (slice set : BitVec 64)
  /-- TM_CTX_ENABLE (R413): Posts a context enable to the Tollhouse. -/
  | tmCtxEnable (blk : Fin 8) (ctx flags mask : BitVec 64)
  /-- TM_CTX_DISABLE (R413): Posts a context disable to the Tollhouse. -/
  | tmCtxDisable (blk : Fin 8) (ctx : BitVec 64)
  /-- TM_IMG_VERIFY (R422): Posts an image verification to the Tollhouse. `img`: what the verification finds. -/
  | tmImgVerify (blk : Fin 8) (kind addr len slot : BitVec 64) (img : Img)
  /-- TM_ARB_COMMIT (R413): Blows anti-rollback fuses up to an SVN. -/
  | tmArbCommit (blk : Fin 8) (kind svn : BitVec 64)
  /-- TM_MEASURE (R424): Appends a measurement-log entry. -/
  | tmMeasure (blk : Fin 8) (kind slot addr : BitVec 64)
  /-- TM_SPDM_XFER (R425): Passes an SPDM message to the Tollhouse responder. -/
  | tmSpdmXfer (blk : Fin 8) (transport addr len out : BitVec 64)
  /-- TM_RANDOM (R413): Returns random bytes from the DRBG. -/
  | tmRandom (blk : Fin 8) (addr len : BitVec 64)
  /-- TM_DEBUG_UNLOCK (R432): Verifies a debug unlock token and grants DBG access. `sigOk`: the token signature verifies. -/
  | tmDebugUnlock (blk : Fin 8) (addr len : BitVec 64) (sigOk : Bool)
  /-- TM_TLH_STATUS (R413): Returns Tollhouse state and counts. -/
  | tmTlhStatus (blk : Fin 8)
  /-- TOLLHOUSE_RESPONSE (R412): The Tollhouse answers a posted request and the Toll world raises the completion interrupt. -/
  | tollhouseResponse
  /-- TICKET_TIMEOUT (R412): A ticket pending 5 ms completes with TM_EBUSY_TLH. -/
  | ticketTimeout (ticket : Nat)
  /-- HEARTBEAT_TIMEOUT (R427): No Tollhouse heartbeat for 100 ms restarts the Tollhouse alone. -/
  | heartbeatTimeout
  /-- TOLLHOUSE_RESTART_COMPLETE (R427): The Tollhouse restart finishes re-verification, key recovery and reconciliation, or ends Stopped. `readOk`: the
  carve-out reads back. -/
  | tollhouseRestartComplete (readOk : Bool)
  /-- STOP_CLOCK (R429): PWR.REQ stops a slice's clock unless it is secure-held. -/
  | stopClock (slice : Fin 64)
  /-- START_CLOCK (R429): PWR.REQ starts a slice's clock. -/
  | startClock (slice : Fin 64)
  /-- REMOVE_POWER (R429): PWR.REQ removes a slice's power unless it is secure-held. -/
  | removePower (slice : Fin 64)
  /-- RESTORE_POWER (R429): PWR.REQ restores a slice's power. -/
  | restorePower (slice : Fin 64)
  /-- PILOT_PACKAGE_ACTIVATION (R434): A newly installed Pilot package replaces the module in its slot at its next callback return. -/
  | pilotPackageActivation (slot : Fin 8)
  /-- PLT_CMD (R437): A Pilot module issues an Operator command. -/
  | pltCmd (slot : Fin 8) (opcode : BitVec 16) (payload : List Byte)
  /-- PLT_EVENT_WAIT (R437): A Pilot module waits for an event. -/
  | pltEventWait (slot : Fin 8) (ns : BitVec 64)
  /-- PLT_BARGE_CLAIM (R437): A Pilot module claims Barge channels within its limit. -/
  | pltBargeClaim (slot : Fin 8) (n : Nat)
  /-- PLT_BARGE_RELEASE (R437): A Pilot module releases a Barge channel. -/
  | pltBargeRelease (slot : Fin 8) (ch : Nat)
  /-- PLT_BARGE_POST (R437): A Pilot module posts descriptors to a channel it holds. -/
  | pltBargePost (slot : Fin 8) (ch : Nat) (descs : List Line)
  /-- PLT_BALLAST_POST (R350): A Pilot module posts cold-page candidates to the BG63 ring. -/
  | pltBallastPost (slot : Fin 8) (pages : List Nat)
  /-- PLT_SCRATCH_BASE (R437): Returns the module's scratch base. -/
  | pltScratchBase (slot : Fin 8)
  /-- PLT_COUNTER_READ (R469): Reads a counter pair atomically. -/
  | pltCounterRead (slot : Fin 8) (pair : Nat)
  /-- PLT_TIME (R437): Returns device time. -/
  | pltTime (slot : Fin 8)
  /-- PLT_LOG (R437): Writes a module log message. -/
  | pltLog (slot : Fin 8) (level : Nat) (msg : List Byte)
  /-- PILOT_SCHEDULER_TICK (R436): At each 1 ms tick Syust enforces module time and callback limits. `uses`: what the scheduler finds of each slot. -/
  | pilotSchedulerTick (uses : List PilotUse)
  /-- PILOT_RESTART (R439): One second after a sandbox fault the module is started again. -/
  | pilotRestart (slot : Fin 8)
  /-- DEBUG_READ (R270): A debug read is served or refused with zeros and logged. -/
  | debugRead (target : DbgTarget)
  /-- FAULT_REPORT (R441): A source asserts its reporting pair and the Lookout records, merges, escalates, fences and signals it. `full`: the detail latch of
  the source is full. -/
  | faultReport (src : Fin 2048) (det0 det1 : BitVec 64) (full : Bool)
  /-- WIRE_BROKEN (R442): A report pair with equal rails on a third sample is taken as asserting and a wire-fault record is made. -/
  | wireBroken (src : Fin 2048)
  /-- WIRE_RESTORED (R442): Rails differing again restore a broken report wire. -/
  | wireRestored (src : Fin 2048)
  /-- SOURCE_FORCE (R465): Setting a source's FORCE bit makes the Lookout take it as asserting with INJ set. -/
  | sourceForce (src : Fin 2048) (on : Bool)
  /-- FERRYMAN_RESTART (R39): Syust restarts, rebuilds its view, resumes journalled commands and drains held records and alerts. -/
  | ferrymanRestart
  /-- KEEP_ALIVE_TIMEOUT (R464): No Lookout keep-alive for 100 µs makes the Mooring island record 702h and assert FATAL_N. -/
  | keepAliveTimeout
  /-- MOORING_LINK_UP (R464): The mooring link comes up and retention records are delivered to the Lookout. -/
  | mooringLinkUp
  /-- COUNTER_WINDOW_BOUNDARY (R471): At each WINLEN boundary accumulators and meters latch and counter pages update. -/
  | counterWindowBoundary
  /-- PTM_DIALOG (R478): Every 10 ms the time-source landing runs a PTM dialog and slews or steps device time. `offset`: what device time must move by, in
  ns. -/
  | ptmDialog (offset : Int)
  /-- PTM_SYNC_TIMEOUT (R478): No successful PTM dialog for 100 ms clears SYNC. -/
  | ptmSyncTimeout
  /-- SENSOR_SAMPLE (R479): Every 1 ms the sensor ADCs sample and write TEL.SENS. `vals`: the readings of the sensors in order. -/
  | sensorSample (vals : List Int)
  /-- THROTTLE_STEP_RISE (R492): Each millisecond above the junction or DIMM limit raises throttle steps. -/
  | throttleStepRise
  /-- THROTTLE_STEP_FALL (R492): Every 10 ms below the limit by the margin lowers a throttle step. -/
  | throttleStepFall
  /-- THERMTRIP (R493): A junction reaching p0083 asserts THERMTRIP_N and records a Fatal fault. -/
  | thermtrip (sensor : Fin 22)
  /-- ASPM_L1_ENTRY (R484): A Moored landing idle for 1 µs requests ASPM L1 entry. -/
  | aspmL1Entry (ld : Ld)
  /-- I3C_ADDRESS_MATCH (R488): An I3C private write to the target address wakes the device. -/
  | i3cAddressMatch
  /-- WAKE_PIN (R488): A WAKE_N pin held active for 1 µs wakes the device. `high`: level held, for `ns`. -/
  | wakePin (pin : Fin 4) (high : Bool) (ns : Nat)
  /-- LINK_ACTIVITY_WAKE (R488): Electrical-idle exit on a landing in L1 wakes a Moored device. -/
  | linkActivityWake (ld : Ld)
  /-- AUX_POWER_APPLIED (R512): 3.3 V auxiliary power reaching threshold resets the Mooring island and loads the Gangway parameters. -/
  | auxPowerApplied
  /-- AUX_POWER_LOST (R497): Loss of 3.3 V auxiliary power takes the device Off. -/
  | auxPowerLost
  /-- PRESENCE_QUALIFIED (R505): PRESENT_N asserted for 20 ms qualifies presence. Voltages are in mV, currents in mA, times in ns, the diode in 0.1 °C, here
  and in the rows that follow. -/
  | presenceQualified (vin : Nat)
  /-- BOARD_PULL (R505): PRESENT_N deasserted for 20 ms turns the gate off and reloads retries. -/
  | boardPull
  /-- VIN_OUT_OF_RANGE (R497): VIN below 9.6 V or above 14.5 V turns the gate off into Input fault. -/
  | vinOutOfRange (vin : Nat)
  /-- VIN_RECOVERED (R497): VIN in range for 20 ms returns the Gangway to Standby. -/
  | vinRecovered (vin : Nat)
  /-- RAMP_COMPLETE (R498): VOUT reaching VIN − 0.5 V fully enhances the gate and enters Qualifying. -/
  | rampComplete (vin vout : Nat)
  /-- CURRENT_LIMIT_REACHED (R499): Current reaching the limit regulates the gate and runs the breaker timer. -/
  | currentLimitReached (current : Nat)
  /-- CURRENT_BELOW_LIMIT (R499): Current falling below the limit leaves Limiting, and 1 ms below 95 % clears the timer. `held`: time spent at the limit;
  `clear`: it then stayed below 95 % for 1 ms. -/
  | currentBelowLimit (held : Nat) (clear : Bool)
  /-- BREAKER_TRIP (R499): Accumulated time at the limit reaching p00C2 trips the breaker. `held`: time spent at the limit since the last such row. -/
  | breakerTrip (held : Nat)
  /-- FAST_TRIP (R500): Current above the fast-trip level for 200 ns trips the gate. -/
  | fastTrip (current : Nat)
  /-- FET_MODEL_UPDATE (R501): Every 1 µs the FET thermal model updates each FET's junction estimate. -/
  | fetModelUpdate (vin vout current : Nat) (diode : Int)
  /-- FET_SHORT (R503): VOUT above 1.0 V for 5 ms with the gate off enters Shorted and asserts DISCONNECT_N. -/
  | fetShort (vout : Nat)
  /-- RETRY_START (R504): After the retry interval with FETs cool enough, a retry starts a ramp. -/
  | retryStart
  /-- RETRY_RELOAD (R504): PG held for 60 s reloads RETRIES. -/
  | retryReload
  /-- PG_ASSERT (R507): A 2 ms qualification window with no fault timer asserts PG and latches the PG-fall threshold. -/
  | pgAssert (vin : Nat)
  /-- PG_FALL (R507): VOUT below the PG-fall threshold drops PG, making the next start cold. -/
  | pgFall (vout : Nat)
  /-- BOARD_FUSE_PROGRAM (R510): The board fuse bank is programmed through JTAG. -/
  | boardFuseProgram (v : BitVec 320)
  /-- CORE_RESET_RELEASE (R513): Core rails in range for 1 ms release the core-die reset and the straps are sampled. The straps as sampled. -/
  | coreResetRelease (testen : Bool) (spimode : Fin 4)
  /-- CORE_RAIL_TIMEOUT (R513): Core rails not in range 100 ms after PG assert FATAL_N. -/
  | coreRailTimeout
  /-- CORE_RAIL_LOST (R513): A core rail leaving range after release asserts the core-die reset. -/
  | coreRailLost
  /-- TOLLHOUSE_BOOT (R423): The Tollhouse runs the trust steps, verifying and measuring images, or enters Recovery. `fuseOk`, `sramOk`: the fuse sense and
  the SRAM test pass. -/
  | tollhouseBoot (fuseOk sramOk : Bool)
  /-- LANDINGS_RELEASED (R515): Syust releases the landings after applying the landing parameters. `storeOk`: a copy of the parameter store reads. -/
  | landingsReleased (storeOk : Bool)
  /-- CHANNEL_BRING_UP_COMPLETE (R518): A channel finishes SPD read, hPPR, training and check, or is fenced. -/
  | channelBringUpComplete (ch : Ch) (spd : SpdRead)
  /-- SRAM_SELF_TEST_COMPLETE (R523): The SRAM self-test finishes with lasting failures handled per Table 19.4. -/
  | sramSelfTestComplete (fails : List SramFail)
  /-- LANE_SELF_TEST (R167): The compression lanes are tested against the unpacked vector set and failing lanes are fenced. -/
  | laneSelfTest (bad : List (Nat × CmpLane))
  /-- MEMORY_ACTIVE (R525): Once all start conditions hold, memory-active is reported on every landing. `saveOk`, `stateOk`: the seal save and the kept state
  read back. -/
  | memoryActive (saveOk stateOk : Bool)
  /-- ARB_COMMIT_TIMER (R532): After 1 h of memory-active without restarts, Syust commits anti-rollback. -/
  | arbCommitTimer
  /-- REFCLK_APPEAR (R540): A pair's reference clock present for 1 ms releases its landings. -/
  | refclkAppear (pair : Fin 8)
  /-- REFCLK_LOST (R540): A lost reference clock reports source 0Ah and fences the pair's landings. -/
  | refclkLost (pair : Fin 8)
  /-- JTAG_BALL_INSTRUCTION (R545): EXTEST, CLAMP, HIGHZ and similar instructions take the balls at once. -/
  | jtagBallInstruction (lands chans : List Nat)
  /-- REGISTER_WRITE (R13): A write to a register with no row of its own updates its fields under their access codes. -/
  | registerWrite (reg : RegId) (v : BitVec 64)
  /-- SPDM_REQUEST (R425): An SPDM request (GET_MEASUREMENTS, CHALLENGE, KEY_EXCHANGE and the like) arrives over a landing's DOE or over MCTP and is answered
  by the Tollhouse responder. -/
  | spdmRequest (ld : Option Ld) (session : Option Nat) (msg : List Byte)
  /-- DEBUG_UNLOCK_EXPIRY (R432): A granted debug unlock reaches its expiry in device time and its DBG grants end. -/
  | debugUnlockExpiry
  /-- PARTNER_APPEARS (R67): A landing waiting in Detect after a down declaration finds a link partner and returns to training. -/
  | partnerAppears (ld : Ld)
  /-- HOST_RETRAIN_REQUEST (R42): The host directs a retrain of the link, and the landing re-enters training and tries full speed again. -/
  | hostRetrainRequest (ld : Ld)
  deriving DecidableEq, Repr

end Sys2Proof
end

