-- ==== Sys2Proof/Config.lean ====
section
/-! DEFINITION. The free values: what the spec leaves open, as constants nothing can evaluate (log 2).
Each is applied to plain data, the last argument being the draw counter of the device where a fresh value is meant. -/
namespace Sys2Proof

/-- Set of the page-map cache a page falls in: the spec names a hash and does not give it (R120). Taken modulo 2,048. -/
opaque Config.pmcSet : Nat → Nat

/-- Way a page-map-cache fill replaces: pseudo-LRU, not given further (R120). Taken modulo 16. -/
opaque Config.pmcWay : Nat → Nat

/-- Candidate free berth, of those wholly free: R125 does not say which one is taken. -/
opaque Config.berth : Nat → Nat

/-- Seal-cache line evicted: pseudo-LRU, not given further (R256). -/
opaque Config.sealVictim : Nat → Nat

/-- Working key of a context: the SP 800-108 derivation of R241 from base key, boot nonce, context and purpose label. -/
opaque Config.workKey : BitVec 256 → BitVec 256 → Nat → Nat → BitVec 256

/-- Output of the Tollhouse's DRBG (R238, R413): one fresh 256-bit value per draw. -/
opaque Config.drbg : Nat → BitVec 256

/-- Fused device root secret (R241). -/
opaque Config.rootSecret : BitVec 256

/-- The certificate chain of slot 0 (Table 14.9), over the alias key of the present boot. -/
opaque Config.certificate : List Byte → List Byte

/-- Device Serial Number (R432): the spec gives no part's number. -/
opaque Config.serial : BitVec 64

/-- A signature over bytes by the attestation key (R425). -/
opaque Config.sign : List Byte → List Byte

/-- SHA-384 of bytes (R422, R424). -/
opaque Config.sha384 : List Byte → List Byte

/-- The DICT-PACK token choice (R166): a candidate token sequence for an input. -/
opaque Config.dictTokens : List Byte → List Byte

/-- Data delivered together with poison: the spec fixes the poison, not the bytes. One line per draw. -/
opaque Config.poisonLine : Nat → Line

/-- A result the spec does not state, one per draw. -/
opaque Config.openByte : Nat → Byte

/-- An order or a number the spec does not state, one per draw. -/
opaque Config.openNat : Nat → Nat

end Sys2Proof
end

