-- ==== Sys2Proof/Machine/Table.lean ====
section
/-! DEFINITION. Reading and writing sparse tables, and the byte memory of the DRAM channels in its one canonical form. -/
namespace Sys2Proof.Machine

/-- The value at place `n` of a sparse table; an unlisted place holds `dflt`. -/
def tget {α : Type} (dflt : α) : Tbl α → Nat → α
  | [], _ => dflt
  | (k, v) :: t, n => if k = n then v else tget dflt t n

/-- Put `v` at place `n`, keeping the places in rising order and listing no default value. -/
def tput {α : Type} [DecidableEq α] (dflt : α) : Tbl α → Nat → α → Tbl α
  | [], n, v => if v = dflt then [] else [(n, v)]
  | (k, w) :: t, n, v =>
    if k < n then (k, w) :: tput dflt t n v
    else if k = n then (if v = dflt then t else (n, v) :: t)
    else if v = dflt then (k, w) :: t else (n, v) :: (k, w) :: t

/-- Change the value at place `n` of a sparse table. -/
def tmod {α : Type} [DecidableEq α] (dflt : α) (t : Tbl α) (n : Nat) (f : α → α) : Tbl α :=
  tput dflt t n (f (tget dflt t n))

/-- What a DRAM byte that nothing has written reads as (DESIGN CHOICE, log 3). -/
def unwritten : Byte := 0#8

/-- One byte of a channel memory. -/
def memGet : List Host.Cell → Nat → Byte
  | [], _ => unwritten
  | (k, v) :: t, n => if k = n then v else if n < k then unwritten else memGet t n

/-- The cells that a run of bytes starting at `a` lists. -/
def memCells (a : Nat) : List Byte → List Host.Cell
  | [] => []
  | b :: bs => if b = unwritten then memCells (a + 1) bs else (a, b) :: memCells (a + 1) bs

/-- The cells below an address. -/
def memBelow (a : Nat) : List Host.Cell → List Host.Cell
  | [] => []
  | (k, v) :: t => if k < a then (k, v) :: memBelow a t else []

/-- The cells at or above an address. -/
def memFrom (a : Nat) : List Host.Cell → List Host.Cell
  | [] => []
  | (k, v) :: t => if k < a then memFrom a t else (k, v) :: t

/-- Store a run of bytes from address `a` upward. -/
def memPut (m : List Host.Cell) (a : Nat) (bs : List Byte) : List Host.Cell :=
  memBelow a m ++ memCells a bs ++ memFrom (a + bs.length) m

/-- Read `n` bytes from address `a` upward. -/
def memRead (m : List Host.Cell) (a : Nat) : Nat → List Byte
  | 0 => []
  | n + 1 => memGet m a :: memRead m (a + 1) n

/-- The canonical form of a channel memory: addresses strictly rising from `lo`, no byte equal to what an unlisted address reads as. -/
def Memory.wfFrom : Nat → List Host.Cell → Bool
  | _, [] => true
  | lo, (k, v) :: t => decide (lo ≤ k) && decide (v ≠ unwritten) && Memory.wfFrom (k + 1) t

/-- The canonical form of a channel memory. -/
def Memory.wf (m : List Host.Cell) : Bool := Memory.wfFrom 0 m

/-- The bytes of a bit vector, least significant first (R8). -/
def bytesOf {w : Nat} (n : Nat) (v : BitVec w) : List Byte :=
  (List.range n).map fun i => v.extractLsb' (8 * i) 8

/-- The number a byte list spells, least significant first (R8). -/
def natOfBytes : List Byte → Nat
  | [] => 0
  | b :: bs => b.toNat + 256 * natOfBytes bs

/-- The bit vector a byte list spells, least significant first (R8). -/
def ofBytes (w : Nat) (bs : List Byte) : BitVec w := BitVec.ofNat w (natOfBytes bs)

/-- A bit field of a number: `len` bits from bit `lo`. -/
def bits (v lo len : Nat) : Nat := v / 2 ^ lo % 2 ^ len

/-- Bit `i` of a bit vector set to `b`. -/
def setBit {w : Nat} (v : BitVec w) (i : Nat) (b : Bool) : BitVec w :=
  let m := BitVec.ofNat w (2 ^ i)
  if b then v ||| m else v &&& ~~~m

/-- Number of true bits. -/
def popcount {w : Nat} (v : BitVec w) : Nat :=
  ((List.range w).filter fun i => v.getLsbD i).length

/-- Add, saturating at `top`. -/
def satAdd (top a b : Nat) : Nat := min top (a + b)

/-- Line `j` of a quad (DPA[7:6], R169). -/
def Quad.line (q : Quad) (j : Nat) : Line := q.extractLsb' (512 * j) 512

/-- The quad of four lines. -/
def Quad.ofLines (a b c e : Line) : Quad := e ++ c ++ b ++ a

/-- The lowest element of a list under a measure, the first on a tie. -/
def argMin {α : Type} (f : α → Nat) : List α → Option α
  | [] => none
  | x :: xs =>
    match argMin f xs with
    | none => some x
    | some y => if f y < f x then some y else some x

/-- The highest element of a list under a measure, the first on a tie. -/
def argMax {α : Type} (f : α → Nat) : List α → Option α
  | [] => none
  | x :: xs =>
    match argMax f xs with
    | none => some x
    | some y => if f x < f y then some y else some x

end Sys2Proof.Machine
end

