-- ==== Sys2Proof/Machine/Codec.lean ====
section
/-! DEFINITION. Neighbour-prediction coding (R142 to R147), CRC-32C and the stow header (R140), and D-format (R160 to R166). -/
namespace Sys2Proof.Machine

/-- Word i of a quad (R142). -/
def quadWord (q : Quad) (i : Nat) : Nat := bits q.toNat (64 * i) 64

/-- Lag of a prediction mode, none for mode 3 (Table 5.3). -/
def predLag : Nat → Option Nat
  | 0 => some 1
  | 1 => some 2
  | 2 => some 4
  | _ => none

/-- The prediction p[i] from the words before it (Table 5.3). -/
def predict (mode i : Nat) (w : Nat → Nat) : Nat :=
  match predLag mode with
  | some l => if i < l then 0 else w (i - l)
  | none => 0

/-- Zig-zag map of a residue modulo 2^64 (R143). -/
def zigzag (r : Nat) : Nat := if r < 2 ^ 63 then 2 * r else 2 * (2 ^ 64 - r) - 1

/-- Undo the zig-zag map, modulo 2^64 (R147). -/
def unzigzag (z : Nat) : Nat := if z % 2 = 0 then z / 2 else 2 ^ 64 - 1 - z / 2

/-- len(z) (R143). -/
def zlen (z : Nat) : Nat := if z = 0 then 0 else Nat.log2 z + 1

/-- Widths of Table 5.4, by code. -/
def widths : List Nat := [0, 1, 2, 4, 8, 12, 16, 20, 24, 32, 40, 48, 56, 64]

/-- Width of a code; codes Eh and Fh are invalid (Table 5.4). -/
def widthOf (c : Nat) : Option Nat := widths[c]?

/-- The mapped residues of a quad in a mode (R142, R143). -/
def residues (q : Quad) (mode : Nat) : List Nat :=
  (List.range 32).map fun i => zigzag ((quadWord q i + 2 ^ 64 - predict mode i (quadWord q)) % 2 ^ 64)

/-- The smallest width code that covers a group (R144). -/
def groupCode (zs : List Nat) : Nat :=
  let m := zs.foldl (fun a z => max a (zlen z)) 0
  (widths.findIdx? fun w => decide (m ≤ w)).getD 13

/-- Group k of the residues (R144). -/
def groupOf (zs : List Nat) (k : Nat) : List Nat := (zs.drop (8 * k)).take 8

/-- Width codes of the four groups. -/
def groupCodes (zs : List Nat) : List Nat := (List.range 4).map fun k => groupCode (groupOf zs k)

/-- Stream length L of four width codes (R145). -/
def streamLen (codes : List Nat) : Nat := 18 + 8 * (codes.foldl (fun s c => s + (widthOf c).getD 0) 0)

/-- Pack fields of given widths, the first in the low bits (R145). -/
def packBits : List (Nat × Nat) → Nat
  | [] => 0
  | (w, v) :: t => v % 2 ^ w + 2 ^ w * packBits t

/-- The stream of a quad in a mode, as a number whose bit k is stream bit k (R145). -/
def streamOf (q : Quad) (mode : Nat) : Nat :=
  let zs := residues q mode
  let codes := groupCodes zs
  packBits ((2, mode) :: codes.map (4, ·) ++ (List.range 32).map fun i => ((widthOf (codes.getD (i / 8) 0)).getD 0, zs.getD i 0))

/-- The mode the encoder keeps: smallest L, then lowest number (R146). -/
def bestMode (q : Quad) : Nat := (argMin (fun m => streamLen (groupCodes (residues q m))) [0, 1, 2, 3]).getD 0

/-- The needed code of a quad that is not given code 0 (R146). -/
def neededCode (q : Quad) : Nat :=
  let l := streamLen (groupCodes (residues q (bestMode q)))
  min 8 ((l + 255) / 256)

/-- Slot size of a size code (Table 5.1). -/
def slotSize (c : Nat) : Nat := if c = 8 then 256 else 32 * c

/-- The plaintext slot of a quad in a slot of code `c` (Table 5.1, R149). -/
def slotBytes (q : Quad) (c : Nat) : List Byte :=
  if c = 0 then [] else if c = 8 then bytesOf 256 q
  else bytesOf (slotSize c) (BitVec.ofNat (8 * slotSize c) (streamOf q (bestMode q)))

/-- Decode the words of a stream after its header (R147). -/
def decodeWords (mode : Nat) (codes : List Nat) (s : Nat) : Nat → Nat → List Nat → List Nat
  | 0, _, w => w
  | n + 1, pos, w =>
    let i := w.length
    let width := (widthOf (codes.getD (i / 8) 0)).getD 0
    let r := unzigzag (bits s pos width)
    let p := predict mode i fun j => w.getD j 0
    decodeWords mode codes s n (pos + width) (w ++ [(p + r) % 2 ^ 64])

/-- The decoder of R147: none is a decode error. -/
def decodeSlot (bs : List Byte) : Option Quad :=
  let s := natOfBytes bs
  let codes := [bits s 2 4, bits s 6 4, bits s 10 4, bits s 14 4]
  if codes.any fun c => (widthOf c).isNone then none
  else if 8 * bs.length < streamLen codes then none
  else
    let w := decodeWords (bits s 0 2) codes s 32 18 []
    some (BitVec.ofNat 2048 (packBits (w.map (64, ·))))

/-- One byte of a CRC-32C, reflected polynomial 82F6_3B78h (R140). -/
def crcByte (c : Nat) (b : Byte) : Nat :=
  (List.range 8).foldl (fun x _ => if x % 2 = 1 then (x / 2) ^^^ 0x82F63B78 else x / 2) (c ^^^ b.toNat)

/-- CRC-32C (R140). -/
def crc32c (bs : List Byte) : Nat := bs.foldl crcByte 0xFFFFFFFF ^^^ 0xFFFFFFFF

/-- A stow header's fields (Table 5.2). -/
structure Stow where
  codes : List Nat
  gm1 : Nat
  page : Nat
  restows : Nat
  deriving DecidableEq, Repr

/-- The 32 bytes of a stow header (Table 5.2, R140). -/
def Stow.bytes (h : Stow) : List Byte :=
  let body := packBits (h.codes.map (4, ·)) + h.gm1 * 2 ^ 64 + 2 ^ 68 + h.page * 2 ^ 72 + h.restows * 2 ^ 112
  let bs := bytesOf 28 (BitVec.ofNat 224 body)
  bs ++ bytesOf 4 (BitVec.ofNat 32 (crc32c bs))

/-- Offset of quad q's slot in the allocation (R138). -/
def slotOff (codes : List Nat) (q : Nat) : Nat := 32 + ((codes.take q).map slotSize).foldl (· + ·) 0

/-- Bytes an allocation needs: header and every slot (R138). -/
def stowUse (codes : List Nat) : Nat := slotOff codes 16

/-- Read a stow header and check it (R141): none when it is not valid. -/
def Stow.parse (bs : List Byte) (page gm1 : Nat) : Option Stow :=
  let v := natOfBytes (bs.take 28)
  let codes := (List.range 16).map fun i => bits v (4 * i) 4
  if natOfBytes ((bs.drop 28).take 4) ≠ crc32c (bs.take 28) then none
  else if bits v 68 4 ≠ 1 then none
  else if codes.any fun c => decide (8 < c) then none
  else if bits v 64 3 ≠ gm1 then none
  else if bits v 72 33 ≠ page then none
  else if (gm1 + 1) * 512 < stowUse codes then none
  else some { codes, gm1, page := bits v 72 33, restows := bits v 112 8 }

/-- Smallest granule count for a layout (R107). -/
def granulesFor (codes : List Nat) : Nat := (stowUse codes + 511) / 512

/-! D-format. -/

/-- Errors of Table 5.14 by code. -/
abbrev DErr := Nat

/-- Copy `n` bytes one at a time from distance `dist` back (R163); `out` is newest first. -/
def dCopy (dist : Nat) : Nat → List Byte → List Byte
  | 0, out => out
  | n + 1, out => dCopy dist n (out.getD (dist - 1) 0#8 :: out)

/-- Decode tokens (R162, R163). `out` is the decoded output newest first; the result is the output, the input left after the
end token, and the error. -/
def dTokens (ulen : Nat) : Nat → List Byte → List Byte → List Byte × List Byte × DErr
  | 0, inp, out => (out, inp, 5)
  | fuel + 1, inp, out =>
    match inp with
    | [] => (out, [], 5)
    | c :: rest =>
      let cn := c.toNat
      if cn < 0x40 then
        let n := cn + 1
        if rest.length < n then (out, inp, 5)
        else if ulen < out.length + n then (out, inp, 6)
        else dTokens ulen fuel (rest.drop n) ((rest.take n).reverse ++ out)
      else if cn = 0xFF then
        (out, rest, if out.length = ulen then 0 else 6)
      else
        let extra := if cn < 0x80 then 1 else if cn < 0xC0 then 2 else 3
        if 0xC1 ≤ cn then (out, inp, 2)
        else if rest.length < extra then (out, inp, 5)
        else
          let b0 := (rest.getD 0 0#8).toNat
          let b1 := (rest.getD 1 0#8).toNat
          let b2 := (rest.getD 2 0#8).toNat
          let len := if cn < 0x80 then bits cn 3 3 + 3 else if cn < 0xC0 then cn % 64 + 3 else b0 + 67
          let dd := if cn < 0x80 then cn % 8 * 256 + b0 else if cn < 0xC0 then b0 + 256 * b1 else b1 + 256 * b2
          if 0x4000 ≤ dd then (out, inp, 2)
          else if out.length < dd + 1 then (out, inp, 3)
          else if ulen < out.length + len then (out, inp, 6)
          else dTokens ulen fuel (rest.drop extra) (dCopy (dd + 1) len out)

/-- DICT-UNPACK of an input under an output limit (R161 to R165): bytes written and error code. -/
def dictUnpack (inp : List Byte) (limit : Nat) : List Byte × DErr :=
  if inp.length < 8 then ([], 5)
  else
    let flags := (inp.getD 3 0#8).toNat
    let ulen := natOfBytes ((inp.drop 4).take 4)
    if natOfBytes (inp.take 2) ≠ 0xD5C4 ∨ (inp.getD 2 0#8).toNat ≠ 1 ∨ 1 < flags then ([], 1)
    else if limit < ulen then ([], 4)
    else
      let (out, rest, e) := dTokens ulen (inp.length + 1) (inp.drop 8) []
      let bs := out.reverse
      if e ≠ 0 then (bs, e)
      else if flags = 1 then
        if rest.length < 4 then (bs, 5)
        else if natOfBytes (rest.take 4) ≠ crc32c bs then (bs, 7)
        else if rest.length = 4 then (bs, 0) else (bs, 8)
      else if rest.isEmpty then (bs, 0) else (bs, 8)

/-- A stream of literals alone: the longest token sequence a packer may choose (R166). -/
def dLiterals : Nat → List Byte → List Byte
  | 0, _ => []
  | _ + 1, [] => []
  | fuel + 1, bs =>
    let t := bs.take 64
    BitVec.ofNat 8 (t.length - 1) :: t ++ dLiterals fuel (bs.drop 64)

/-- The header of a stream with a CRC trailer or without (Table 5.12). -/
def dHeader (n : Nat) (crc : Bool) : List Byte :=
  [0xC4#8, 0xD5#8, 0x01#8, if crc then 0x01#8 else 0x00#8] ++ bytesOf 4 (BitVec.ofNat 32 n)

/-- DICT-PACK (R166): the token choice is left open; a candidate is used when it decodes to the input within the stated bound,
and literals otherwise (log 7). -/
def dictStream (bs : List Byte) (crc : Bool) : List Byte :=
  let tail := if crc then bytesOf 4 (BitVec.ofNat 32 (crc32c bs)) else []
  let lit := dHeader bs.length crc ++ dLiterals bs.length bs ++ [0xFF#8] ++ tail
  let alt := dHeader bs.length crc ++ Config.dictTokens bs ++ [0xFF#8] ++ tail
  if dictUnpack alt bs.length = (bs, 0) ∧ alt.length ≤ 13 + bs.length + (bs.length + 63) / 64 then alt else lit

/-- Length of a token with its control byte (Table 5.13). -/
def dTokenLen (c : Nat) : Nat :=
  if c < 0x40 then c + 2 else if c < 0x80 then 2 else if c < 0xC0 then 3 else if c = 0xC0 then 4 else 1

/-- Bytes of whole tokens that fit a limit. -/
def dFit : Nat → Nat → List Byte → Nat
  | 0, _, _ => 0
  | _ + 1, _, [] => 0
  | fuel + 1, room, c :: t =>
    let n := dTokenLen c.toNat
    if room < n then 0 else n + (if c = 0xFF#8 then 0 else dFit fuel (room - n) (t.drop (n - 1)))

/-- DICT-PACK under an output limit (R164): the bytes written, those before the failing token on error 04h, and the error code. -/
def dictPack (bs : List Byte) (crc : Bool) (limit : Nat) : List Byte × DErr :=
  let s := dictStream bs crc
  if s.length ≤ limit then (s, 0)
  else if limit < 8 then ([], 4)
  else (s.take (8 + dFit s.length (limit - 8) (s.drop 8)), 4)

end Sys2Proof.Machine
end

