-- ==== Sys2Proof/Machine/Aes.lean ====
section
/-! DEFINITION. AES-256, XTS-AES-256 and AES-256-GCM, as the standards the spec names define them (R246, R247; log 8: PRESUMED). -/
namespace Sys2Proof.Machine

/-- The AES S-box, byte v at bits 8v. -/
def sboxTable : Nat := 0x16BB54B00F2D99416842E6BF0D89A18CDF2855CEE9871E9B948ED9691198F8E19E1DC186B95735610EF6034866B53E708A8BBD4B1F74DDE8C6B4A61C2E2578BA08AE7A65EAF4566CA94ED58D6D37C8E779E4959162ACD3C25C2406490A3A32E0DB0B5EDE14B8EE4688902A22DC4F816073195D643D7EA7C41744975FEC130CCDD2F3FF1021DAB6BCF5389D928F40A351A89F3C507F02F94585334D43FBAAEFD0CF584C4A39BECB6A5BB1FC20ED00D153842FE329B3D63B52A05A6E1B1A2C830975B227EBE28012079A059618C323C7041531D871F1E5A534CCF73F362693FDB7C072A49CAFA2D4ADF04759FA7DC982CA76ABD7FE2B670130C56F6BF27B777C63

/-- The inverse S-box. -/
def invSboxTable : Nat := 0x7D0C2155631469E126D677BA7E042B17619953833CBBEBC8B0F52AAE4D3BE0A0EF9CC9939F7AE52D0D4AB519A97F51605FEC8027591012B131C7078833A8DD1FF45ACD78FEC0DB9A2079D2C64B3E56FC1BBE18AA0E62B76F89C5291D711AF1476EDF751CE837F9E28535ADE72274AC9673E6B4F0CECFF297EADC674F4111913A6B8A130103BDAFC1020F3FCA8F1E2CD00645B3B80558E4F70AD3BC8C00ABD890849D8DA75746155EDAB9EDFD5048706C92B6655DCC5CA4D41698688664F6F87225D18B6D49A25B76B224D92866A12E084EC3FA420B954CEE3D23C2A632947B54CBE9DEC444438E3487FF2F9B8239E37CFBD7F3819EA340BF38A53630D56A0952

/-- S-box of a byte. -/
def sbox (v : Nat) : Nat := bits sboxTable (8 * v) 8

/-- Inverse S-box of a byte. -/
def invSbox (v : Nat) : Nat := bits invSboxTable (8 * v) 8

/-- Multiply by x in the AES field. -/
def xtime (a : Nat) : Nat := if a < 128 then 2 * a else (2 * a) % 256 ^^^ 0x1B

/-- Multiply in the AES field by 1, 2, 3, 9, 11, 13 or 14. -/
def gfMul (k a : Nat) : Nat :=
  let a2 := xtime a
  let a4 := xtime a2
  let a8 := xtime a4
  (if k % 2 = 1 then a else 0) ^^^ (if k / 2 % 2 = 1 then a2 else 0) ^^^ (if k / 4 % 2 = 1 then a4 else 0) ^^^ (if k / 8 % 2 = 1 then a8 else 0)

/-- Exclusive or of byte lists. -/
def xorBytes (a b : List Nat) : List Nat := List.zipWith (· ^^^ ·) a b

/-- One MixColumns column with the given first row. -/
def mixCol (k : List Nat) (c : List Nat) : List Nat :=
  (List.range 4).map fun r => (List.range 4).foldl (fun s j => s ^^^ gfMul (k.getD ((j + 4 - r) % 4) 0) (c.getD j 0)) 0

/-- MixColumns over the four columns of a state. -/
def mixCols (k : List Nat) (s : List Nat) : List Nat :=
  (List.range 4).flatMap fun c => mixCol k ((s.drop (4 * c)).take 4)

/-- ShiftRows after SubBytes. -/
def subShift (s : List Nat) : List Nat :=
  (List.range 16).map fun i => sbox (s.getD ((i + 4 * (i % 4)) % 16) 0)

/-- Inverse ShiftRows and SubBytes. -/
def invSubShift (s : List Nat) : List Nat :=
  (List.range 16).map fun i => invSbox (s.getD ((i + 16 - 4 * (i % 4)) % 16) 0)

/-- Key expansion of AES-256, newest word first. -/
def expandStep : Nat → Nat → List (List Nat) → List (List Nat)
  | 0, _, ws => ws
  | n + 1, rcon, ws =>
    let i := ws.length
    let t := ws.headD []
    let t :=
      if i % 8 = 0 then
        let r := (t.drop 1 ++ t.take 1).map sbox
        xorBytes r [rcon, 0, 0, 0]
      else if i % 8 = 4 then t.map sbox else t
    expandStep n (if i % 8 = 0 then xtime rcon else rcon) (xorBytes (ws.getD 7 []) t :: ws)

/-- The fifteen round keys of an AES-256 key, 16 bytes each. -/
def roundKeys (key : BitVec 256) : List (List Nat) :=
  let kb := (bytesOf 32 key).map (·.toNat)
  let w0 := ((List.range 8).map fun i => (kb.drop (4 * i)).take 4).reverse
  let ws := (expandStep 52 1 w0).reverse
  (List.range 15).map fun r => ((ws.drop (4 * r)).take 4).flatten

/-- AES-256 encryption of a 16-byte block under expanded keys. -/
def aesEnc (rk : List (List Nat)) (b : List Nat) : List Nat :=
  let s := xorBytes b (rk.getD 0 [])
  let s := (List.range 13).foldl (fun s r => xorBytes (mixCols [2, 3, 1, 1] (subShift s)) (rk.getD (r + 1) [])) s
  xorBytes (subShift s) (rk.getD 14 [])

/-- AES-256 decryption of a 16-byte block. -/
def aesDec (rk : List (List Nat)) (b : List Nat) : List Nat :=
  let s := invSubShift (xorBytes b (rk.getD 14 []))
  let s := (List.range 13).foldl (fun s r => invSubShift (mixCols [14, 11, 13, 9] (xorBytes s (rk.getD (13 - r) [])))) s
  xorBytes s (rk.getD 0 [])

/-- Bytes of a number, least significant first. -/
def natBytes (n v : Nat) : List Nat := (List.range n).map fun i => bits v (8 * i) 8

/-- The number of a byte list, least significant first. -/
def bytesNat (bs : List Nat) : Nat := bs.foldr (fun b s => b + 256 * s) 0

/-- The number of a byte list, most significant first. -/
def bytesNatBE (bs : List Nat) : Nat := bs.foldl (fun s b => 256 * s + b) 0

/-- Multiply an XTS tweak by alpha (IEEE 1619). -/
def xtsNext (t : Nat) : Nat := if t < 2 ^ 127 then 2 * t else (2 * t) % 2 ^ 128 ^^^ 0x87

/-- XTS over the 16-byte blocks of a data unit (R246). -/
def xtsBlocks (f : List Nat → List Nat) : Nat → Nat → List Nat → List Nat
  | 0, _, _ => []
  | n + 1, t, bs =>
    let tb := natBytes 16 t
    xorBytes (f (xorBytes (bs.take 16) tb)) tb ++ xtsBlocks f n (xtsNext t) (bs.drop 16)

/-- XTS-AES-256 of a data unit under data and tweak keys, with the quad index as tweak (R246). -/
def xts (enc : Bool) (k1 k2 : BitVec 256) (quad : Nat) (bs : List Byte) : List Byte :=
  let r1 := roundKeys k1
  let t := bytesNat (aesEnc (roundKeys k2) (natBytes 16 quad))
  (xtsBlocks (if enc then aesEnc r1 else aesDec r1) (bs.length / 16) t (bs.map (·.toNat))).map (BitVec.ofNat 8 ·)

/-- Multiplication in GF(2^128) as SP 800-38D defines it, bit 0 of the string being the most significant bit here. -/
def ghashMul (x y : Nat) : Nat :=
  ((List.range 128).foldl (fun (zv : Nat × Nat) i =>
    let z := if x.testBit (127 - i) then zv.1 ^^^ zv.2 else zv.1
    let v := if zv.2 % 2 = 1 then zv.2 / 2 ^^^ 0xE1000000000000000000000000000000 else zv.2 / 2
    (z, v)) (0, y)).1

/-- Pad a byte list with zeros to whole 16-byte blocks and give the blocks. -/
def blocks16 : Nat → List Nat → List (List Nat)
  | 0, _ => []
  | _ + 1, [] => []
  | fuel + 1, bs => ((bs.take 16) ++ List.replicate (16 - min 16 bs.length) 0) :: blocks16 fuel (bs.drop 16)

/-- GHASH of blocks under a hash key. -/
def ghash (h : Nat) (bl : List (List Nat)) : Nat := bl.foldl (fun y b => ghashMul (y ^^^ bytesNatBE b) h) 0

/-- Counter mode from a counter block. -/
def gctr (rk : List (List Nat)) : Nat → Nat → List Nat → List Nat
  | 0, _, _ => []
  | n + 1, c, bs =>
    let e := aesEnc rk (natBytes 16 c).reverse
    xorBytes (bs.take 16) e ++ gctr rk n (c / 2 ^ 32 * 2 ^ 32 + (c + 1) % 2 ^ 32) (bs.drop 16)

/-- The pre-counter block of a 128-bit IV. -/
def gcmJ0 (h : Nat) (iv : List Nat) : Nat := ghash h [iv, natBytes 8 0 ++ (natBytes 8 128).reverse]

/-- First 64 bits of the GCM tag over additional data and ciphertext (R247, R249). -/
def gcmMac (key : BitVec 256) (iv : Nat) (aad ct : List Byte) : BitVec 64 :=
  let rk := roundKeys key
  let h := bytesNatBE (aesEnc rk (natBytes 16 0))
  let a := aad.map (·.toNat)
  let c := ct.map (·.toNat)
  let s := ghash h (blocks16 (a.length + 1) a ++ blocks16 (c.length + 1) c ++
    [(natBytes 8 (8 * a.length)).reverse ++ (natBytes 8 (8 * c.length)).reverse])
  let tag := gctr rk 1 (gcmJ0 h (natBytes 16 iv)) (natBytes 16 s).reverse
  BitVec.ofNat 64 (bytesNat (tag.take 8))

/-- GCM encryption, and decryption, of the data bytes (R247). -/
def gcmCrypt (key : BitVec 256) (iv : Nat) (bs : List Byte) : List Byte :=
  let rk := roundKeys key
  let h := bytesNatBE (aesEnc rk (natBytes 16 0))
  let j := gcmJ0 h (natBytes 16 iv)
  (gctr rk ((bs.length + 15) / 16) (j / 2 ^ 32 * 2 ^ 32 + (j + 1) % 2 ^ 32) (bs.map (·.toNat))).map (BitVec.ofNat 8 ·)

end Sys2Proof.Machine
end

