-- ==== Sys2Proof/Machine/StateLink.lean ====
section
/-! DEFINITION. The state of one landing: link, receive pool, replay, IDE, decoder, label table, boarding queue, stride detectors. -/
namespace Sys2Proof.Machine

/-- STATE of LND.LNKSTAT (Table 2.7). -/
inductive LinkSt where
  | disabled | reset | training | up | recovering | down | absorbed
  deriving DecidableEq, Repr, Inhabited

/-- What a landing sends its host. -/
inductive Rsp where
  /-- Read data, with the cache state granted (none, S or A) and the unloaded latency of R26 to R29 in ns. -/
  | data (tag : BitVec 16) (d : Line) (poison : Bool) (grant : MetaV) (lat : Nat)
  /-- Completion of a write, a MemInv or a MemClnEvct. -/
  | cmp (tag : BitVec 16) (grant : MetaV)
  /-- A back-invalidate snoop of a line, of the owned lines of its sector, or of the whole sector (BISnpInvBlk of R212). -/
  | snp (kind : Snp) (blk : Bool) (line : Nat)
  | biConflictAck (line : Nat)
  deriving DecidableEq, Repr, Inhabited

/-- One flit in the replay buffer (R60, R62). -/
structure TxFlit where
  /-- sequence number [natural] (02 R62; reset: no flit) -/
  seq : Nat
  /-- response carried, none for a flit of credit returns alone [message] (02 R57; reset: no flit) -/
  body : Option Rsp
  /-- credit returns bound to this sequence number [messages per class] (02 R62; reset: no flit) -/
  credits : Credits
  /-- epoch and sector of the shared data it carries, for loss reports [record] (07 R227; reset: no flit) -/
  xfer : Option (Nat × Nat) := none
  deriving DecidableEq, Repr, Inhabited

/-- One message waiting in the receive pool (R53). -/
structure PoolMsg where
  /-- the message [message] (02 R53; reset: pool empty) -/
  msg : Msg
  /-- service class and home slice of a CXL.mem message [6 bits; 4 bits] (02 R59; reset: pool empty) -/
  cls : Nat
  home : Nat
  /-- arrival order [natural] (10 R312; reset: pool empty) -/
  ord : Nat
  /-- the message waits for its MAC epoch (containment) [1 bit] (02 R73; reset: pool empty) -/
  sealedEp : Bool := false
  deriving DecidableEq, Repr, Inhabited

/-- Keys and slots of one direction of an IDE stream (R75). -/
structure IdeDir where
  /-- key slot K0, K1 [256 bits each, or unprogrammed] (02 R75, 08 R271; reset: unprogrammed) -/
  k0 : Option (BitVec 256) := none
  k1 : Option (BitVec 256) := none
  /-- active slot is K1 [1 bit] (02 R75; reset: 0, DESIGN CHOICE log 4) -/
  act1 : Bool := false
  /-- K_SET_GO has named a slot the direction has still to settle on [1 bit, slot] (02 R75; reset: none) -/
  go : Option Bool := none
  deriving DecidableEq, Repr, Inhabited

/-- One IDE stream (R72). -/
structure Ide where
  /-- mode: off, containment, skid or Insecure [2 bits] (02 R73, T2.7 IDE; reset: off) -/
  mode : IdeMode := .off
  /-- receive and transmit directions (02 R75; reset: empty slots) -/
  rx : IdeDir := {}
  tx : IdeDir := {}
  /-- skid mode: line addresses written in the open MAC epoch [list of DPA[44:6]] (02 R73; reset: empty) -/
  skid : List Nat := []
  deriving DecidableEq, Repr, Inhabited

/-- One stride detector (R195, R196). -/
structure Stride where
  /-- last address of the stream, as DPA[44:6] [39 bits] (06 R195; reset: no stream) -/
  last : Nat
  /-- host label of the stream [4 bits] (06 R195; reset: no stream) -/
  label : Nat
  /-- stride in lines [signed, magnitude at most 64] (06 R195; reset: no stream) -/
  stride : Int
  /-- consecutive reads that repeated the stride [natural] (06 R195; reset: no stream) -/
  run : Nat
  /-- the stream is trained [1 bit] (06 R195; reset: no stream) -/
  trained : Bool
  /-- quads already requested for the stream [list of DPA[44:8]] (06 R196; reset: no stream) -/
  asked : List Nat
  /-- order of last use, for replacement [natural] (06 R195; reset: no stream) -/
  use : Nat
  deriving DecidableEq, Repr, Inhabited

/-- One boarding-queue entry: a forwarded request (R216). -/
structure Fwd where
  /-- sector DPA[44:8] and line of it [37 bits; 2 bits] (07 R216; reset: queue empty) -/
  sector : Nat
  line : Nat
  /-- home slice [4 bits] (07 R216; reset: queue empty) -/
  home : Nat
  /-- requesting landing, none for the Barge [4 bits] (07 R216, 11 R334; reset: queue empty) -/
  ld : Option Nat
  /-- the request, the write marker being its kind [message] (07 R216; reset: queue empty) -/
  req : Req
  /-- service class of the request [6 bits] (07 R216; reset: queue empty) -/
  cls : Nat
  /-- ownership epoch the request was forwarded under [4 bits] (07 R216; reset: queue empty) -/
  epoch : BitVec 4
  /-- the requester's record is RDONLY, so A is served as S [1 bit] (07 R207; reset: queue empty) -/
  rdonly : Bool
  /-- the entry took a shared boarding-queue place [1 bit] (07 R218; reset: queue empty) -/
  shared : Bool
  /-- its landing was declared down meanwhile: its response is discarded [1 bit] (02 R66; reset: queue empty) -/
  dead : Bool := false
  deriving DecidableEq, Repr, Inhabited

/-- Why a snoop is outstanding at a landing. -/
inductive SnpFor where
  /-- the head of a sector's boarding queue (R219). -/
  | board
  /-- a collection of the home slice: unowned conflict, victim, rebuild, release, drain (R213, R211, R212, R93, R234). -/
  | home (coll : Nat)
  deriving DecidableEq, Repr, Inhabited

/-- One back-invalidate snoop with no BIRsp yet (R219, R226). -/
structure Snoop where
  /-- line snooped, DPA[44:6] [39 bits] (07 R219; reset: none outstanding) -/
  line : Nat
  /-- block form: every line of the sector [1 bit] (07 R213; reset: none outstanding) -/
  blk : Bool
  /-- snoop kind [2 bits] (07 T7.2; reset: none outstanding) -/
  kind : Snp
  /-- home slice and purpose (07 R219; reset: none outstanding) -/
  home : Nat
  why : SnpFor
  /-- lines the host has written back meanwhile [line index, data, poison] (07 R219, R225; reset: none outstanding) -/
  got : List (Nat × Line × Bool) := []
  /-- tBIRSP at the time it was sent, ms [natural] (07 R226, T7.6; reset: none outstanding) -/
  limit : Nat
  deriving DecidableEq, Repr, Inhabited

/-- One transfer of shared data a landing is receiving (R219, R224). -/
structure Xfer where
  /-- sector, line [37 bits; 2 bits] (07 R219; reset: none) -/
  sector : Nat
  line : Nat
  /-- home slice (07 R219; reset: none) -/
  home : Nat
  /-- transfer epoch [4 bits] (07 R224; reset: none) -/
  epoch : BitVec 4
  /-- tag of the host's request and state it grants (07 R219; reset: none) -/
  tag : BitVec 16
  grant : MetaV
  /-- data messages on their way, oldest first [epoch, data, poison] (07 R224; reset: none) -/
  inFlight : List (BitVec 4 × Line × Bool) := []
  /-- the first data response has been accepted [1 bit] (07 R224; reset: none) -/
  got : Bool := false
  /-- the host acknowledged the flit that carried it [1 bit] (07 R227; reset: none) -/
  acked : Bool := false
  deriving DecidableEq, Repr, Inhabited

/-- One entry of the label table LND.LBLMAP (Table 3.2). -/
structure Lbl where
  /-- SC [6 bits] (03 T3.2; reset 3Fh) -/
  sc : BitVec 6 := 0x3F#6
  /-- VALID [1 bit] (03 T3.2; reset 0b) -/
  valid : Bool := false
  deriving DecidableEq, Repr, Inhabited

/-- The HDM decoder of a landing (R79 to R81). -/
structure Decoder where
  /-- HPA base, size and DPA base [64 bits each] (03 R80; reset 0, DESIGN CHOICE log 4) -/
  hbase : Nat := 0
  size : Nat := 0
  dbase : Nat := 0
  /-- interleave ways and granularity [1, 2, 4, 8; 256 B to 16 KiB] (03 R79; reset 1, 256, DESIGN CHOICE log 4) -/
  iw : Nat := 1
  ig : Nat := 256
  /-- committed, and error-not-committed [1 bit each] (03 R81, R71; reset 0b) -/
  committed : Bool := false
  errNot : Bool := false
  deriving DecidableEq, Repr, Inhabited

/-- One MSI-X vector of a landing (R405). -/
structure Msix where
  /-- message address, data [64 bits; 32 bits] (13 R405; reset 0, DESIGN CHOICE log 4) -/
  addr : BitVec 64 := 0#64
  data : BitVec 32 := 0#32
  /-- masked, pending [1 bit each] (13 R405; reset masked, not pending) -/
  masked : Bool := true
  pend : Bool := false
  deriving DecidableEq, Repr, Inhabited

/-- Link, training and electrical state of a landing. -/
structure Link where
  /-- SPEED [3 bits] (02 T2.7; reset 000b) -/
  speed : BitVec 3 := 0#3
  /-- WIDTH [3 bits] (02 T2.7; reset 000b) -/
  width : BitVec 3 := 0#3
  /-- REVERSED [1 bit] (02 T2.7; reset 0b) -/
  reversed : Bool := false
  /-- FLIT [2 bits] (02 T2.7; reset 00b) -/
  flit : BitVec 2 := 0#2
  /-- STATE [3 bits] (02 T2.7; reset 001b) -/
  st : LinkSt := .reset
  /-- MEMEN [1 bit] (02 T2.7; reset 0b) -/
  memen : Bool := false
  /-- DOWNCNT [8 bits] (02 T2.7; reset 00h) -/
  downcnt : BitVec 8 := 0#8
  /-- tDOWN the present loss of lock runs under, µs [natural] (02 R64; reset: no loss) -/
  lost : Option Nat := none
  /-- fenced by the Lookout, so Disabled until the Pool owner re-enables it [1 bit] (02 R67; reset 0b) -/
  fenced : Bool := false
  /-- PERST_N asserted [1 bit] (02 R69, 20; reset 0b, DESIGN CHOICE log 4) -/
  perst : Bool := false
  /-- lanes fenced by the Lookout [16 bits] (02 R46; reset 0) -/
  lanes : BitVec 16 := 0#16
  /-- merged with the odd landing of its pair since the last reset that reads p0101 [1 bit] (02 R47, R48; reset 0b) -/
  merged : Bool := false
  /-- landing parameters applied at the last landing reset: p0102, p0103 [1 bit; GT/s] (02 T2.9; reset 1, 64) -/
  latOpt : Bool := true
  maxSpeed : Nat := 64
  /-- polarity detected per lane [16 bits] (02 R52; reset 0, DESIGN CHOICE log 4) -/
  polarity : BitVec 16 := 0#16
  /-- released from reset by Syust [1 bit] (19 R515; reset 0b) -/
  released : Bool := false
  /-- ASPM L1 entered or requested [1 bit] (17 R484; reset 0b) -/
  l1 : Bool := false
  deriving DecidableEq, Repr, Inhabited

/-- Receive pool, credits and replay of a landing. -/
structure Pool where
  /-- messages waiting, oldest first [up to 4,096 slots, 8,192 merged] (02 R53; reset empty) -/
  msgs : List PoolMsg := []
  /-- next arrival order number [natural] (10 R312; reset 0) -/
  next : Nat := 0
  /-- class minima in slots applied at the last landing reset, classes in the order of Table 2.3 [natural each] (02 R54; reset Table 2.3) -/
  mins : List Nat := [256, 512, 128, 64, 32, 64]
  /-- credits the host holds per class, in messages for CXL.mem, in slots for CXL.io [natural each] (02 R55; reset 0 before link-up) -/
  held : List Nat := [0, 0, 0, 0, 0, 0]
  /-- credit returns waiting for the next flit, per CXL.mem class [messages] (02 R57; reset 0) -/
  pend : Credits := {}
  /-- classes granted shared slots within the present tCRET [list] (02 R57; reset empty) -/
  granted : List Nat := []
  /-- LOW [14 bits] (02 T2.4; reset 1000h, 2000h merged) -/
  low : Nat := 4096
  /-- DROPPED [1 bit] (02 T2.4; reset 0b) -/
  dropped : Bool := false
  /-- credits the landing holds toward the host, given by the flits it receives [messages] (02 R62; reset 0, DESIGN CHOICE log 4) -/
  hostCred : Nat := 0
  /-- replay buffer, oldest first [up to 256 flits] (02 R60; reset empty) -/
  replay : List TxFlit := []
  /-- next transmit and next expected receive sequence numbers [natural] (02 R62; reset 0, DESIGN CHOICE log 4) -/
  txSeq : Nat := 0
  rxSeq : Nat := 0
  /-- replays of the oldest flit without acknowledgement progress [0 to 4] (02 R63; reset 0) -/
  replays : Nat := 0
  /-- responses held for transmit, oldest first, with the sector and epoch of shared data [list] (02 R61, R65; reset empty) -/
  txq : List (Rsp × Option (Nat × Nat)) := []
  deriving DecidableEq, Repr, Inhabited

/-- Access checking, labels and violations of a landing. -/
structure Access where
  /-- LND.ALIAS LBITS [3 bits] (03 T3.1; reset 000b) -/
  lbits : BitVec 3 := 0#3
  /-- LND.ALIAS LPOS [6 bits] (03 T3.1; reset 2Dh) -/
  lpos : BitVec 6 := 0x2D#6
  /-- HDM decoder (03 R79; reset: not committed) -/
  dec : Decoder := {}
  /-- back-invalidation enabled by the host [1 bit] (02 R71, T2.8; reset 0b) -/
  biEn : Bool := false
  /-- LBLMAP0 to LBLMAP3, entry per label [16 entries of 8 bits] (03 T3.2; reset SC 3Fh, VALID 0b) -/
  lbl : Tbl Lbl := []
  /-- ACCVIOL COUNT [24 bits] (03 T3.6; reset 000000h) -/
  count : BitVec 24 := 0#24
  /-- ACCVIOL FIRST [4 bits] (03 T3.6; reset 0h) -/
  first : BitVec 4 := 0#4
  /-- start of the present tVIOL window in device time, none before the first failure [ns] (03 R98; reset none) -/
  win : Option Nat := none
  /-- failures in the present and in the previous window [natural] (03 R98; reset 0) -/
  inWin : Nat := 0
  prevWin : Nat := 0
  deriving DecidableEq, Repr, Inhabited

/-- Coherence state of a landing. -/
structure Coh where
  /-- boarding queue, oldest first [up to 32 entries] (07 R217; reset empty) -/
  board : List Fwd := []
  /-- LND.BOARD PEAK, RETURNS [6 bits; 16 bits] (07 T7.4; reset 00h, 0000h) -/
  peak : Nat := 0
  returns : BitVec 16 := 0#16
  /-- shared boarding-queue credits granted to home slices and not yet used [list of slices] (07 R218; reset empty) -/
  shared : List Nat := []
  /-- snoops outstanding, oldest first (07 R219; reset empty) -/
  snoops : List Snoop := []
  /-- sectors within their minimum hold [list of DPA[44:8]] (07 R221; reset empty) -/
  hold : List Nat := []
  /-- transfers being received, oldest first (07 R224; reset empty) -/
  xfers : List Xfer := []
  deriving DecidableEq, Repr, Inhabited

/-- What a request at a home slice carries with it. -/
structure Work where
  /-- requesting landing, none for a command or the Barge (01 R35; reset: queue empty) -/
  ld : Option Nat
  /-- the request [message] (01 R35; reset: queue empty) -/
  req : Req
  /-- line address DPA[44:6] [39 bits] (01 R35; reset: queue empty) -/
  line : Nat
  /-- service class [6 bits] (06 R174; reset: queue empty) -/
  cls : Nat
  /-- matched record is SHARED, RDONLY, NEAR [1 bit each] (07 R206, R207, 01 R24; reset: queue empty) -/
  shared : Bool
  rdonly : Bool
  near : Bool
  /-- a prefetch [1 bit] (06 R196; reset: queue empty) -/
  pf : Bool := false
  /-- coherence is settled: the grant the request answers with (07 T7.2; reset: queue empty) -/
  grant : Option MetaV := none
  /-- the completion of the write has gone to its host [1 bit] (01 R32; reset: queue empty) -/
  ack : Bool := false
  /-- its landing was declared down meanwhile: its response is discarded [1 bit] (02 R66; reset: queue empty) -/
  dead : Bool := false
  /-- the tracker entry it waited for is offered to it [1 bit] (01 R36; reset: queue empty) -/
  offered : Bool := false
  deriving DecidableEq, Repr, Inhabited

/-- One landing (host-port complex). -/
structure Landing where
  link : Link := {}
  pool : Pool := {}
  ideMem : Ide := {}
  ideIo : Ide := {}
  /-- IDE_KM and SPDM requests waiting while the Tollhouse restarts [count] (02 R76, 08 R272; reset 0) -/
  doe : Nat := 0
  /-- answer to the last DOE request: 0 none, 1 done, 2 IDE_KM error, 3 SPDM session error; with its payload [natural; bytes] (02 R75, 14 R425; reset none) -/
  doeRsp : Nat := 0
  doeOut : List Byte := []
  acc : Access := {}
  coh : Coh := {}
  /-- stride detectors [16, 32 merged] (06 R195; reset empty) -/
  strides : List Stride := []
  /-- use order of the stride detectors [natural] (06 R195; reset 0) -/
  strideUse : Nat := 0
  /-- requests waiting for a free miss-tracker entry of a home slice, oldest first [slice, request] (01 R36; reset empty) -/
  wait : List (Nat × Work) := []
  /-- MSI-X table and its enable [8 vectors; 1 bit] (13 R405; reset masked; 0b) -/
  msix : Tbl Msix := []
  msixEn : Bool := false
  /-- PTM enabled by the host [1 bit] (16 R478; reset 0b, DESIGN CHOICE log 4) -/
  ptm : Bool := false
  /-- host enables ASPM L1 [1 bit] (17 R484; reset 0b, DESIGN CHOICE log 4) -/
  aspm : Bool := false
  /-- landing power state Moored [1 bit] (17 R483; reset 0b) -/
  moored : Bool := false
  /-- CXL RAS uncorrectable status: link-protocol error; viral; AER advisory errors [1 bit; 1 bit; natural] (02 R58, 15 R453, 13 R401; reset 0) -/
  rasUnc : Bool := false
  viral : Bool := false
  aer : Nat := 0
  /-- memory-active reported to this landing's host [1 bit] (19 R516, R525; reset 0b) -/
  memActive : Bool := false
  /-- Memory_Active_Timeout reported [1 bit] (19 R516; reset 0b) -/
  memTimeout : Bool := false
  deriving DecidableEq, Repr, Inhabited

end Sys2Proof.Machine
end

