-- ==== Sys2Proof/Machine/StateSlice.lean ====
section
/-! DEFINITION. The state of one memory slice: Wharf, snoop filter, conflict queue, miss tracker, page-map cache, lanes, seal store and key table. -/
namespace Sys2Proof.Machine

/-- States of a Wharf line (Table 6.2). -/
inductive WSt where
  | invalid | clean | dirty | writing | held
  deriving DecidableEq, Repr, Inhabited

/-- One way of one Wharf set (Tables 6.2 and 6.3). -/
structure WLine where
  /-- line state [3 bits] (06 T6.2; reset Invalid) -/
  st : WSt := .invalid
  /-- line address DPA[44:6], held by tag and set [39 bits] (06 R169, R172; reset 0) -/
  addr : Nat := 0
  /-- data [512 bits] (06 R168; reset 0, DESIGN CHOICE log 4) -/
  data : Line := 0#512
  /-- CLS [6 bits] (06 T6.3; reset 0) -/
  cls : Nat := 0
  /-- AGE [3 bits] (06 T6.3; reset 0) -/
  age : Nat := 0
  /-- PF, PIN, POIS, PM [1 bit each] (06 T6.3; reset 0b) -/
  pf : Bool := false
  pin : Bool := false
  pois : Bool := false
  pm : Bool := false
  /-- DTICK [3 bits] (06 T6.3; reset 0) -/
  dtick : Nat := 0
  /-- the line was written whole by a host since its quad's QPOIS bit was last set [1 bit] (04 R105; reset 0b) -/
  whole : Bool := false
  /-- a writeback's snapshot of a Writing or Held line that a later write has passed [512 bits, poison] (06 R182; reset none) -/
  snap : Option (Line × Bool) := none
  deriving DecidableEq, Repr, Inhabited

/-- One snoop-filter entry (Table 7.1); its parity bits are computed (R209). -/
structure FEnt where
  /-- VALID, FRGN [1 bit each] (07 T7.1; reset 0b) -/
  valid : Bool := false
  frgn : Bool := false
  /-- TAG, with the set: sector DPA[44:8] [37 bits] (07 T7.1, R208; reset 0) -/
  sector : Nat := 0
  /-- SHARERS [16 bits] (07 T7.1; reset 0000h) -/
  sharers : BitVec 16 := 0#16
  /-- OWNER [4 bits] (07 T7.1; reset 0h) -/
  owner : Fin 16 := 0
  /-- LSTATE [8 bits] (07 T7.1; reset 00h) -/
  lstate : BitVec 8 := 0#8
  /-- EPOCH [4 bits] (07 T7.1; reset 0h) -/
  epoch : BitVec 4 := 0#4
  /-- order of allocation, for replacement [natural] (07 R211; reset 0) -/
  alloc : Nat := 0
  deriving DecidableEq, Repr, Inhabited

/-- One miss-tracker entry (R36). -/
structure Miss where
  /-- quad DPA[44:8] [37 bits] (01 R36; reset: none outstanding) -/
  quad : Nat
  /-- requests that take their data from this fill, in conflict-queue order (01 R36; reset: none outstanding) -/
  ws : List Work
  /-- line address the first request asked for [39 bits] (06 R176; reset: none outstanding) -/
  line : Nat
  /-- class the fill installs for [6 bits] (06 R174; reset: none outstanding) -/
  cls : Nat
  /-- started by a prefetch and not yet joined [1 bit] (06 R176; reset: none outstanding) -/
  pf : Bool
  /-- doomed by an Invalidate or Discard [1 bit] (01 R37; reset: none outstanding) -/
  doomed : Bool := false
  /-- page-map-cache hit at the lookup [1 bit] (01 R27; reset: none outstanding) -/
  hit : Bool := true
  deriving DecidableEq, Repr, Inhabited

/-- What a finished collection of snoop answers makes the home slice do. -/
inductive CollAct where
  /-- serve the request that met an unowned conflict (R213). -/
  | serve (w : Work)
  /-- free the replaced filter entry (R211). -/
  | victim
  /-- rewrite the failed entry as invalid (R212). -/
  | rebuild
  /-- one sector of a Releasing record (R93). -/
  | release (rno : Nat)
  /-- Laid-up entry or warm device reset (R234). -/
  | drain
  deriving DecidableEq, Repr, Inhabited

/-- A collection of back-invalidate answers the home slice waits for. -/
structure Coll where
  /-- number, sector [natural; 37 bits] (07 R213; reset: none) -/
  id : Nat
  sector : Nat
  /-- landings with no answer yet [list] (07 R213; reset: none) -/
  wait : List Nat
  /-- landings snooped at the start (07 R213; reset: none) -/
  asked : List Nat := []
  /-- what follows (07 R211, R212, R213, R93; reset: none) -/
  act : CollAct
  /-- a rebuild: the failure was injected; the location fails its test [1 bit each] (07 R212, 15 R466; reset: none) -/
  inj : Bool := false
  bad : Bool := false
  /-- a rebuild: a landing its entry named was declared down meanwhile [1 bit] (07 R231; reset: none) -/
  lost : Bool := false
  deriving DecidableEq, Repr, Inhabited

/-- A handoff on its way to the home slice (R219, R220). -/
structure Handoff where
  /-- owner landing it comes from [4 bits] (07 R219; reset: none) -/
  from_ : Nat
  /-- the head served, none when it only returns entries (07 R220; reset: none) -/
  head : Option Fwd
  /-- the host answered the snoop keeping the line shared [1 bit] (07 R219; reset: none) -/
  rsp : BiRsp := .i
  /-- lines the snoop covered [bit per line] (07 R213; reset: none) -/
  snooped : BitVec 4 := 0#4
  /-- written-back data [line index, data, poison] (07 R219; reset: none) -/
  data : List (Nat × Line × Bool) := []
  /-- entries returned to the home slice, in order (07 R220; reset: none) -/
  back : List Fwd := []
  /-- the data went to the requesting landing already [1 bit] (07 R219, R225; reset: none) -/
  sent : Bool := false
  deriving DecidableEq, Repr, Inhabited

/-- A loss report from a down landing (R227). -/
structure Loss where
  /-- landing [4 bits] (07 R227; reset: none) -/
  ld : Nat
  /-- transfers it was receiving: sector, line, epoch, acknowledged (07 R227; reset: none) -/
  xfers : List (Nat × Nat × BitVec 4 × Bool)
  deriving DecidableEq, Repr, Inhabited

/-- One held writeback (R134). -/
structure Held where
  /-- page of the placement [33 bits] (04 R134; reset: none held) -/
  page : Nat
  /-- quads of the placement, in order, with the data that left the Wharf and whether each is poisoned (04 R134, 06 R182; reset: none held) -/
  quads : List (Nat × Quad × Bool × Bool)
  /-- lines released when it is placed, as the writeback was a replacement [1 bit] (06 R175; reset: none held) -/
  evict : Bool
  deriving DecidableEq, Repr, Inhabited

/-- Wharf maintenance operations (Table 6.5). -/
inductive MaintOp where
  | clean | invalidate | discard
  deriving DecidableEq, Repr, Inhabited

/-- One active range operation in a slice (R199, R202). -/
structure RangeOp where
  /-- operation number, device-wide [natural] (06 R202; reset: none active) -/
  id : Nat
  op : MaintOp
  /-- DPA line range, first and last [39 bits each] (06 R198; reset: none active) -/
  lo : Nat
  hi : Nat
  /-- pins dropped are counted [1 bit] (06 T6.5; reset: none active) -/
  count : Bool := true
  deriving DecidableEq, Repr, Inhabited

/-- One quad buffer of a bypassed slice (R204). -/
structure QBuf where
  /-- quad DPA[44:8] [37 bits] (06 R204; reset: none) -/
  quad : Nat
  /-- lines gathered [index, data, poison] (06 R204; reset: none) -/
  lines : List (Nat × Line × Bool)
  cls : Nat
  deriving DecidableEq, Repr, Inhabited

/-- One page-map-cache slot (R120); the entry and the stow header equal those in DRAM, so only what may differ is listed. -/
structure PmSlot where
  /-- tag: page DPA[44:12], and slot in use [33 bits; 1 bit] (04 R120; reset 0) -/
  page : Nat := 0
  valid : Bool := false
  /-- TALLY, TEPOCH as the slot holds them [8 bits; 4 bits] (04 R121, R127; reset 0) -/
  tally : BitVec 8 := 0#8
  tepoch : BitVec 4 := 0#4
  /-- TALLY or TEPOCH not yet written back [1 bit] (04 R121; reset 0b) -/
  dirty : Bool := false
  /-- increments since the last writeback [natural] (04 R122; reset 0) -/
  since : Nat := 0
  deriving DecidableEq, Repr, Inhabited

/-- One tree node: counter and MAC of each of its eight entries (Table 8.4). -/
abbrev Node := List (BitVec 64 × BitVec 64)

/-- One seal-cache line (R256). -/
structure SLine where
  /-- block, level, index of the node [17; 3; 16 bits] (08 R249, R256; reset: empty) -/
  blk : Nat
  lvl : Nat
  idx : Nat
  /-- the node [1,024 bits] (08 T8.4; reset: empty) -/
  node : Node
  /-- an entry has changed since the last cleaning [1 bit] (08 R257; reset: empty) -/
  dirty : Bool
  deriving DecidableEq, Repr, Inhabited

/-- One root entry (Table 8.7). -/
structure Root where
  /-- STATE [2 bits] (08 T8.7; reset 00b) -/
  st : BitVec 2 := 0#2
  /-- BLOCK [17 bits] (08 T8.7; reset 0) -/
  blk : Nat := 0
  /-- CHANA, FRAMEA [4; 28 bits] (08 T8.7; reset 0) -/
  chA : Nat := 0
  frA : Nat := 0
  /-- CHANB, FRAMEB [4; 28 bits] (08 T8.7; reset 0) -/
  chB : Nat := 0
  frB : Nat := 0
  /-- TOPLVL [3 bits] (08 T8.7; reset 000b) -/
  top : Nat := 0
  /-- ROOTCTR, ROOTMAC [64 bits each] (08 T8.7; reset 0) -/
  ctr : BitVec 64 := 0#64
  mac : BitVec 64 := 0#64
  /-- FLOOR [64 bits] (08 T8.7; reset 0) -/
  floor : BitVec 64 := 0#64
  deriving DecidableEq, Repr, Inhabited

/-- Wharf slice state. -/
structure Wharf where
  /-- cache lines, keyed 16 × set + way [16,384 sets of 16 ways] (06 R168; reset Invalid) -/
  lines : Tbl WLine := []
  /-- disabled locations, keyed 16 × set + way [up to 256] (06 R186; reset empty) -/
  disabled : List Nat := []
  /-- WAYS.SCRW: m [4 bits] (06 T6.7; reset 1h) -/
  m : Nat := 1
  /-- WAYS.SFW: f, latched at a warm or cold device reset [3 bits] (06 T6.7; reset 010b) -/
  f : Nat := 2
  /-- STAT.FENCED: bypassed [1 bit] (06 T6.8; reset 0b) -/
  fenced : Bool := false
  /-- fenced and still draining [1 bit] (06 R203; reset 0b) -/
  draining : Bool := false
  /-- STAT.CONV [1 bit] (06 T6.8; reset 0b) -/
  conv : Bool := false
  /-- scratch bytes, keyed by window offset within the slice [8 MiB] (06 R189; reset zeros) -/
  scratch : Tbl (BitVec 8) := []
  /-- scratch locations whose data is poisoned, by byte offset of the 16 B unit [list] (06 R191; reset none) -/
  scrPois : List Nat := []
  /-- cleaning tick [3 bits, kept as a natural] (06 R180; reset 0) -/
  tick : Nat := 0
  /-- tick length in use and the one that follows the next boundary, ns [natural] (06 R180; reset 12,500) -/
  tickLen : Nat := 12500
  /-- idle scanner position: next set [14 bits] (06 R181; reset 0) -/
  scan : Nat := 0
  /-- active range operations, oldest marker first [up to 4] (06 R202; reset empty) -/
  ranges : List RangeOp := []
  /-- range operations waiting behind the oldest marker (06 R202; reset empty) -/
  rangeQ : List RangeOp := []
  /-- quad buffers of a bypassed slice [up to 64] (06 R204; reset empty) -/
  qbuf : List QBuf := []
  deriving DecidableEq, Repr, Inhabited

/-- Snoop filter of a slice. -/
structure Filter where
  /-- entries in the filter ways, keyed 32 × set + position [16,384 sets of 8f entries] (07 R208; reset VALID 0b) -/
  ents : Tbl FEnt := []
  /-- next allocation order number [natural] (07 R211; reset 0) -/
  order : Nat := 0
  /-- Adrift hold store, array A1 of SNPF [up to 512] (07 R233; reset empty) -/
  store : List FEnt := []
  /-- SFSTAT.MOVED, HOSTING [1 bit each] (07 T7.5; reset 0b) -/
  moved : Bool := false
  hosting : Bool := false
  /-- the filter move is running [1 bit] (07 R232; reset 0b) -/
  moving : Bool := false
  /-- both filters of the pair bypassed: no cache state is granted [1 bit] (07 R232; reset 0b) -/
  noGrant : Bool := false
  /-- SFSTAT.EVICTS [16 bits] (07 T7.5; reset 0000h) -/
  evicts : BitVec 16 := 0#16
  /-- requests served without a state as every entry of the set held an Adrift line [natural] (07 R211; reset 0) -/
  nostate : Nat := 0
  /-- transient filter parity errors [natural] (07 R212; reset 0) -/
  transient : Nat := 0
  /-- collections of snoop answers waited for, with the next number (07 R213; reset empty; 0) -/
  colls : List Coll := []
  nextColl : Nat := 0
  /-- handoffs on their way here, oldest first (07 R219; reset empty) -/
  handoffs : List Handoff := []
  /-- forwards sent whose handoff is not applied: landing and sector (07 R222; reset empty) -/
  fwds : List Fwd := []
  /-- loss reports on their way here, oldest first (07 R227; reset empty) -/
  losses : List Loss := []
  /-- loss reports whose handoff has not arrived: landing, sector, line, epoch, acknowledged (07 R227; reset empty) -/
  lossWait : List (Nat × Nat × Nat × BitVec 4 × Bool) := []
  /-- shared credit requests outstanding, landings [list] (07 R218; reset empty) -/
  credReq : List Nat := []
  /-- lines whose coherence a waiting Barge access has settled and not yet used, DPA[44:6] [list] (11 R334; reset empty) -/
  settled : List Nat := []
  deriving DecidableEq, Repr, Inhabited

/-- Seal store and key table of a slice. -/
structure SealSt where
  /-- root store SROOT, keyed by block [up to 8,192 entries, three copies] (08 R254; reset STATE 00b) -/
  roots : Tbl Root := []
  /-- HW [64 bits, three copies] (08 R251, R254; reset 0, DESIGN CHOICE log 4) -/
  hw : BitVec 64 := 0#64
  /-- seal cache SEALC, most recently used first [8,192 lines of 128 B] (08 R256; reset empty) -/
  cache : List SLine := []
  /-- CRY.SEAL LOST, MACFAIL [16 bits each] (08 T8.11; reset 0000h) -/
  lost : BitVec 16 := 0#16
  macfail : BitVec 16 := 0#16
  /-- CRY.SEAL KEYSPARE [8 bits] (08 T8.11; reset 40h) -/
  spare : Nat := 64
  /-- contexts whose slot is remapped to a spare [list] (08 R244; reset empty) -/
  remap : List Nat := []
  /-- contexts whose slot waits for a Tollhouse reload [list] (08 R244; reset empty) -/
  reload : List Nat := []
  /-- key table KEYT: contexts whose working keys are loaded: data key, tweak key [512 bits each of 16,384 slots] (08 R243; reset empty) -/
  keys : Tbl (Option (BitVec 256 × BitVec 256)) := []
  deriving DecidableEq, Repr, Inhabited

/-- One memory slice. -/
structure Slice where
  wharf : Wharf := {}
  filt : Filter := {}
  sl : SealSt := {}
  /-- quad-miss tracker, oldest first [up to 512] (01 R36; reset empty) -/
  misses : List Miss := []
  /-- requests waiting in the conflict queue, oldest first (01 R35, R36; reset empty) -/
  waitq : List Work := []
  /-- next landing offered a freed tracker entry [4 bits] (01 R36; reset 0, DESIGN CHOICE log 4) -/
  offer : Nat := 0
  /-- page-map cache, keyed 16 × set + way [2,048 sets of 16 ways] (04 R120; reset empty) -/
  pmc : Tbl PmSlot := []
  /-- segment-directory entries of this slice whose parity is lasting bad [list of blocks] (04 R112; reset empty) -/
  dirBad : List Nat := []
  /-- held writebacks, oldest first (04 R134; reset empty) -/
  held : List Held := []
  /-- writebacks held back by both decompression lanes fenced are among them; CAPPOIS [16 bits] (04 T4.7; reset 0000h) -/
  cappois : BitVec 16 := 0#16
  /-- tally-loss counter [natural] (04 R122; reset 0) -/
  tallyLoss : Nat := 0
  /-- transient events of page map, directory, stow header, lanes, key table, quad MACs [natural each] (04 R112, R116, 05 R141, R156, 08 R244, R261; reset 0) -/
  transients : Nat := 0
  /-- STW.STAT CMPF, DEC0F, DEC1F [1 bit each] (05 T5.11; reset 0b) -/
  cmpF : Bool := false
  dec0F : Bool := false
  dec1F : Bool := false
  /-- STW.STAT RESTOWS, PROMOTES [24 bits each] (05 T5.11; reset 00_0000h) -/
  restows : BitVec 24 := 0#24
  promotes : BitVec 24 := 0#24
  /-- STW.STAT DECERR [8 bits] (05 T5.11; reset 00h) -/
  decerr : BitVec 8 := 0#8
  /-- tally epoch this slice applies [4 bits] (04 R128; reset 0h) -/
  epoch : BitVec 4 := 0#4
  /-- found lasting bad at the self-test: page-map-cache ways, 16 × set + way; seal-cache ways, count; scratch pages of the slice [lists; natural]
  (19 T19.4; reset empty, 0) -/
  pmcBad : List Nat := []
  sealBad : Nat := 0
  scrBad : List Nat := []
  deriving DecidableEq, Repr, Inhabited

end Sys2Proof.Machine
end

