-- ==== Sys2Proof/Machine/StateChan.lean ====
section
/-! DEFINITION. The state of one DRAM channel, of the page map and of the extent records. -/
namespace Sys2Proof.Machine

/-- DIMM types of Table 9.1. -/
inductive DimmType where
  | rdimm | rdimm3ds | mrdimm
  deriving DecidableEq, Repr, Inhabited

/-- What is fitted on a channel, all its DIMMs alike (Table 9.1, R274), as the SPD gives it (R276). -/
structure Pop where
  /-- DIMM type, and capacity per DIMM in GiB (09 T9.1; reset: absent) -/
  type : DimmType := .rdimm
  gib : Nat := 0
  /-- DIMMs per channel, ranks per DIMM (09 T9.1; reset: absent) -/
  dpc : Nat := 0
  ranks : Nat := 1
  /-- x4 devices [1 bit]; stack height H (09 T9.1; reset: absent) -/
  x4 : Bool := false
  stack : Nat := 1
  /-- speed grade, MT/s (09 T9.1; reset: absent) -/
  speed : Nat := 0
  /-- rows per bank (09 R277; reset: absent) -/
  rows : Nat := 65536
  /-- the SPD reports RFM, with its initial threshold (09 R286; reset: absent) -/
  rfm : Option Nat := none
  /-- unused sPPR and hPPR resources per bank group (09 R298, R299; reset: absent) -/
  sppr : Nat := 1
  hppr : Nat := 1
  deriving DecidableEq, Repr, Inhabited

/-- STATE of DRC.STAT (Table 9.7). -/
inductive ChSt where
  | absent | training | active | paused | switching | maintenance | fenced | disabled
  deriving DecidableEq, Repr, Inhabited

/-- One row of a channel: the bank's number and the row's (R277). -/
structure RowAddr where
  bank : Nat
  row : Nat
  deriving DecidableEq, Repr, Inhabited

/-- One scheduler entry: a read that waits for its data (R278). -/
structure SEntry where
  /-- quad it fetches, home slice (09 R278; reset: queue empty) -/
  quad : Nat
  home : Nat
  /-- channel byte offset, length (09 R278, R283; reset: queue empty) -/
  off : Nat
  len : Nat
  /-- service class; prefetch or background, group 7 (09 R279, T9.2; reset: queue empty) -/
  cls : Nat
  low : Bool
  /-- risen to the head of its group (09 R280; reset: queue empty) -/
  starved : Bool := false
  deriving DecidableEq, Repr, Inhabited

/-- Row-activation table of one bank (R285). -/
structure RTab where
  /-- 32 entries {row, count}, by position (09 R285; reset: all zero) -/
  ents : Tbl (Nat × Nat) := []
  deriving DecidableEq, Repr, Inhabited

/-- Tide states (Table 4.6). -/
inductive Tide where
  | high | low | ebb | ballast
  deriving DecidableEq, Repr, Inhabited

/-- One DRAM channel. -/
structure Chan where
  /-- DIMMs fitted, from outside (09 R273; reset: absent) -/
  pop : Pop := {}
  /-- DRC.STAT STATE [3 bits] (09 T9.7; reset 000b) -/
  st : ChSt := .absent
  /-- DRC.STAT TSET [1 bit] (09 T9.7; reset 0b) -/
  tset : Bool := false
  /-- DRC.STAT SPEED, in MT/s [8 bits of 100 MT/s] (09 T9.7; reset 00h) -/
  speed : Nat := 0
  /-- set A and set B speeds as trained, MT/s (09 R289; reset 0) -/
  spA : Nat := 0
  spB : Nat := 0
  /-- DRC.STAT FCAUSE [4 bits] (09 T9.7; reset 0h) -/
  fcause : BitVec 4 := 0#4
  /-- DRC.STAT DRAIN [1 bit] (09 T9.7; reset 0b) -/
  drain : Bool := false
  /-- DRC.STAT TEMP [8 bits] (09 T9.7; reset 00h) -/
  temp : Nat := 0
  /-- polls in a row that failed [0 to 2] (09 R276; reset 2, no reading yet) -/
  pollFail : Nat := 2
  /-- DRC.ERR CE, UET, UEL, RETIRED [24, 12, 12, 12 bits] (09 T9.8; reset 0) -/
  ce : Nat := 0
  uet : Nat := 0
  uel : Nat := 0
  retired : Nat := 0
  /-- the event of p019C has been sent [1 bit] (09 R297; reset 0b) -/
  retEvt : Bool := false
  /-- DRC.REPAIR SPPR, HPPR, UNREP [8 bits each] (09 T9.9; reset 00h) -/
  sppr : Nat := 0
  hppr : Nat := 0
  unrep : Nat := 0
  /-- rows queued for soft repair, oldest first; QUEUED is their count (09 R298, T9.9; reset empty) -/
  queue : List RowAddr := []
  /-- rows not to be repaired again before the next cold reset (09 R298; reset empty) -/
  noRepair : List RowAddr := []
  /-- sPPR resources used per bank group (09 R298; reset empty) -/
  spprUsed : Tbl Nat := []
  /-- corrected errors per row with their times, oldest first [64 entries] (09 R294; reset empty) -/
  ceRows : List (RowAddr × List Nat) := []
  /-- scheduler queue, head first [up to 192 entries] (09 R278; reset empty) -/
  sched : List SEntry := []
  /-- queued writes, for the drain levels [up to 96] (09 R281; reset 0) -/
  wq : Nat := 0
  /-- open row per bank (09 R280; reset: all closed) -/
  openRow : Tbl (Option Nat) := []
  /-- row-activation tracker per bank (09 R285; reset clear) -/
  rtrk : Tbl RTab := []
  /-- neighbour refreshes owed: bank, row (09 R285; reset none) -/
  owed : List RowAddr := []
  /-- RAA count per bank (09 R286; reset 0) -/
  raa : Tbl Nat := []
  /-- refreshes postponed per bank [0 to 4] (09 R284; reset 0) -/
  postponed : Tbl Nat := []
  /-- transient margin drifts (09 R288; reset 0) -/
  drift : Nat := 0
  /-- a retraining pause is to be repeated 100 µs later [1 bit] (09 R288; reset 0b) -/
  repause : Bool := false
  /-- transient command or write errors (09 R295; reset 0) -/
  cmdErr : Nat := 0
  /-- patrol scrub position, channel byte offset of the next burst (09 R296; reset 0) -/
  scrub : Nat := 0
  /-- retired berths, frames, since the last cold reset (09 R297; reset empty) -/
  retList : List Nat := []
  /-- berths waiting for retirement, frames, oldest first (09 R292, R294; reset empty) -/
  retQ : List Nat := []
  /-- PGM.TIDE FREE [31 bits] (04 T4.7; reset 0) -/
  free : Nat := 0
  /-- PGM.TIDE STATE [2 bits] (04 T4.7; reset 00b) -/
  tide : Tide := .high
  /-- growth tokens left in the present 10 µs (04 R132; reset 0) -/
  tokens : Nat := 0
  /-- throttle step of the channel; DIMM limit (17 R492; reset 0) -/
  dimmStep : Nat := 0
  /-- write-CRC and RFM enables applied at the last reset: p019B, p0192 [1 bit each] (09 T9.10; reset 1) -/
  wcrc : Bool := true
  rfmEn : Bool := true
  /-- memory kept in self-refresh [1 bit] (09 R289, 17; reset 0b) -/
  selfRef : Bool := false
  deriving DecidableEq, Repr, Inhabited

/-- Page forms (Table 4.1). -/
inductive Form where
  | z | p | k
  deriving DecidableEq, Repr, Inhabited

/-- A page-map entry, both copies, with CHK computed (Table 4.1, R103). -/
structure PEnt where
  /-- FORM [2 bits] (04 T4.1; reset 00b) -/
  form : Form := .z
  /-- CHAN [4 bits] (04 T4.1; reset 0h) -/
  chan : Nat := 0
  /-- FRAME [28 bits] (04 T4.1; reset 0) -/
  frame : Nat := 0
  /-- GOFF, GCNTM1 [3 bits each] (04 T4.1; reset 000b) -/
  goff : Nat := 0
  gm1 : Nat := 0
  /-- QPOIS [16 bits] (04 T4.1; reset 0000h) -/
  qpois : BitVec 16 := 0#16
  /-- TALLY [8 bits] (04 T4.1; reset 00h) -/
  tally : BitVec 8 := 0#8
  /-- TEPOCH [4 bits] (04 T4.1; reset 0h) -/
  tepoch : BitVec 4 := 0#4
  /-- CTX [14 bits] (04 T4.1; reset 0) -/
  ctx : Nat := 0
  /-- SEALED [1 bit] (04 T4.1; reset 0b) -/
  sld : Bool := false
  /-- PIN [1 bit] (04 T4.1; reset 0b) -/
  pin : Bool := false
  deriving DecidableEq, Repr, Inhabited

/-- One block of the region: its segment and what its pages were bound to (R111). -/
structure Block where
  /-- segment directory VALID and SEG, the same in every slice [1 bit; 17 bits] (04 R111; reset VALID 0b) -/
  seg : Option Nat := none
  /-- CTX and SEALED the block's entries were written with, held by every entry not listed on its own [14 bits; 1 bit] (04 R111; reset 0) -/
  ctx : Nat := 0
  sld : Bool := false
  /-- TEPOCH and TALLY need no field: an unlisted entry holds zero (04 T4.1; reset 0) -/
  reclaiming : Bool := false
  deriving DecidableEq, Repr, Inhabited

/-- The page map. -/
structure PageMap where
  /-- entries that differ from what their block was bound with, keyed by page DPA[44:12] [33 bits] (04 R102; reset empty) -/
  ents : Tbl (Option PEnt) := []
  /-- segment directory and binding, keyed by block DPA[44:28] [131,072 blocks] (04 R111; reset empty) -/
  blocks : Tbl Block := []
  /-- pages whose copy A, copy B no longer reads back (04 R116; reset empty) -/
  badA : List Nat := []
  badB : List Nat := []
  /-- allocation map: used granules of a berth, keyed 2^28 × channel + frame [8 bits] (04 R123; reset 00h) -/
  alloc : Tbl (BitVec 8) := []
  /-- S, fixed when memory becomes active (04 R114; reset 0) -/
  segs : Nat := 0
  /-- PGM.TEPOCH EPOCH, SWEEP [4 bits; 1 bit] (04 T4.5; reset 0h, 0b) -/
  epoch : BitVec 4 := 0#4
  sweep : Bool := false
  /-- tide events latched while the Ferryman is unavailable: channel, state, free (04 R131; reset empty) -/
  latched : List (Nat × Tide × Nat) := []
  deriving DecidableEq, Repr, Inhabited

/-- States of an extent record (Table 3.3). -/
inductive ExtSt where
  | free | offered | granted | releasing | reclaiming
  deriving DecidableEq, Repr, Inhabited

/-- An extent record (Table 3.3). -/
structure ExtRec where
  /-- BASEBLK, NBLKM1 [17 bits each] (03 T3.3; reset 0) -/
  base : Nat := 0
  nblk1 : Nat := 0
  /-- LANDING [4 bits] (03 T3.3; reset 0h) -/
  ld : Nat := 0
  /-- SHARED, NEAR, RDONLY [1 bit each] (03 T3.3; reset 0b) -/
  shared : Bool := false
  near : Bool := false
  rdonly : Bool := false
  /-- STATE [3 bits] (03 T3.3; reset 000b) -/
  st : ExtSt := .free
  /-- CTX [14 bits] (03 T3.3; reset 0) -/
  ctx : Nat := 0
  /-- SHAREID [16 bits] (03 T3.3; reset 0000h) -/
  share : Nat := 0
  /-- SEQ [16 bits] (03 T3.3; reset 0000h) -/
  seq : BitVec 16 := 0#16
  /-- TAG [128 bits] (03 T3.3; reset 0) -/
  tag : BitVec 128 := 0#128
  deriving DecidableEq, Repr, Inhabited

/-- Attributes staged for a block range (R87, R371). -/
structure Staged where
  /-- landing, first block, blocks (03 R87, 12 R371; reset: table empty) -/
  ld : Nat
  base : Nat
  nblk : Nat
  /-- NEAR, RDONLY, CTX (03 R87; reset: table empty) -/
  near : Bool
  rdonly : Bool
  ctx : Nat
  deriving DecidableEq, Repr, Inhabited

/-- One accepted add with extents still Offered (R90). -/
structure Offer where
  /-- landing, record numbers in list order (03 R90; reset: none) -/
  ld : Nat
  recs : List Nat
  /-- tOFFER at the time it was made, s (03 R90, T3.9; reset: none) -/
  limit : Nat
  deriving DecidableEq, Repr, Inhabited

/-- Capacity: records, staging, offers. -/
structure Extents where
  /-- extent records, keyed by number [32,768 of 256 bits] (03 R84; reset Free) -/
  recs : Tbl ExtRec := []
  /-- staged attributes, oldest first [up to 64] (03 R87, 12 R371; reset empty) -/
  staged : List Staged := []
  /-- adds that still have Offered extents, oldest first (03 R90; reset empty) -/
  offers : List Offer := []
  /-- references to tagged extents [tags] (12 R366; reset empty) -/
  refs : List (BitVec 128) := []
  /-- the overcommit event has been sent for the present N [1 bit] (03 R100; reset 0b) -/
  ovr : Bool := false
  deriving DecidableEq, Repr, Inhabited

end Sys2Proof.Machine
end

