-- ==== Sys2Proof/Machine/StateCore.lean ====
section
/-! DEFINITION. The state of contexts, events, poison lists and the fault collector. -/
namespace Sys2Proof.Machine

/-- Context states (Table 8.1). -/
inductive CtxSt where
  | disabled | awaiting | enabled
  deriving DecidableEq, Repr, Inhabited

/-- A context record (Table 8.1); KEYLD, BLOCKS and PAGES are computed from the key tables, the records and the page map. -/
structure CtxRec where
  /-- STATE [2 bits] (08 T8.1; reset 00b) -/
  st : CtxSt := .disabled
  /-- SEALED, NODMA, IMPORTED [1 bit each] (08 T8.1; reset 0b) -/
  sld : Bool := false
  nodma : Bool := false
  imported : Bool := false
  /-- KEYGEN [8 bits] (08 T8.1; reset 00h) -/
  gen : BitVec 8 := 0#8
  /-- IMPMASK [16 bits] (08 T8.1; reset 0000h) -/
  mask : BitVec 16 := 0#16
  deriving DecidableEq, Repr, Inhabited

/-- What an event record tells (12 R366, 15 R462). -/
inductive EvKind where
  | speedLimited | landingDown | accessViolation | addCapacity | releaseCapacity | forcedRelease | offerEnded | overcommit
  | tide | coherence | integrity | nodeLost | resealed | population | retiredBerths | scaling | fault | memoryActive | startFailed
  | sandbox | wake | firmware | powerRefused | poisonOverflow | channelTrain | moduleEvent | background | dcRelease | paramStore
  deriving DecidableEq, Repr, Inhabited

/-- One event record (12 R366, 15 R462). -/
structure Event where
  /-- kind and operands of the record (15 R462, 03 R98; reset: log empty) -/
  kind : EvKind
  args : List Nat := []
  /-- log: 0 Informational, 1 Warning, 2 Failure, 3 Fatal [2 bits] (15 R462; reset: log empty) -/
  sev : Nat := 0
  /-- handle [natural] (12 R366; reset: log empty) -/
  handle : Nat := 0
  /-- device time of the record [ns] (16 R472; reset: log empty) -/
  time : Nat := 0
  deriving DecidableEq, Repr, Inhabited

/-- The event logs of one reader, a landing's host or the Pool owner, with its poison list (12 R366, R367). -/
structure Logs where
  /-- records not yet cleared, oldest first [256 per log] (12 R366; reset empty) -/
  evs : List Event := []
  /-- overflow counts per log [natural] (12 R366; reset 0) -/
  ovr : List Nat := [0, 0, 0, 0, 0]
  /-- next handle [natural] (12 R366; reset 1) -/
  next : Nat := 1
  /-- interrupt policy per log [2 bits each] (12 R366; reset 0, DESIGN CHOICE log 4) -/
  policy : List Nat := [0, 0, 0, 0, 0]
  /-- poison list: DPA, length, injected [up to 512] (12 R367; reset empty) -/
  poison : List (Nat × Nat × Bool) := []
  /-- poison-list overflow flag [1 bit] (12 R367; reset 0b) -/
  poisOver : Bool := false
  deriving DecidableEq, Repr, Inhabited

/-- A class record (Table 10.2). -/
structure ClassRec where
  /-- GW, XW [11 bits each] (10 T10.2; reset 000h, 400h, SC00 000h) -/
  gw : Nat := 0
  xw : Nat := 1024
  /-- GQ, XQ [11 bits each] (10 T10.2; reset 000h, 400h, SC00 000h) -/
  gq : Nat := 0
  xq : Nat := 1024
  /-- GI, XI [11 bits each] (10 T10.2; reset 000h, 400h, SC00 000h) -/
  gi : Nat := 0
  xi : Nat := 1024
  deriving DecidableEq, Repr, Inhabited

/-- The record of SC00 after cold reset (R307). -/
def ClassRec.zero : ClassRec := { xw := 0, xq := 0, xi := 0 }

/-- A scaling event of one resource that later changes merge into (R319). -/
structure ScaleEv where
  /-- resource 0 W, 1 Q, 2 I; landing for I (10 R319; reset none) -/
  res : Nat
  ld : Nat
  /-- time of the event sent, changes merged since [ns; natural] (10 R319; reset none) -/
  time : Nat
  merged : Nat := 0
  /-- D before the first merged change (10 R319; reset none) -/
  old : Nat := 0
  deriving DecidableEq, Repr, Inhabited

/-- Service classes and regulation. -/
structure Qos where
  /-- class records that differ from the reset values, by class [64 of 128 bits] (10 R309; reset Table 10.2) -/
  recs : Tbl (Option ClassRec) := []
  /-- records admitted and not yet applied by the units, by class (10 R315; reset none) -/
  pend : Tbl (Option ClassRec) := []
  /-- QOS.DELIV DW, DQ as the units apply them [11 bits each] (10 T10.6; reset 400h) -/
  dw : Nat := 1024
  dq : Nat := 1024
  /-- D_W, D_Q as the power manager last computed them, applied at the next window boundary (10 R317; reset 400h) -/
  dwNext : Nat := 1024
  dqNext : Nat := 1024
  /-- D_I per landing, applied and as last computed [11 bits] (10 T10.8, R317; reset 400h) -/
  di : Tbl Nat := []
  diNext : Tbl Nat := []
  /-- N_Q: sum of the sustained 2:1 figures under set A of the channels trained at memory-active, MB/s (10 T10.1; reset 0) -/
  nq : Nat := 0
  /-- SCALEEV [16 bits] (10 T10.6; reset 0000h) -/
  scaleEv : Nat := 0
  /-- last scaling event per resource and landing (10 R319; reset none) -/
  lastEv : List ScaleEv := []
  /-- scaling events latched while the Ferryman is unavailable: resource, landing, old D, new D, C0e, S (10 R319; reset empty) -/
  latched : List (List Nat) := []
  /-- issue slots used in the present window, keyed 64 × channel + class (10 R311; reset 0) -/
  slots : Tbl Nat := []
  /-- departures in the present window, keyed 64 × landing + class (10 R312; reset 0) -/
  deps : Tbl Nat := []
  deriving DecidableEq, Repr, Inhabited

/-- One counter's selection register (Table 16.1). -/
structure Sel where
  /-- EVENT [12 bits] (16 T16.1; reset 000h) -/
  ev : Nat := 0
  /-- INST, ALL [4 bits; 1 bit] (16 T16.1; reset 0h, 0b) -/
  inst : Nat := 0
  all : Bool := false
  /-- CLS, CLSEN [6 bits; 1 bit] (16 T16.1; reset 00h, 0b) -/
  cls : Nat := 0
  clsen : Bool := false
  /-- CHAIN, ENABLE [1 bit each] (16 T16.1; reset 0b) -/
  chain : Bool := false
  enable : Bool := false
  deriving DecidableEq, Repr, Inhabited

end Sys2Proof.Machine
end

