-- ==== Sys2Proof/Machine/StateLko.lean ====
section
/-! DEFINITION. The state of the Lookout: sources, fault records, fenced links. -/
namespace Sys2Proof.Machine

/-- Fault classes (Table 15.6 CLASS). -/
inductive FCls where
  | corrected | deferred | contained | fatal
  deriving DecidableEq, Repr, Inhabited

/-- Fence targets of the source catalogue (Table 15.11, Table 15.14). -/
inductive Fence where
  | lane | landing | link | wharf | channel | cmp | dec0 | dec1
  deriving DecidableEq, Repr, Inhabited

/-- An encoded location path (Table 15.7). -/
structure Path where
  /-- DIE, QUAD, SLICE, UNIT, ARRAY, BIT, DEPTH (15 T15.7; reset: no record) -/
  die : Nat := 0
  quad : Nat := 0
  slice : Nat := 0
  unit : Nat := 0
  array : Nat := 0
  bit : Nat := 0
  depth : Nat := 1
  deriving DecidableEq, Repr, Inhabited

/-- A fault record (Table 15.6); CHECK is computed. -/
structure FRec where
  /-- SEQ [32 bits] (15 T15.6; reset: store empty) -/
  seq : Nat
  /-- SOURCE [11 bits] (15 T15.6; reset: store empty) -/
  src : Nat
  /-- CLASS: on arrival and final [3 bits each] (15 T15.6; reset: store empty) -/
  arr : FCls
  fin : FCls
  /-- FLAGS ESC, WIRE, INJ, ACK, ECHOED, FENCED, VIRAL, DNC [1 bit each] (15 T15.6; reset: store empty) -/
  esc : Bool := false
  wire : Bool := false
  inj : Bool := false
  ack : Bool := false
  echoed : Bool := false
  fenced : Bool := false
  viral : Bool := false
  dnc : Bool := false
  /-- TIME [64 bits] (15 T15.6; reset: store empty) -/
  time : Nat
  /-- PATH, PATH2 [64 bits each] (15 T15.6; reset: store empty) -/
  path : Path
  path2 : Option Path := none
  /-- ECHO [32 bits] (15 T15.6; reset: store empty) -/
  echo : Nat := 0
  /-- DETAIL0, DETAIL1 [64 bits each] (15 T15.6; reset: store empty) -/
  det0 : Nat := 0
  det1 : Nat := 0
  /-- CAUSE [32 bits], none for FFFF_FFFFh (15 T15.6; reset: store empty) -/
  cause : Option Nat := none
  /-- written to the persistent log [1 bit] (15 R460, R461; reset: store empty) -/
  logged : Bool := false
  /-- delivered from the Mooring island's retention records, logged as KIND 04h [1 bit] (15 R464; reset: store empty) -/
  kept : Bool := false
  /-- made before memory-active [1 bit] (15 R451; reset: store empty) -/
  early : Bool := false
  /-- distinct islands whose storm reports merged into it [paths] (15 R455; reset: store empty) -/
  isl : List Path := []
  deriving DecidableEq, Repr, Inhabited

/-- One fault source (Table 15.14); DEFCLASS, FENCE and MERGE are the catalogue's, CLASS is p0300 + s. -/
structure Src where
  /-- ASSERT, WIREF, FORCE [1 bit each] (15 T15.14; reset 0b) -/
  asrt : Bool := false
  wiref : Bool := false
  force : Bool := false
  /-- INJCNT [8 bits] (15 T15.14; reset 00h) -/
  inj : Nat := 0
  /-- COUNT [32 bits] (15 T15.14; reset 0) -/
  count : Nat := 0
  /-- detail latch: entries the Lookout has not yet read [0 to 4] (15 R443; reset 0) -/
  latch : Nat := 0
  deriving DecidableEq, Repr, Inhabited

/-- The Lookout. -/
structure Lko where
  /-- sources, keyed by ID [2,048] (15 R440; reset idle) -/
  src : Tbl Src := []
  /-- record store, oldest first [up to 4,096 records of 64 B] (15 R461; reset empty) -/
  recs : List FRec := []
  /-- SEQNEXT [32 bits] (15 T15.15; reset 0000_0001h with an empty persistent log) -/
  next : Nat := 1
  /-- FATAL [1 bit] (15 T15.15; reset 0b) -/
  fatal : Bool := false
  /-- STORMS [16 bits] (15 T15.15; reset 0000h) -/
  storms : Nat := 0
  /-- overflow count of the newest record [32 bits] (01 R39; reset 0) -/
  overflow : Nat := 0
  /-- interrupts to Syust not yet taken [natural] (15 T15.10; reset 0) -/
  irq : Nat := 0
  /-- fenced cross-quadrant links, lower quadrant first [up to 6] (01 R22; reset empty) -/
  links : List (Nat × Nat) := []
  /-- messages held by a stopped slip, by sending and receiving island [pairs] (01 R20; reset empty) -/
  stopped : List (Path × Path) := []
  deriving DecidableEq, Repr, Inhabited

/-- One persistent-log entry (Table 15.13). -/
structure PLog where
  /-- LSEQ [32 bits] (15 T15.13; reset: log as it was, empty on a new part, DESIGN CHOICE log 4) -/
  lseq : Nat
  /-- KIND 01h and 04h: the fault record, and the overflow count it was written with; 02h: slot, MODID, cause; 03h: path, address; 05h: cause, argument, time (15 T15.13) -/
  kind : Nat
  frec : Option FRec := none
  args : List Nat := []
  /-- sector of the log it lies in, counted without wrap (15 R463) -/
  sec : Nat := 0
  deriving DecidableEq, Repr, Inhabited

/-- The persistent log in SPI flash. -/
structure PLogs where
  /-- entries, oldest first [16 MiB] (15 R463; reset empty, DESIGN CHOICE log 4) -/
  ents : List PLog := []
  /-- next LSEQ, present sector and bytes used in it (15 R463; reset 0) -/
  next : Nat := 0
  sec : Nat := 0
  used : Nat := 0
  deriving DecidableEq, Repr, Inhabited

/-- A fence the Lookout has ordered in the present step and that is not yet applied; empty between steps. -/
structure FenceJob where
  target : Fence
  /-- landing, slice or quadrant number -/
  inst : Nat
  /-- lane number, or receiving quadrant of a link -/
  sub : Nat := 0
  /-- sequence number of the record that caused it -/
  seq : Nat := 0
  deriving DecidableEq, Repr, Inhabited

end Sys2Proof.Machine
end

