-- ==== Sys2Proof/Machine/Params.lean ====
section
/-! DEFINITION. The parameter catalogue (R398 to R400) and the fault-source catalogue (R444). -/
namespace Sys2Proof.Machine

/-- When a parameter takes effect (R391). -/
inductive Eff where
  | live | lr | wr | cr | fuse
  deriving DecidableEq, Repr, Inhabited

/-- One catalogue entry (R388, R389): default, range, step and allowed values, when it takes effect, who writes it. -/
structure PInfo where
  dflt : Nat
  lo : Int
  hi : Int
  step : Nat := 1
  /-- a value allowed beside the range -/
  also : Option Nat := none
  /-- the only values allowed, when the range is a list -/
  only : List Nat := []
  eff : Eff := .live
  /-- Operator-writable (Table 13.1) -/
  opw : Bool := false
  deriving DecidableEq, Repr

/-- What the catalogue says of one fault source (R444). -/
structure SInfo where
  cls : FCls
  fence : Option Fence := none
  /-- fence subject: lane or receiving-quadrant index of a link source -/
  sub : Nat := 0
  /-- merge: 0 none, 1 repeat (R), 2 storm (S) -/
  merge : Nat := 0
  /-- unit code of Table 15.8 -/
  unit : Nat := 0
  /-- the source has a checker, so MEANS 2 applies (R466) -/
  checker : Bool := true
  deriving DecidableEq, Repr

/-- Landing sources (Table 15.2). -/
def landingSource : Nat → Option SInfo
  | 0x00 => some ⟨.corrected, none, 0, 1, 0x02, false⟩
  | 0x01 => some ⟨.contained, some .lane, 0, 0, 0x01, false⟩
  | 0x02 => some ⟨.corrected, none, 0, 1, 0x03, false⟩
  | 0x03 => some ⟨.corrected, none, 0, 1, 0x03, true⟩
  | 0x04 => some ⟨.contained, some .landing, 0, 0, 0x03, true⟩
  | 0x05 => some ⟨.contained, some .landing, 0, 0, 0x04, true⟩
  | 0x06 => some ⟨.contained, some .landing, 0, 0, 0x05, true⟩
  | 0x07 => some ⟨.deferred, some .landing, 0, 0, 0x06, true⟩
  | 0x08 => some ⟨.contained, some .landing, 0, 0, 0x05, false⟩
  | 0x09 => some ⟨.corrected, none, 0, 1, 0x07, true⟩
  | 0x0A => some ⟨.contained, some .landing, 0, 0, 0x01, false⟩
  | 0x0B => some ⟨.contained, some .landing, 0, 2, 0x00, false⟩
  | _ => none

/-- Memory-slice sources (Table 15.3). -/
def sliceSource : Nat → Option SInfo
  | 0x00 => some ⟨.corrected, none, 0, 1, 0x1F, true⟩
  | 0x01 => some ⟨.corrected, none, 0, 1, 0x1F, true⟩
  | 0x02 => some ⟨.deferred, none, 0, 0, 0x1F, true⟩
  | 0x03 => some ⟨.deferred, none, 0, 0, 0x1F, true⟩
  | 0x04 => some ⟨.corrected, none, 0, 0, 0x1F, true⟩
  | 0x05 => some ⟨.corrected, none, 0, 1, 0x20, true⟩
  | 0x06 => some ⟨.corrected, none, 0, 1, 0x20, true⟩
  | 0x07 => some ⟨.contained, some .channel, 0, 0, 0x20, true⟩
  | 0x08 => some ⟨.corrected, none, 0, 0, 0x1F, true⟩
  | 0x09 => some ⟨.contained, some .channel, 0, 0, 0x1F, false⟩
  | 0x0A => some ⟨.corrected, none, 0, 1, 0x1A, true⟩
  | 0x0B => some ⟨.contained, some .channel, 0, 0, 0x1A, true⟩
  | 0x0C => some ⟨.corrected, none, 0, 1, 0x14, true⟩
  | 0x0D => some ⟨.deferred, none, 0, 0, 0x14, true⟩
  | 0x0E => some ⟨.corrected, none, 0, 1, 0x13, true⟩
  | 0x0F => some ⟨.deferred, none, 0, 0, 0x14, true⟩
  | 0x10 => some ⟨.corrected, none, 0, 1, 0x15, true⟩
  | 0x11 => some ⟨.contained, some .cmp, 0, 0, 0x15, true⟩
  | 0x12 => some ⟨.corrected, none, 0, 1, 0x16, true⟩
  | 0x13 => some ⟨.deferred, none, 0, 0, 0x16, true⟩
  | 0x14 => some ⟨.contained, some .cmp, 0, 0, 0x15, true⟩
  | 0x15 => some ⟨.contained, none, 0, 1, 0x14, false⟩
  | 0x16 => some ⟨.corrected, none, 0, 1, 0x11, true⟩
  | 0x17 => some ⟨.deferred, some .wharf, 0, 0, 0x11, true⟩
  | 0x18 => some ⟨.corrected, none, 0, 0, 0x11, true⟩
  | 0x19 => some ⟨.contained, some .wharf, 0, 0, 0x11, true⟩
  | 0x1A => some ⟨.corrected, none, 0, 1, 0x11, true⟩
  | 0x1B => some ⟨.fatal, some .wharf, 0, 0, 0x11, true⟩
  | 0x1C => some ⟨.corrected, none, 0, 1, 0x11, true⟩
  | 0x1D => some ⟨.deferred, none, 0, 0, 0x11, true⟩
  | 0x1E => some ⟨.corrected, none, 0, 1, 0x12, true⟩
  | 0x1F => some ⟨.deferred, none, 0, 0, 0x12, true⟩
  | 0x20 => some ⟨.corrected, none, 0, 1, 0x18, true⟩
  | 0x21 => some ⟨.deferred, none, 0, 0, 0x18, true⟩
  | 0x22 => some ⟨.corrected, none, 0, 1, 0x1B, true⟩
  | 0x23 => some ⟨.deferred, none, 0, 0, 0x1B, true⟩
  | 0x24 => some ⟨.corrected, none, 0, 1, 0x1B, true⟩
  | 0x25 => some ⟨.corrected, none, 0, 1, 0x1C, true⟩
  | 0x26 => some ⟨.fatal, none, 0, 0, 0x1C, true⟩
  | 0x27 => some ⟨.fatal, none, 0, 0, 0x10, true⟩
  | 0x28 => some ⟨.fatal, none, 0, 2, 0x00, false⟩
  | 0x29 => some ⟨.corrected, none, 0, 1, 0x14, true⟩
  | 0x2A => some ⟨.fatal, none, 0, 0, 0x14, true⟩
  | _ => none

/-- Quadrant-fabric sources (Table 15.4); the receiving quadrant of lane k of quadrant q is the k-th other quadrant. -/
def fabricSource (q o : Nat) : Option SInfo :=
  let r := fun k => if k < q then k else k + 1
  let xl := fun k => 0x40 + 4 * q + r k
  match o with
  | 0x00 => some ⟨.corrected, none, 0, 1, 0x30, true⟩
  | 0x01 => some ⟨.fatal, none, 0, 0, 0x30, true⟩
  | 0x02 => some ⟨.fatal, none, 0, 2, 0x30, false⟩
  | 0x04 => some ⟨.corrected, none, r 0, 1, xl 0, true⟩
  | 0x05 => some ⟨.contained, some .link, r 0, 0, xl 0, true⟩
  | 0x06 => some ⟨.contained, some .link, r 0, 2, xl 0, false⟩
  | 0x08 => some ⟨.corrected, none, r 1, 1, xl 1, true⟩
  | 0x09 => some ⟨.contained, some .link, r 1, 0, xl 1, true⟩
  | 0x0A => some ⟨.contained, some .link, r 1, 2, xl 1, false⟩
  | 0x0C => some ⟨.corrected, none, r 2, 1, xl 2, true⟩
  | 0x0D => some ⟨.contained, some .link, r 2, 0, xl 2, true⟩
  | 0x0E => some ⟨.contained, some .link, r 2, 2, xl 2, false⟩
  | _ => none

/-- Central and device sources (Table 15.5). -/
def centralSource : Nat → Option SInfo
  | 0x680 => some ⟨.corrected, none, 0, 1, 0x51, true⟩
  | 0x681 => some ⟨.deferred, none, 0, 0, 0x51, true⟩
  | 0x682 => some ⟨.corrected, none, 0, 0, 0x50, false⟩
  | 0x683 => some ⟨.corrected, none, 0, 2, 0x00, false⟩
  | 0x6A0 => some ⟨.corrected, none, 0, 0, 0x50, false⟩
  | 0x6A1 => some ⟨.contained, none, 0, 0, 0x52, false⟩
  | 0x6A2 => some ⟨.fatal, none, 0, 0, 0x52, false⟩
  | 0x6A3 => some ⟨.fatal, none, 0, 0, 0x53, true⟩
  | 0x6A4 => some ⟨.corrected, none, 0, 2, 0x00, false⟩
  | 0x6C0 => some ⟨.corrected, none, 0, 0, 0x00, false⟩
  | 0x6C1 => some ⟨.corrected, none, 0, 1, 0x54, true⟩
  | 0x6C2 => some ⟨.deferred, none, 0, 0, 0x54, true⟩
  | 0x6C3 => some ⟨.corrected, none, 0, 1, 0x55, true⟩
  | 0x6C4 => some ⟨.fatal, none, 0, 2, 0x00, false⟩
  | 0x700 => some ⟨.corrected, none, 0, 1, 0x57, false⟩
  | 0x701 => some ⟨.fatal, none, 0, 0, 0x5A, true⟩
  | 0x702 => some ⟨.fatal, none, 0, 0, 0x00, false⟩
  | 0x740 => some ⟨.corrected, none, 0, 1, 0x5C, true⟩
  | 0x741 => some ⟨.contained, none, 0, 0, 0x5C, true⟩
  | 0x742 => some ⟨.fatal, none, 0, 0, 0x5E, false⟩
  | 0x743 => some ⟨.corrected, none, 0, 0, 0x5D, false⟩
  | 0x780 => some ⟨.fatal, none, 0, 0, 0x60, false⟩
  | 0x781 => some ⟨.fatal, none, 0, 0, 0x60, false⟩
  | 0x782 => some ⟨.fatal, none, 0, 0, 0x60, false⟩
  | 0x783 => some ⟨.fatal, none, 0, 0, 0x60, false⟩
  | 0x7C0 => some ⟨.corrected, none, 0, 1, 0x00, false⟩
  | 0x7C1 => some ⟨.fatal, none, 0, 0, 0x00, false⟩
  | 0x7C2 => some ⟨.corrected, none, 0, 1, 0x1F, false⟩
  | 0x7C3 => some ⟨.corrected, none, 0, 0, 0x00, false⟩
  | 0x7C4 => some ⟨.fatal, none, 0, 0, 0x00, false⟩
  | _ => none

/-- What the catalogue says of source `s`; none for a reserved ID (R444, Table 15.1). -/
def sourceInfo (s : Nat) : Option SInfo :=
  if s < 0x200 then landingSource (s % 0x20)
  else if s < 0x600 then sliceSource ((s - 0x200) % 0x40)
  else if s < 0x680 then fabricSource ((s - 0x600) / 0x20) ((s - 0x600) % 0x20)
  else centralSource s

/-- The block of Table 15.1 a source lies in, one per landing, slice, quadrant fabric and central block (R450). -/
def sourceBlock (s : Nat) : Nat :=
  if s < 0x200 then s / 0x20
  else if s < 0x600 then 16 + (s - 0x200) / 0x40
  else if s < 0x680 then 32 + (s - 0x600) / 0x20
  else if s < 0x6A0 then 36
  else if s < 0x6C0 then 37
  else if s < 0x700 then 38
  else if s < 0x740 then 39
  else if s < 0x780 then 40
  else if s < 0x7C0 then 41
  else 42

/-- Class codes of Table 15.6. -/
def FCls.code : FCls → Nat
  | .corrected => 1
  | .deferred => 2
  | .contained => 3
  | .fatal => 4

/-- The class a code names. -/
def FCls.ofCode : Nat → Option FCls
  | 1 => some .corrected
  | 2 => some .deferred
  | 3 => some .contained
  | 4 => some .fatal
  | _ => none

/-- One class above, Fatal staying Fatal (R450). -/
def FCls.up : FCls → FCls
  | .corrected => .deferred
  | .deferred => .contained
  | .contained => .fatal
  | .fatal => .fatal

/-- The landing parameters (Table 2.9) and the addressing parameters (Table 3.9). -/
def paramLink (n : Nat) : Option PInfo :=
  match n with
  | 0x100 => some { dflt := 10000000, lo := 1000000, hi := 100000000 }
  | 0x101 => some { dflt := 0, lo := 0, hi := 255, eff := .wr }
  | 0x102 => some { dflt := 1, lo := 0, hi := 1, eff := .lr }
  | 0x103 => some { dflt := 64, lo := 8, hi := 64, only := [8, 16, 32, 64], eff := .lr }
  | 0x120 => some { dflt := 256, lo := 64, hi := 1024, eff := .lr }
  | 0x121 => some { dflt := 512, lo := 128, hi := 1024, eff := .lr }
  | 0x122 => some { dflt := 128, lo := 32, hi := 512, eff := .lr }
  | 0x123 => some { dflt := 64, lo := 32, hi := 256, eff := .lr }
  | 0x124 => some { dflt := 32, lo := 16, hi := 128, eff := .lr }
  | 0x125 => some { dflt := 64, lo := 64, hi := 256, eff := .lr }
  | 0x126 => some { dflt := 64, lo := 8, hi := 1024 }
  | 0x140 => some { dflt := 16, lo := 16, hi := 64 }
  | 0x141 => some { dflt := 30000000000, lo := 1000000000, hi := 600000000000 }
  | 0x142 => some { dflt := 1000000, lo := 100000, hi := 100000000 }
  | _ => if 0x150 ≤ n ∧ n ≤ 0x15F then some { dflt := 0, lo := 0, hi := 16383 } else none

/-- Page map, Wharf, coherence, channel and service-class parameters (Tables 4.9, 6.9, 7.6, 9.10, 10.9). -/
def paramSlice (n : Nat) : Option PInfo :=
  match n with
  | 0x160 => some { dflt := 50000, lo := 0, hi := 500000 }
  | 0x161 => some { dflt := 96, lo := 2, hi := 256, opw := true }
  | 0x162 => some { dflt := 64, lo := 2, hi := 255, opw := true }
  | 0x163 => some { dflt := 32, lo := 1, hi := 254, opw := true }
  | 0x164 => some { dflt := 16, lo := 1, hi := 253, opw := true }
  | 0x165 => some { dflt := 4, lo := 1, hi := 64, opw := true }
  | 0x170 => some { dflt := 100000, lo := 60000, hi := 1000000 }
  | 0x171 => some { dflt := 1, lo := 0, hi := 8 }
  | 0x172 => some { dflt := 2, lo := 1, hi := 4, eff := .wr }
  | 0x173 => some { dflt := 2, lo := 0, hi := 8, opw := true }
  | 0x174 => some { dflt := 3, lo := 2, hi := 8, opw := true }
  | 0x175 => some { dflt := 80, lo := 50, hi := 100, opw := true }
  | 0x180 => some { dflt := 250, lo := 0, hi := 4000, step := 10 }
  | 0x181 => some { dflt := 50000000, lo := 1000000, hi := 1000000000 }
  | 0x190 => some { dflt := 1024, lo := 256, hi := 16384 }
  | 0x191 => some { dflt := 2, lo := 1, hi := 4 }
  | 0x192 => some { dflt := 1, lo := 0, hi := 1, eff := .wr }
  | 0x193 => some { dflt := 64, lo := 16, hi := 96 }
  | 0x194 => some { dflt := 16, lo := 0, hi := 80 }
  | 0x195 => some { dflt := 2000, lo := 500, hi := 20000 }
  | 0x196 => some { dflt := 8000000, lo := 1000000, hi := 64000000 }
  | 0x197 => some { dflt := 8, lo := 2, hi := 255 }
  | 0x198 => some { dflt := 86400000000000, lo := 3600000000000, hi := 604800000000000, opw := true }
  | 0x199 => some { dflt := 3200, lo := 3200, hi := 4800, only := [3200, 4000, 4800], eff := .cr }
  | 0x19A => some { dflt := 8800, lo := 3200, hi := 8800, step := 400, eff := .cr }
  | 0x19B => some { dflt := 1, lo := 0, hi := 1, eff := .wr }
  | 0x19C => some { dflt := 256, lo := 1, hi := 4095 }
  | 0x19D => some { dflt := 950, lo := 800, hi := 1050 }
  | 0x1A0 => some { dflt := 1000000, lo := 100000, hi := 100000000 }
  | 0x1B0 => some { dflt := 3, lo := 0, hi := 15 }
  | 0x1B1 => some { dflt := 63, lo := 1, hi := 63, opw := true }
  | 0x1B2 => some { dflt := 1000, lo := 100, hi := 100000 }
  | 0x1E0 => some { dflt := 0xFF, lo := 0, hi := 15, also := some 0xFF, eff := .wr }
  | 0x1E1 => some { dflt := 0, lo := 0, hi := 0xFFFF }
  | 0x1E2 => some { dflt := 0, lo := 0, hi := 1 }
  | _ =>
    if 0x1C0 ≤ n ∧ n ≤ 0x1CF then some { dflt := 2, lo := 0, hi := 2 }
    else if 0x1D0 ≤ n ∧ n ≤ 0x1DF then some { dflt := 0, lo := 0, hi := 15 }
    else none

/-- Identity, start-up, power, Gangway, counter, trust and fault-collection parameters (Table 13.2, Table 18 of the Gangway). -/
def paramBase (n : Nat) : Option PInfo :=
  match n with
  | 0x000 => some { dflt := 0, lo := 0, hi := 1, eff := .fuse }
  | 0x001 => some { dflt := 0xFFFF, lo := 0, hi := 0xFFFF, eff := .fuse }
  | 0x002 => some { dflt := 0xFFFF, lo := 0, hi := 0xFFFF, eff := .fuse }
  | 0x010 => some { dflt := 1, lo := 0, hi := 1, eff := .cr }
  | 0x080 => some { dflt := 0x3F, lo := 0, hi := 0x3F }
  | 0x081 => some { dflt := 0, lo := 0, hi := 15 }
  | 0x082 => some { dflt := 1000, lo := 850, hi := 1050 }
  | 0x083 => some { dflt := 1150, lo := 1100, hi := 1250, eff := .cr }
  | 0x0C0 => some { dflt := 500, lo := 100, hi := 2000 }
  | 0x0C1 => some { dflt := 40000, lo := 5000, hi := 80000 }
  | 0x0C2 => some { dflt := 5000000, lo := 100000, hi := 50000000 }
  | 0x0C3 => some { dflt := 20, lo := 15, hi := 30 }
  | 0x0C4 => some { dflt := 2, lo := 1, hi := 4 }
  | 0x0C5 => some { dflt := 1500, lo := 1000, hi := 1750 }
  | 0x0C6 => some { dflt := 600, lo := 250, hi := 1000 }
  | 0x0C7 => some { dflt := 1, lo := 0, hi := 1 }
  | 0x0C8 => some { dflt := 3, lo := 1, hi := 255 }
  | 0x0C9 => some { dflt := 1000000000, lo := 100000000, hi := 60000000000 }
  | 0x0D0 => some { dflt := 200, lo := 1, hi := 20000 }
  | 0x0D1 => some { dflt := 600, lo := 1, hi := 20000 }
  | 0x0D2 => some { dflt := 1200, lo := 1, hi := 20000 }
  | 0x0D3 => some { dflt := 200000, lo := 50000, hi := 3200000000, step := 50000 }
  | 0x0D4 => some { dflt := 10000000, lo := 50000, hi := 3200000000, step := 50000 }
  | 0x0D5 => some { dflt := 300000000, lo := 50000, hi := 3200000000, step := 50000 }
  | 0x0D6 => some { dflt := 256, lo := 1, hi := 1024 }
  | 0x0D7 => some { dflt := 256, lo := 1, hi := 1024 }
  | 0x0D8 => some { dflt := 256, lo := 1, hi := 1024 }
  | 0x0D9 => some { dflt := 256, lo := 1, hi := 1024 }
  | 0x0DA => some { dflt := 550, lo := 1, hi := 850 }
  | 0x0DB => some { dflt := 0, lo := 0, hi := 1 }
  | 0x0DC => some { dflt := 0, lo := -100, hi := 100 }
  | 0x220 => some { dflt := 1000000, lo := 1000, hi := 4294967295 }
  | 0x221 => some { dflt := 0xFF, lo := 0, hi := 15, also := some 0xFF }
  | 0x240 => some { dflt := 1, lo := 0, hi := 1, eff := .wr }
  | 0x241 => some { dflt := 16, lo := 0, hi := 47 }
  | 0x280 => some { dflt := 1000, lo := 100, hi := 100000 }
  | 0x281 => some { dflt := 20000, lo := 1000, hi := 1000000 }
  | _ =>
    if 0x200 ≤ n ∧ n ≤ 0x20F then some { dflt := 0, lo := 0, hi := 1 }
    else if 0x210 ≤ n ∧ n ≤ 0x21F then some { dflt := 0, lo := 0, hi := 496 }
    else if 0x300 ≤ n ∧ n ≤ 0xAFF then
      (if (sourceInfo (n - 0x300)).isSome then some { dflt := 0, lo := 0, hi := 15 } else none)
    else none

/-- The catalogue: none for a reserved ID (R390, R398). -/
def paramInfo (n : Nat) : Option PInfo :=
  if 0x100 ≤ n ∧ n < 0x160 then paramLink n
  else if 0x160 ≤ n ∧ n < 0x200 then paramSlice n
  else paramBase n

/-- The default of a parameter, 0 for a reserved ID (R390). -/
def paramDefault (n : Nat) : Nat :=
  match paramInfo n with
  | some i => i.dflt
  | none => 0

end Sys2Proof.Machine
end

