-- ==== Sys2Proof/Machine/StateBarge.lean ====
section
/-! DEFINITION. The state of the Barge: 64 channels, their rings, current descriptors and progress. -/
namespace Sys2Proof.Machine

/-- STATE of BRG.STAT (Table 11.11). -/
inductive BSt where
  | disabled | idle | running | preempted | waiting | stopped | halted
  deriving DecidableEq, Repr, Inhabited

/-- Drivers (Table 11.8 OWNER). -/
inductive BOwner where
  | syust | pilot | host | ballast
  deriving DecidableEq, Repr, Inhabited

/-- A descriptor as fetched (Table 11.2). -/
structure Desc where
  /-- OP [4 bits] (11 T11.2; reset: none fetched) -/
  op : Nat
  /-- IRQ, RETIRE, TCOND, DCRC [1 bit each] (11 T11.2; reset: none fetched) -/
  irq : Bool := false
  retire : Bool := false
  tcond : Bool := false
  dcrc : Bool := false
  /-- TAG [16 bits], LEN [32 bits] (11 T11.2; reset: none fetched) -/
  tag : Nat := 0
  len : Nat := 0
  /-- SRC, DST, ARG [64 bits each] (11 T11.2; reset: none fetched) -/
  src : Nat := 0
  dst : Nat := 0
  arg : Nat := 0
  /-- the first 8 bytes as fetched, written back with OWN clear [64 bits] (11 R326; reset: none fetched) -/
  w0 : Nat := 0
  /-- a Reserved field was not zero [1 bit] (11 R327; reset: none fetched) -/
  bad : Bool := false
  deriving DecidableEq, Repr, Inhabited

/-- Progress of the current descriptor. -/
structure BProg where
  /-- the range checks of R335 have passed and the operation has begun [1 bit] (11 R335; reset 0b) -/
  begun : Bool := false
  /-- lines or pages taken so far, in order [natural] (11 R342; reset 0) -/
  pos : Nat := 0
  /-- DONE [32 bits] (11 T11.3; reset 0) -/
  done : Nat := 0
  /-- CODE, DERR, RETRY [8; 8; 4 bits] (11 T11.3; reset 0) -/
  code : Nat := 0
  derr : Nat := 0
  retry : Nat := 0
  /-- FAULT of a byte operation [64 bits] (11 T11.4; reset 0) -/
  fault : Nat := 0
  /-- PSKIP, PREF, PPOIS [16 bits each] (11 T11.4; reset 0) -/
  pskip : Nat := 0
  pref : Nat := 0
  ppois : Nat := 0
  /-- staging buffer of a byte operation: source lines read and not yet written: line number, data, poison [up to 4 KiB] (11 R323, R342; reset empty) -/
  buf : List (Nat × Line × Bool) := []
  /-- output of a dictionary operation, once its input is read [bytes] (11 R351, 05 R164; reset none) -/
  out : Option (List (BitVec 8)) := none
  /-- every write is accepted: the descriptor is complete but for its status [1 bit] (11 R326; reset 0b) -/
  fin : Bool := false
  /-- a beat met a bus error: address of its line (11 R344; reset none) -/
  err : Option Nat := none
  /-- home slice where a page operation holds its place (11 R323; reset none) -/
  place : Option Nat := none
  deriving DecidableEq, Repr, Inhabited

/-- One Barge channel. -/
structure BrgCh where
  /-- CFG PRI [2 bits] (11 T11.8; reset 00b; BG00 to BG15 from p01C0 + cc; BG63 11b) -/
  pri : Nat := 0
  /-- CFG OWNER [2 bits] (11 T11.8; reset 10b BG00 to BG15, 00b BG16 to BG62, 11b BG63) -/
  owner : BOwner := .syust
  /-- CFG CLASS [6 bits] (11 T11.8; reset 3Fh) -/
  cls : Nat := 63
  /-- CFG IRQEN [1 bit] (11 T11.8; reset 0b) -/
  irqen : Bool := false
  /-- CFG RINGLOG2 [4 bits] (11 T11.8; reset 0h) -/
  ringlog2 : Nat := 0
  /-- CFG ENABLE [1 bit] (11 T11.8; reset 0b) -/
  enable : Bool := false
  /-- CFG HOSTOK [1 bit] (11 T11.8; reset 0b) -/
  hostok : Bool := false
  /-- RING BASE, byte address [62 bits] (11 T11.9; reset 0) -/
  base : Nat := 0
  /-- RING SPACE [2 bits] (11 T11.9; reset 00b) -/
  space : Nat := 0
  /-- PTR HEAD, TAIL [17 bits each] (11 T11.10; reset 0_0000h) -/
  head : BitVec 17 := 0#17
  tail : BitVec 17 := 0#17
  /-- STAT STATE [3 bits] (11 T11.11; reset 000b) -/
  st : BSt := .disabled
  /-- STAT STOP [1 bit] (11 T11.11; reset 0b) -/
  stop : Bool := false
  /-- STAT DONEIRQ, HALTIRQ [1 bit each] (11 T11.11; reset 0b) -/
  doneirq : Bool := false
  haltirq : Bool := false
  /-- STAT LASTCODE [8 bits] (11 T11.11; reset 00h) -/
  lastcode : Nat := 0
  /-- STAT RETRIES, DESCS [16 bits each] (11 T11.11; reset 0000h) -/
  retries : Nat := 0
  descs : BitVec 16 := 0#16
  /-- descriptor in progress (11 R326; reset none) -/
  cur : Option Desc := none
  prog : BProg := {}
  /-- the staging buffer failed its self-test: Disabled until the next reset [1 bit] (19 T19.4; reset 0b) -/
  bad : Bool := false
  /-- Pilot slot the channel is assigned to (11 R321, 14 R437; reset none) -/
  slot : Option Nat := none
  deriving DecidableEq, Repr, Inhabited

end Sys2Proof.Machine
end

