-- ==== Sys2Proof/Machine/StateMgmt.lean ====
section
/-! DEFINITION. The state of the management side: Ferryman, mailboxes, parameters, Manifest, Tollhouse, region registers, Pilot modules, counters. -/
namespace Sys2Proof.Machine

/-- STATE of FMN.STATE (Table 12.6). -/
inductive FmnSt where
  | booting | running | restarting | updating | quiescing
  deriving DecidableEq, Repr, Inhabited

/-- CXL return codes the commands use (Table 12.2, R361, R365, R367, R368). -/
inductive RC where
  | success | bgStarted | invalidInput | unsupported | busy | invalidLength | invalidExtents | resources | aborted | rolledBack
  | poisonLimit | retry
  deriving DecidableEq, Repr, Inhabited

/-- Answer to a command (R359). -/
structure Ans where
  /-- return code [16 bits] (12 T12.2; reset: none given) -/
  rc : RC := .success
  /-- DCODE [16 bits] (12 T12.4; reset 0000h) -/
  dcode : Nat := 0
  /-- output payload, the detail record of Table 12.3 included [bytes] (12 R359; reset empty) -/
  out : List Byte := []
  /-- what a standard command's output says, the CXL layout of it not being the spec's [naturals] (12 R366; reset empty) -/
  vals : List Nat := []
  deriving DecidableEq, Repr, Inhabited

/-- What a background command does (Table 12.5 mode B, R365, R367, R369). -/
inductive BgOp where
  /-- Wharf Maintenance: range operation number -/
  | maint (id : Nat)
  /-- Page-Map Audit: channels, free flag -/
  | audit (chans : List Nat) (free : Bool)
  /-- Rekey Extent: record, old and new context, blocks of the extent -/
  | rekey (rno old ctx : Nat) (blocks : List Nat)
  /-- Retrain Channel -/
  | retrain (ch : Nat)
  /-- Scan Media: first page, pages -/
  | scan (page : Nat) (left : Nat)
  | sanitize
  /-- Activate FW: bank, ticket of its verification -/
  | activate (bank ticket : Nat)
  deriving DecidableEq, Repr, Inhabited

/-- One background operation of a path (R361). -/
structure Bg where
  /-- opcode and work left (12 R361; reset: none running) -/
  opcode : Nat
  op : BgOp
  deriving DecidableEq, Repr, Inhabited

/-- A Manifest snapshot of a path (R384). -/
structure Snap where
  /-- GEN [32 bits] (12 R384; reset: none held) -/
  gen : Nat
  /-- device time of the last read [ns] (12 R384; reset: none held) -/
  read : Nat
  /-- part 0 [27,136 bytes] and stream (12 R385; reset: none held) -/
  part0 : List Byte
  stream : List Byte
  deriving DecidableEq, Repr, Inhabited

/-- One command path (R353). -/
structure CPath where
  /-- answer to the path's last command (12 R357; reset empty) -/
  ans : Ans := {}
  /-- background command running (12 R361; reset none) -/
  bg : Option Bg := none
  /-- opcode and return code of the last background command (12 R361; reset none) -/
  last : Option (Nat × RC) := none
  /-- response message limit set, in bytes [17 bits, or none] (12 R366, T12.1; reset none: 65,536; CCI 256, DESIGN CHOICE log 12) -/
  limit : Option Nat := none
  /-- Manifest snapshot held (12 R384; reset none) -/
  snap : Option Snap := none
  deriving DecidableEq, Repr, Inhabited

/-- A request posted to the Tollhouse (R412, R415). -/
structure TlhReq where
  /-- ticket [64 bits] (14 R412; reset: mailbox empty) -/
  ticket : Nat
  /-- function number and arguments (14 T14.2; reset: mailbox empty) -/
  fn : Nat
  args : List Nat
  /-- image facts that a verification finds, message bytes of an SPDM transfer (14 R422, R425; reset: mailbox empty) -/
  img : Img := {}
  deriving DecidableEq, Repr, Inhabited

/-- A ticket (R412). -/
structure Ticket where
  /-- number [64 bits] (14 R412; reset: none issued) -/
  id : Nat
  /-- final status of Table 14.1, none while pending (14 R412; reset: none issued) -/
  status : Option Int := none
  /-- results [64 bits each] (14 T14.2; reset: none issued) -/
  res0 : Nat := 0
  res1 : Nat := 0
  deriving DecidableEq, Repr, Inhabited

/-- Tollhouse states (Table 14.2, 0Dh). -/
inductive TlhSt where
  | booting | running | restarting | recovery | stopped
  deriving DecidableEq, Repr, Inhabited

/-- A measurement-log entry (Table 14.8); INDEX is its position. -/
structure Meas where
  /-- KIND, SLOT [8 bits each] (14 T14.8; reset: log empty) -/
  kind : Nat
  slot : Nat := 0
  /-- SVN [32 bits] (14 T14.8; reset: log empty) -/
  svn : Nat := 0
  /-- DIGEST [384 bits] (14 T14.8; reset: log empty) -/
  digest : BitVec 384 := 0#384
  deriving DecidableEq, Repr, Inhabited

/-- An SPDM session (R425): its transport, a landing number or none for MCTP, and its number. -/
structure Spdm where
  /-- transport [landing, or MCTP] (14 R425; reset: none open) -/
  ld : Option Nat
  /-- session number [natural] (14 R425; reset: none open) -/
  id : Nat
  deriving DecidableEq, Repr, Inhabited

/-- The Tollhouse. -/
structure Tlh where
  /-- state (14 T14.2; reset Booting) -/
  st : TlhSt := .booting
  /-- restarts since cold reset [16 bits] (14 T14.2, 12 T12.14 TLHRST; reset 0) -/
  restarts : Nat := 0
  /-- mailbox request slots, oldest first [up to 16] (14 R415; reset empty) -/
  reqs : List TlhReq := []
  /-- tickets issued, with the next number (14 R412; reset empty; 1, DESIGN CHOICE log 12) -/
  tickets : List Ticket := []
  nextTicket : Nat := 1
  /-- completion interrupts to Syust not yet taken [natural] (14 R412; reset 0) -/
  irq : Nat := 0
  /-- measurement log, oldest first [up to 4,096 entries of 64 B] (14 R424; reset empty) -/
  log : List Meas := []
  /-- SPDM sessions open [2 per landing, 4 over MCTP], with the next number (14 R425; reset none; 0) -/
  spdm : List Spdm := []
  nextSpdm : Nat := 0
  /-- security-version floors of module IDs [up to 64] (14 R433; reset empty) -/
  floors : List (BitVec 64 × Nat) := []
  /-- wrapped base keys in the carve-out: Sealed base key, or Open data and tweak keys, by context (08 R242; reset empty) -/
  wrapped : Tbl (Option (BitVec 256 × BitVec 256)) := []
  /-- firmware version running, with its bank 0 A or 1 B (12 T12.14 TLHFW, 19 R531; reset 0) -/
  fw : Img := {}
  /-- granted debug unlock: expiry in device time [64 bits, or none] (14 R432; reset none) -/
  unlock : Option Nat := none
  deriving DecidableEq, Repr, Inhabited

/-- The Quay and Toll worlds of the Ferryman. -/
structure Fmn where
  /-- FMN.STATE STATE [3 bits] (12 T12.6; reset 000b) -/
  st : FmnSt := .booting
  /-- FMN.STATE RESTARTS [16 bits] (12 T12.6; reset 0000h) -/
  restarts : Nat := 0
  /-- monitor version [64 bits] (14 T14.2; reset 0, no image running) -/
  mon : Img := {}
  /-- Syust image running (12 T12.14; reset 0, no image running) -/
  sy : Img := {}
  /-- time of the last Ferryman or Tollhouse restart or memory-active [ns] (19 R532; reset 0) -/
  since : Nat := 0
  deriving DecidableEq, Repr, Inhabited

/-- A Pilot slot (R433 to R439). -/
structure Pilot where
  /-- package installed in the Pilot area of the flash (14 R434; reset none, DESIGN CHOICE log 13) -/
  inst : Option Pkg := none
  /-- package whose module runs (14 R434; reset none) -/
  run : Option Pkg := none
  /-- a newly installed package waits for the callback to return [1 bit] (14 R434; reset 0b) -/
  newPkg : Bool := false
  /-- stopped until a new package or a reset [1 bit] (14 R439; reset 0b) -/
  held : Bool := false
  /-- times of the sandbox faults of the last hour [ns] (14 R439; reset empty) -/
  faults : List Nat := []
  /-- the module has run past its init callback; it was told that its scratch survived [1 bit each] (14 R433, R434; reset 0b) -/
  past : Bool := false
  survived : Bool := false
  /-- scratch region: internal address and bytes [32 bits each] (14 R435; reset 0) -/
  scrBase : Nat := 0
  scrLen : Nat := 0
  /-- API calls, plt_cmd calls in the present second, with its scheduler ticks so far [naturals] (14 T14.15; reset 0) -/
  calls : Nat := 0
  cmds : Nat := 0
  secTicks : Nat := 0
  /-- Ferryman time used in the present 100 ms, with its scheduler ticks so far [ns; natural] (14 T14.15; reset 0) -/
  used : Nat := 0
  winTicks : Nat := 0
  /-- time in the present callback, none between callbacks [ns] (14 T14.15; reset none) -/
  cb : Option Nat := none
  /-- pending events, oldest first [up to 1,024], and the count dropped (14 T14.15; reset empty; 0) -/
  events : List (Nat × Nat) := []
  dropped : Nat := 0
  /-- time left of the plt_event_wait in progress [ns] (14 R437; reset none) -/
  wait : Option Nat := none
  /-- messages written with plt_log, oldest first: level, bytes (14 R437; reset empty) -/
  log : List (Nat × List Byte) := []
  /-- status and value of the last API call (14 R437; reset 0) -/
  ret : Int := 0
  val : List Nat := []
  deriving DecidableEq, Repr, Inhabited

/-- Counter page values of one landing (Table 13.8). -/
structure CPage where
  /-- SEQ [64 bits] (13 T13.8; reset 0) -/
  seq : Nat := 0
  /-- TIME [64 bits] (13 T13.8; reset 0) -/
  time : Nat := 0
  /-- WINDOW [64 bits] (13 T13.8; reset 0) -/
  window : Nat := 0
  /-- BASE [32 bits] (13 T13.8; reset 0) -/
  base : Nat := 0
  /-- RDBYTES, WRBYTES, RDTOTAL, WRTOTAL [64 bits each] (13 T13.8; reset 0) -/
  rd : Nat := 0
  wr : Nat := 0
  rdT : Nat := 0
  wrT : Nat := 0
  deriving DecidableEq, Repr, Inhabited

/-- A byte meter: bytes so far in the present window, and in the last one (R473, Table 16.5). -/
structure Meter where
  /-- bytes read and written in the present window [64 bits each] (16 R473; reset 0) -/
  rd : Nat := 0
  wr : Nat := 0
  /-- RDBYTES, WRBYTES of the last window [64 bits each] (16 T16.5; reset 0) -/
  rdL : Nat := 0
  wrL : Nat := 0
  deriving DecidableEq, Repr, Inhabited

/-- An accumulator CTR.ACC (Table 16.4). -/
structure Acc where
  /-- LAST [32 bits] (16 T16.4; reset 0) -/
  last : BitVec 32 := 0#32
  /-- WRAP [1 bit] (16 T16.4; reset 0b) -/
  wrap : Bool := false
  /-- pair value at the start of the present window [64 bits] (16 R471; reset 0) -/
  start : Nat := 0
  deriving DecidableEq, Repr, Inhabited

/-- QOS.RCPT (Table 16.6). -/
structure Rcpt where
  /-- MINQ, MAXQ [11 bits each] (16 T16.6; reset 7FFh, 000h) -/
  minq : Nat := 0x7FF
  maxq : Nat := 0
  /-- SHORTQ, OVERQ [1 bit each] (16 T16.6; reset 0b) -/
  shortq : Bool := false
  overq : Bool := false
  /-- MINW, MAXW [11 bits each] (16 T16.6; reset 7FFh, 000h) -/
  minw : Nat := 0x7FF
  maxw : Nat := 0
  /-- SHORTW, OVERW [1 bit each] (16 T16.6; reset 0b) -/
  shortw : Bool := false
  overw : Bool := false
  /-- MINI [11 bits] (16 T16.6; reset 7FFh) -/
  mini : Nat := 0x7FF
  /-- SHORTI, OVERI [1 bit each] (16 T16.6; reset 0b) -/
  shorti : Bool := false
  overi : Bool := false
  deriving DecidableEq, Repr, Inhabited

/-- Counter windows, PTM and sensors. -/
structure Tele where
  /-- accumulators that differ from their reset value, by pair [512] (16 T16.4; reset 0) -/
  acc : Tbl Acc := []
  /-- CTREPOCH [32 bits] (16 R472; reset 1) -/
  epoch : Nat := 1
  /-- WINLEN in effect [32 bits] (16 R471; reset 1,000,000) -/
  winlen : Nat := 1000000
  /-- landing meters, channel meters CTR.CHBW (16 R473; reset 0) -/
  ldm : Tbl Meter := []
  chm : Tbl Meter := []
  /-- counter pages, by landing (13 T13.8; reset 0) -/
  pages : Tbl CPage := []
  /-- class receipt meters, by class [64] (16 T16.6; reset Table 16.6) -/
  rcpt : Tbl Rcpt := []
  /-- TEL.PTMSTAT SYNC, STEPPED [1 bit each] (16 T16.8; reset 0b) -/
  sync : Bool := false
  stepped : Bool := false
  /-- TEL.PTMSTAT SRC [8 bits] (16 T16.8; reset FFh) -/
  src : Nat := 0xFF
  /-- TEL.PTMSTAT OFFSET [32 bits, signed] (16 T16.8; reset 0) -/
  offset : Int := 0
  /-- time of the last successful PTM dialog [ns] (16 R478; reset 0) -/
  dialog : Nat := 0
  /-- offset still to be removed by slewing, ns; ticks since the last nanosecond was slewed [signed; natural] (16 R478; reset 0) -/
  slew : Int := 0
  slewAge : Nat := 0
  /-- TEL.SENS VALUE, VALID, by sensor [24 of 12 bits; 1 bit] (16 T16.10; reset 000h, 0b) -/
  sens : Tbl (Int × Bool) := []
  deriving DecidableEq, Repr, Inhabited

/-- A device power entry in preparation (R485). -/
structure Entry where
  /-- requested state 2 Moored, 3 Laid-up; path that asked [natural each] (17 R485; reset: none in preparation) -/
  req : Nat
  path : Nat
  /-- range operation of its Wharf clean [natural] (17 R485; reset: none in preparation) -/
  op : Nat := 0
  /-- the device was Moored when it was asked [1 bit] (17 R485; reset: none in preparation) -/
  moored : Bool := false
  deriving DecidableEq, Repr, Inhabited

/-- The command set's own state. -/
structure Mgmt where
  /-- command paths, by number: 0 to 15 primary, 16 to 31 secondary, 32 I3C, 33 to 48 VDM, 49 to 56 Pilot slots (12 T12.1; reset idle) -/
  paths : Tbl CPath := []
  /-- GEN of the last Manifest snapshot [32 bits] (12 R384; reset 0) -/
  gen : Nat := 0
  /-- STATESEQ [32 bits] (12 T12.14; reset 0) -/
  stateseq : Nat := 0
  /-- VDM messages discarded, count [natural] (12 T12.1; reset 0) -/
  vdmDrop : Nat := 0
  /-- Pool-owner landing p01E0 in effect (12 R354; reset FFh) -/
  pold : Nat := 0xFF
  /-- pending values of LR, WR and CR parameters [64 bits each] (13 R392; reset none) -/
  pend : Tbl (Option Nat) := []
  /-- landings that have not reset since a pending LR value was written, by parameter (13 R392; reset none) -/
  lrWait : Tbl (List Nat) := []
  /-- parameter store in the flash: values written [64 bits each] (13 R394; reset empty, DESIGN CHOICE log 13) -/
  store : Tbl (Option Nat) := []
  /-- both store copies failed at the last cold reset: the event is due [1 bit] (13 R394; reset 0b) -/
  storeBad : Bool := false
  /-- settings of the maintenance features sPPR, hPPR and memory sparing [bytes each] (12 R366; reset empty, DESIGN CHOICE log 4) -/
  feats : Tbl (List Byte) := []
  /-- alert configuration [bytes] (12 R366; reset empty, DESIGN CHOICE log 4) -/
  alert : List Byte := []
  /-- Scan Media results by path: DPA, length (12 R367; reset empty) -/
  scans : Tbl (List (Nat × Nat)) := []
  /-- event of an earlier start or bank change to send at memory-active (19 R531; reset none) -/
  bankEvt : Option Nat := none
  /-- power entry in preparation (17 R485; reset none) -/
  entry : Option Entry := none
  /-- range operation that empties the Wharf for Laid-up or a warm reset (17 R486, 19 R526; reset none) -/
  emptying : Option Nat := none
  /-- Warm Device Reset accepted at [ns] (19 R526; reset none) -/
  warm : Option Nat := none
  /-- next device-wide range operation number [natural] (06 R202; reset 0) -/
  nextOp : Nat := 0
  /-- a scratch-way conversion runs: new m (06 R192; reset none) -/
  convTo : Option Nat := none
  deriving DecidableEq, Repr, Inhabited

end Sys2Proof.Machine
end

