-- ==== Sys2Proof/Machine/StateMoor.lean ====
section
/-! DEFINITION. The state of the Mooring island, the Gangway, power states, start-up and the flash, and the fuses. -/
namespace Sys2Proof.Machine

/-- Gangway states (Table 18.1). -/
inductive GSt where
  | standby | ramping | qualifying | on | limiting | cooling | latched | shorted | inputFault
  deriving DecidableEq, Repr, Inhabited

/-- The Gangway. -/
structure Gwy where
  /-- STATE [8 bits] (18 T18.1; reset 00h) -/
  st : GSt := .standby
  /-- RETRIES [8 bits] (18 R504; reset p00C8) -/
  retries : Nat := 3
  /-- LASTFAULT [8 bits] (18 T18.3; reset 00h) -/
  lastfault : Nat := 0
  /-- PG, FLT_N asserted, DISCONNECT_N asserted [1 bit each] (18 R507, R504, R503; reset released) -/
  pg : Bool := false
  flt : Bool := false
  disc : Bool := false
  /-- PG-fall threshold, mV (18 R507; reset 0, DESIGN CHOICE log 4) -/
  pgTh : Nat := 0
  /-- presence qualified [1 bit] (18 R505; reset 0b) -/
  present : Bool := false
  /-- VIN within range [1 bit] (18 R497; reset 0b, DESIGN CHOICE log 4) -/
  vinOk : Bool := false
  /-- breaker timer: time at the limit, ns (18 R499; reset 0) -/
  brk : Nat := 0
  /-- the current is at the limit [1 bit] (18 R499; reset 0b) -/
  atLimit : Bool := false
  /-- the retry interval has passed since the last trip [1 bit] (18 R504; reset 1b: no trip) -/
  interval : Bool := true
  /-- FETs in parallel in use, p00C4 at the last entry to Ramping from Standby (18 R506; reset 2) -/
  n : Nat := 2
  /-- thermal poles th[k][j] above the reference, keyed 3k + j, 0.1 °C (18 R501; reset 0) -/
  th : Tbl Rat := []
  /-- junction estimates tj[k], 0.1 °C, none before the first update (18 R501; reset none: tref) -/
  tj : Tbl (Option Rat) := []
  /-- VIN, VOUT, mV; IIN, mA: last measured (12 T12.12; reset 0) -/
  vin : Nat := 0
  vout : Nat := 0
  iin : Nat := 0
  deriving DecidableEq, Repr, Inhabited

/-- A retention fault record of the Mooring island (R464). -/
structure Reten where
  /-- source and details (15 R464; reset empty) -/
  src : Nat
  det0 : Nat := 0
  det1 : Nat := 0
  /-- device time [ns] (15 R464; reset empty) -/
  time : Nat := 0
  /-- ARRAY of its path: the FET of a thermal trip (18 R508; reset empty) -/
  array : Nat := 0
  /-- ECHO [32 bits] (15 R464; reset empty) -/
  echo : Nat := 0
  deriving DecidableEq, Repr, Inhabited

/-- A seal save in the Tollhouse's carve-out (R255). -/
structure SealSave where
  /-- save count it was written under [64 bits] (08 R255; reset: none written) -/
  count : Nat
  /-- root entries and HW of each slice (08 R255; reset: none written) -/
  roots : List (Nat × Tbl Root)
  hws : List (Nat × BitVec 64)
  deriving DecidableEq, Repr, Inhabited

/-- Kinds of start (Table 19.1, Table 19.9). -/
inductive Start where
  | auxCold | pgCold | tripCold | escCold | warm | laidUp
  deriving DecidableEq, Repr, Inhabited

/-- Device phases between Off and Underway (Tables 17.1, 19.2). -/
inductive Phase where
  /-- 3.3 V auxiliary absent. -/
  | off
  /-- auxiliary present, core die unpowered or held in reset. -/
  | aux
  /-- core die running, Tollhouse reset released, trust steps not done. -/
  | trust
  /-- Ferryman released. -/
  | starting
  /-- memory-active has been reported. -/
  | active
  /-- Laid-up. -/
  | laidUp
  /-- manufacturing test mode. -/
  | test
  deriving DecidableEq, Repr, Inhabited

/-- Start-up and what it waits for. -/
structure Boot where
  /-- phase of the device (19 T19.2; reset: auxiliary power just applied) -/
  phase : Phase := .aux
  /-- kind of the present start (19 T19.1; reset cold) -/
  kind : Start := .auxCold
  /-- T0, device time [ns] (19 R512; reset 0) -/
  t0 : Nat := 0
  /-- PG has fallen since the last start, so the next is cold [1 bit] (19 R511; reset 0b) -/
  pgFell : Bool := false
  /-- Syust has released the landings [1 bit] (19 R515; reset 0b) -/
  released : Bool := false
  /-- channels whose bring-up has ended, trained or fenced [list] (19 R518; reset empty) -/
  chDone : List Nat := []
  /-- SRAM self-test, lane self-test complete [1 bit each] (19 R523, R524; reset 0b) -/
  sramDone : Bool := false
  laneDone : Bool := false
  /-- running bank, 0 A or 1 B; it was tried as the pending bank [1 bit each] (19 R531, 12 T12.14; reset 0) -/
  bank : Nat := 0
  trial : Bool := false
  /-- reset markers not yet written: cause, argument, time [list] (19 R533; reset 01h queued) -/
  marks : List (Nat × Nat × Nat) := [(1, 0, 0)]
  /-- Memory_Active_Timeout code [3 bits] (19 R516; reset 000b, DESIGN CHOICE log 4) -/
  timeout : Nat := 0
  /-- the core rails missed their range 100 ms after PG; a rail was lost after the release, so the next start is cold [1 bit each] (19 R513; reset 0b) -/
  railFail : Bool := false
  railLost : Bool := false
  /-- the anti-rollback commit of this hour has been made [1 bit] (19 R532; reset 0b) -/
  arbDone : Bool := false
  /-- TESTEN and SPIMODE as sampled [1; 2 bits] (20 R546; reset 0) -/
  testen : Bool := false
  spimode : Nat := 0
  deriving DecidableEq, Repr, Inhabited

/-- A boot directory copy (Table 19.8). -/
structure BootDir where
  /-- the copy passes CHECK [1 bit] (19 R530; reset 0b, DESIGN CHOICE log 13) -/
  ok : Bool := false
  /-- ACTIVE [8 bits] (19 T19.8; reset 00h, DESIGN CHOICE log 13) -/
  active : Nat := 0
  /-- PEND [8 bits] (19 T19.8; reset FFh, DESIGN CHOICE log 13) -/
  pend : Nat := 0xFF
  /-- TRIES [8 bits] (19 T19.8; reset 0, DESIGN CHOICE log 13) -/
  tries : Nat := 0
  /-- DSEQ [32 bits] (19 T19.8; reset 0, DESIGN CHOICE log 13) -/
  dseq : Nat := 0
  deriving DecidableEq, Repr, Inhabited

/-- A training-cache record (R519). -/
structure TrainRec where
  /-- CRC passes in one of the copies [1 bit] (19 R519; reset 0b, DESIGN CHOICE log 13) -/
  ok : Bool := false
  /-- serial numbers, p019A, p0199 recorded (19 R519; reset empty, DESIGN CHOICE log 13) -/
  serial : List Nat := []
  maxA : Nat := 0
  setB : Nat := 0
  /-- speeds of the two sets, MT/s (19 R519; reset 0, DESIGN CHOICE log 13) -/
  spA : Nat := 0
  spB : Nat := 0
  deriving DecidableEq, Repr, Inhabited

/-- The SPI flash beside the persistent log and the parameter store (Table 19.7). -/
structure Flash where
  /-- boot directory copies (19 R529; reset unprogrammed, DESIGN CHOICE log 13) -/
  dir0 : BootDir := {}
  dir1 : BootDir := {}
  /-- banks A and B (19 T19.7; reset empty, DESIGN CHOICE log 13) -/
  bankA : Bank := {}
  bankB : Bank := {}
  /-- bytes of the flash that are not FFh [128 MiB] (19 R529, R543; reset FFh, DESIGN CHOICE log 13) -/
  bytes : Tbl (BitVec 8) := []
  /-- repair list: channel, bank, row [16 × 256 rows] (19 T19.7, 09 R298; reset empty, DESIGN CHOICE log 13) -/
  repair : List (Nat × RowAddr) := []
  /-- rows queued for hPPR at the next cold start: channel, bank, row (09 R299; reset empty, DESIGN CHOICE log 13) -/
  hppr : List (Nat × RowAddr) := []
  /-- training cache, by channel (19 R519; reset unprogrammed, DESIGN CHOICE log 13) -/
  train : Tbl TrainRec := []
  deriving DecidableEq, Repr, Inhabited

/-- States of PWR.STATE.DEV (Table 17.8), Laid-up itself being a phase. -/
inductive PwrSt where
  | underway | enterMoored | moored | leaveMoored | enterLaidUp | leaveLaidUp
  deriving DecidableEq, Repr, Inhabited

/-- The power manager. -/
structure Pwr where
  /-- PWR.STATE DEV [3 bits] (17 T17.8; reset 000b) -/
  st : PwrSt := .underway
  /-- PWR.REFSTAT LASTCODE, LASTINST, LASTREASON [8 bits each] (17 T17.9; reset 00h) -/
  code : Nat := 0
  inst : Nat := 0
  reason : Nat := 0
  /-- PWR.REFSTAT LASTABORT [1 bit], LASTREQ [3 bits] (17 T17.9; reset 0) -/
  abort : Bool := false
  req : Nat := 0
  /-- PWR.REFSTAT TOTAL [32 bits] (17 T17.9; reset 0) -/
  total : Nat := 0
  /-- PWR.REFCNT, by refuser code 1 to 9 [32 bits each] (17 T17.10; reset 0) -/
  refcnt : Tbl Nat := []
  /-- PWR.WAKE CAUSE [6 bits], LANDING [4 bits] (17 T17.11; reset 0) -/
  wake : BitVec 6 := 0#6
  wakeLd : Nat := 0
  /-- PWR.THROT JACT [1 bit] (17 T17.12; reset 0b) -/
  jact : Bool := false
  /-- junction throttle step of every channel [0 to 7] (17 R492; reset 0) -/
  jstep : Nat := 0
  /-- THERMTRIP_N asserted [1 bit] (17 R493; reset 0b) -/
  trip : Bool := false
  /-- PWR.REQ TARGET [6 bits], ACTION [2 bits], RESULT [3 bits] (14 T14.12; reset 0) -/
  target : Nat := 0
  action : Nat := 0
  result : Nat := 0
  /-- PWR.SECHOLD HOLD bits set beside the fused set [38 bits] (14 T14.13; reset 0) -/
  hold : BitVec 38 := 0#38
  /-- level-4 slices whose clock is stopped, whose power is removed [lists] (14 R429; reset empty) -/
  clkOff : List Nat := []
  pwrOff : List Nat := []
  deriving DecidableEq, Repr, Inhabited

/-- The Mooring island and the pins. -/
structure Moor where
  /-- retention fault records, oldest first [16] (15 R464; reset empty) -/
  ret : List Reten := []
  /-- seal save count [64 bits] (08 R255; reset 0) -/
  saveCount : Nat := 0
  /-- I3C target's dynamic address [7 bits, or none] (20 R541; reset none) -/
  i3c : Option Nat := none
  /-- reference clock present, by landing pair [8 of 1 bit] (20 R540; reset absent, DESIGN CHOICE log 4) -/
  clk : Tbl Bool := []
  /-- pairs fenced by a lost reference clock [list] (20 R540; reset empty) -/
  clkLost : List Nat := []
  /-- mooring link up [1 bit] (15 R464; reset 0b) -/
  linkUp : Bool := false
  deriving DecidableEq, Repr, Inhabited

/-- The fuses of both dies: they can only be blown. -/
structure Otp where
  /-- fuse map TLH.FUSEMAP [2,048 bits] (14 T14.6; reset: a shipped CQ8160-F, DESIGN CHOICE log 5) -/
  map : BitVec 2048 := 0x000000000000000F0000FFFFFFFF0000#2048
  /-- board fuse bank GWY.BFUSE [320 bits] (18 T18.5; reset unprogrammed, DESIGN CHOICE log 5) -/
  board : BitVec 320 := 0#320
  deriving DecidableEq, Repr, Inhabited

end Sys2Proof.Machine
end

