-- ==== Sys2Proof/Machine/State.lean ====
section
/-! DEFINITION. The whole state of the block, the faults and refusals, and the state after reset. -/
namespace Sys2Proof.Machine

/-- Why the block stops with a fault. -/
inductive Fault where
  /-- a command that names a landing, slice or channel the ordering code fuses off (R3): the unit is absent and the spec gives no effect. Raised by the commands of that unit. Safe. -/
  | absentUnit
  deriving DecidableEq, Repr, Inhabited

/-- Why the block refuses a command. -/
inductive Refusal where
  /-- the command has no meaning yet. Raised by an arm of exec. Safe. -/
  | notModelled (mnemonic : String)
  deriving DecidableEq, Repr

/-- Everything a command can change but the fuses and the queue. -/
structure Dev where
  /-- sensed fuses: CQ8160-H [1 bit] (00 R2, R3, 13 p0000; reset 0b, CQ8160-F, DESIGN CHOICE log 5) -/
  codeH : Bool := false
  /-- sensed fuses SEAL_EN, SEAL_SH [1 bit each] (08 R240; reset 0b) -/
  sealEn : Bool := false
  sealSh : Bool := false
  /-- landings [16] (00 R2; reset Table 2.7) -/
  lnd : Tbl Landing := []
  /-- memory slices [16] (00 R2; reset empty) -/
  slc : Tbl Slice := []
  /-- DRAM channels [16] (00 R2; reset Absent) -/
  chn : Tbl Chan := []
  pm : PageMap := {}
  ext : Extents := {}
  /-- DRAM of every channel, byte address = channel × 2^44 + channel byte offset [bytes] (09 R277; reset nothing listed) -/
  mem : List Host.Cell := []
  /-- contexts [16,384] (08 R236; reset Disabled) -/
  ctx : Tbl CtxRec := []
  /-- boot nonce in the Mooring island's retention registers [256 bits] (08 R241; reset 0, DESIGN CHOICE log 4) -/
  nonce : BitVec 256 := 0#256
  /-- event logs and poison list of each landing's host (12 R366, R367; reset empty) -/
  logs : Tbl Logs := []
  /-- event logs of the Pool owner (12 R366; reset empty) -/
  pool : Logs := {}
  lko : Lko := {}
  /-- WHF.PINLOSS COUNT [31 bits] (06 T6.4; reset 0) -/
  pinLoss : Nat := 0
  /-- persistent log in SPI flash (15 R463; reset empty) -/
  plog : PLogs := {}
  /-- FATAL_N asserted [1 bit] (15 R453, 20 R548; reset 0b) -/
  fatalN : Bool := false
  /-- fences ordered in the present step, the model's own field (15 R456; empty between steps) -/
  fenceQ : List FenceJob := []
  /-- fuse bits to blow in the present step, the model's own field [2,048 bits] (14 R421; zero between steps) -/
  blow : BitVec 2048 := 0#2048
  /-- bytes the last debug read or scratch read returned, the model's own field (08 R270, 06 R189; reset empty) -/
  dbgOut : List Byte := []
  /-- parameter values in effect that differ from the catalogue's defaults [2,816 of 64 bits] (13 R388; reset: the defaults) -/
  prm : Tbl (Option Nat) := []
  qos : Qos := {}
  /-- hardware counters CTR, by number [1,024 of 32 bits] (16 R467; reset 0) -/
  ctr : Tbl (BitVec 32) := []
  /-- selection registers CTR.SEL written before memory-active, by counter number [1,024 of 32 bits] (16 T16.1; reset 0) -/
  sel : Tbl Sel := []
  /-- the standard layout of Table 16.3 is programmed [1 bit] (16 R470; reset 0b) -/
  std : Bool := false
  /-- device time, ns [64 bits] (16 R472; reset 0) -/
  time : Nat := 0
  /-- draws of free values so far, the model's own field [natural] (reset 0, DESIGN CHOICE log 2) -/
  draws : Nat := 0
  /-- memory-active has been reported since the last reset [1 bit] (19 R525; reset 0b) -/
  active : Bool := false
  /-- the Ferryman is unavailable [1 bit] (01 R38; reset 1b: Syust has not started) -/
  fmnBusy : Bool := true
  /-- the Tollhouse is restarting or not running [1 bit] (02 R76, 14 R427; reset 1b) -/
  tlhBusy : Bool := true
  /-- fuse map as the ROM sensed it, ROOT read as zero [2,048 bits] (14 R421; reset 0, not sensed yet) -/
  fz : BitVec 2048 := 0#2048
  /-- Barge channels that differ from their reset state [64] (11 R321; reset Tables 11.8 to 11.11) -/
  brg : Tbl (Option BrgCh) := []
  fmn : Fmn := {}
  tlh : Tlh := {}
  /-- Pilot slots [8] (14 R433; reset empty) -/
  plt : Tbl Pilot := []
  mg : Mgmt := {}
  tele : Tele := {}
  gwy : Gwy := {}
  boot : Boot := {}
  flash : Flash := {}
  pwr : Pwr := {}
  moor : Moor := {}
  /-- region registers FMN.RGNS, FMN.RGNC, TLH.RGNC, WHF.RGN, TLH.RGN, keyed 16 × memory + k, memories in the order of Table 14.4 [80 of 128 bits] (14 T14.3; reset 0) -/
  rgn : Tbl (BitVec 128) := []
  /-- Ferryman SRAM bytes, the call page among them [2 MiB] (14 R411, R418; reset 0, DESIGN CHOICE log 4) -/
  sram : Tbl (BitVec 8) := []
  /-- seal save in the carve-out (08 R255; reset none) -/
  save : Option SealSave := none
  deriving DecidableEq, Repr, Inhabited

/-- The machine. -/
structure State where
  dev : Dev := {}
  otp : Otp := {}
  /-- commands that wait, first in first out [list] (the model's own queue; reset empty) -/
  pending : List Instr := []
  deriving DecidableEq, Repr

/-- The machine right after reset. -/
def State.reset : State := {}

end Sys2Proof.Machine
end

