-- ==== Sys2Proof/Machine/Base.lean ====
section
/-! DEFINITION. Access to the parts of the device, its enabled units, parameters, counters, event logs and poison lists. -/
namespace Sys2Proof.Machine

/-- Landing `n`. -/
def Dev.ld (d : Dev) (n : Nat) : Landing := tget {} d.lnd n
/-- Change landing `n`. -/
def Dev.modLd (d : Dev) (n : Nat) (f : Landing → Landing) : Dev := { d with lnd := tmod {} d.lnd n f }
/-- Memory slice `n`. -/
def Dev.ms (d : Dev) (n : Nat) : Slice := tget {} d.slc n
/-- Change memory slice `n`. -/
def Dev.modMs (d : Dev) (n : Nat) (f : Slice → Slice) : Dev := { d with slc := tmod {} d.slc n f }
/-- Channel `n`. -/
def Dev.ch (d : Dev) (n : Nat) : Chan := tget {} d.chn n
/-- Change channel `n`. -/
def Dev.modCh (d : Dev) (n : Nat) (f : Chan → Chan) : Dev := { d with chn := tmod {} d.chn n f }

/-- Reset state of Barge channel `n` (Table 11.8). -/
def brgReset (n : Nat) : BrgCh :=
  if n < 16 then { pri := 2, owner := .host } else if n = 63 then { pri := 3, owner := .ballast } else {}

/-- Barge channel `n`. -/
def Dev.bg (d : Dev) (n : Nat) : BrgCh := (tget none d.brg n).getD (brgReset n)

/-- Change Barge channel `n`. -/
def Dev.modBg (d : Dev) (n : Nat) (f : BrgCh → BrgCh) : Dev := { d with brg := tput none d.brg n (some (f (d.bg n))) }

/-- The value in effect of parameter `n` (R388). -/
def Dev.p (d : Dev) (n : Nat) : Nat :=
  match tget none d.prm n with
  | some v => v
  | none => paramDefault n

/-- Put a parameter value in effect. -/
def Dev.setP (d : Dev) (n v : Nat) : Dev := { d with prm := tput none d.prm n (if v = paramDefault n then none else some v) }

/-- Unit `n` (landing, slice, channel) is not fused off (R2, R3): on the CQ8160-H the two lowest of each quadrant. -/
def Dev.on (d : Dev) (n : Nat) : Bool := decide (n < 16) && (!d.codeH || decide (n % 4 < 2))

/-- Enabled unit numbers, rising. -/
def Dev.units (d : Dev) : List Nat := (List.range 16).filter d.on

/-- Quadrant of a landing, slice or channel (R17). -/
def quadOf (n : Nat) : Nat := n / 4

/-- The partner of slot, slice or channel `n` (R110). -/
def partner (n : Nat) : Nat := (n + 8) % 16

/-- Number of a free value, and the device with that number used up (log 2). -/
def Dev.draw (d : Dev) : Nat × Dev := (d.draws, { d with draws := d.draws + 1 })

/-- The fold of DPA[44:12] to four bits (R24). -/
def fold (page : Nat) : Nat :=
  let x := (List.range 8).foldl (fun s k => s ^^^ bits page (4 * k) 4) 0
  x ^^^ bits page 32 1

/-- Home slice under Spread homing (Table 1.4). -/
def Dev.spread (d : Dev) (page : Nat) : Nat :=
  let s := fold page
  if d.codeH then
    let k := bits s 0 3 ^^^ bits s 3 1
    4 * (k / 2) + k % 2
  else s

/-- Home slice under Near homing of a page for a landing (Table 1.4). -/
def Dev.nearHome (d : Dev) (ld page : Nat) : Nat :=
  let s := fold page
  let q := quadOf ld
  if d.codeH then 4 * q + (bits s 0 1 ^^^ bits s 1 1 ^^^ bits s 2 1 ^^^ bits s 3 1)
  else 4 * q + (bits s 0 2 ^^^ bits s 2 2)

/-- Home slice of a page under a record's homing mode (R24, R95). -/
def Dev.home (d : Dev) (near : Bool) (ld page : Nat) : Nat :=
  if near then d.nearHome ld page else d.spread page

/-- Intermediate quadrant of a rerouted pair of islands across a fenced link (R22): lower-numbered when nn + mm is even,
the other one when odd; the remaining one when its own link to either end is fenced too. -/
def Dev.via (d : Dev) (a b : Nat) : Option Nat :=
  let qa := quadOf a
  let qb := quadOf b
  let cut := fun x y => decide ((min x y, max x y) ∈ d.lko.links)
  if qa = qb || !cut qa qb then none
  else
    let mids := (List.range 4).filter fun q => q ≠ qa && q ≠ qb
    let order := if (a + b) % 2 = 0 then mids else mids.reverse
    order.find? fun q => !cut qa q && !cut q qb

/-- One traversal between two islands of the quadrants, ns (Table 1.3, R22). -/
def Dev.hop (d : Dev) (a b : Nat) : Nat :=
  if quadOf a = quadOf b then 3 else if (d.via a b).isSome then 14 else 7

/-- Memory-channel enabled, trained and not fenced (R124). -/
def Chan.usable (c : Chan) : Bool :=
  match c.st with
  | .active | .paused | .switching | .maintenance => true
  | _ => false

/-- Channel `n` can be reached for entries and data. -/
def Dev.chOk (d : Dev) (n : Nat) : Bool := d.on n && (d.ch n).usable

/-- The 64-bit value of counter pair `k` (R468). -/
def pairValue (t : Tbl (BitVec 32)) (k : Nat) : Nat :=
  (tget 0#32 t (2 * k)).toNat + 2 ^ 32 * (tget 0#32 t (2 * k + 1)).toNat

/-- Add to counter `k` alone (R468). -/
def addCtr (t : Tbl (BitVec 32)) (k n : Nat) : Tbl (BitVec 32) :=
  tmod 0#32 t k (· + BitVec.ofNat 32 n)

/-- Add to chained pair `k`: the high half counts the carries out of the low half (R468). -/
def addPair (t : Tbl (BitVec 32)) (k n : Nat) : Tbl (BitVec 32) :=
  let v := pairValue t k + n
  tput 0#32 (tput 0#32 t (2 * k) (BitVec.ofNat 32 v)) (2 * k + 1) (BitVec.ofNat 32 (v / 2 ^ 32))

/-- Pairs of the standard layout that count an event (Table 16.3): code, instance, landing and class that caused it. -/
def stdPairs (code inst : Nat) (ld cls : Option Nat) : List Nat :=
  let own :=
    if 1 ≤ code && code ≤ 14 then [16 * inst + code - 1]
    else if 0x101 ≤ code && code ≤ 0x102 then
      (match ld with
       | some l => [16 * l + 14 + (code - 0x101)]
       | none => [])
    else if 0x401 ≤ code && code ≤ 0x408 then [256 + 8 * inst + (code - 0x401)]
    else []
  let byCls :=
    match cls with
    | some c => if code = 3 || code = 4 then [384 + 2 * c] else if code = 0x409 then [384 + 2 * c + 1] else []
    | none => []
  own ++ byCls

/-- Selection `s` of an enabled, unchained counter takes this event (R467). -/
def Sel.takes (s : Sel) (code inst : Nat) (cls : Option Nat) : Bool :=
  s.enable && !s.chain && decide (s.ev = code) && (s.all || decide (s.inst = inst)) && (!s.clsen || decide (some s.cls = cls))

/-- The dedicated byte meters an event moves (R473): lines returned and writes accepted at a landing, bursts of a channel. -/
def Tele.meter (t : Tele) (code inst n : Nat) : Tele :=
  if code = 0x003 then { t with ldm := tmod {} t.ldm inst fun m => { m with rd := m.rd + n } }
  else if code = 0x002 then { t with ldm := tmod {} t.ldm inst fun m => { m with wr := m.wr + 64 * n } }
  else if code = 0x401 then { t with chm := tmod {} t.chm inst fun m => { m with rd := m.rd + 64 * n } }
  else if code = 0x402 then { t with chm := tmod {} t.chm inst fun m => { m with wr := m.wr + 64 * n } }
  else t

/-- Count `n` events of a code at an instance (R468, Table 16.2), meters included (R473). -/
def Dev.bump (d : Dev) (code inst n : Nat) (ld : Option Nat := none) (cls : Option Nat := none) : Dev :=
  let d := { d with tele := d.tele.meter code inst n }
  if d.std then
    { d with ctr := (stdPairs code inst ld cls).foldl (fun t k => addPair t k n) d.ctr }
  else
    { d with ctr := d.sel.foldl (fun t e =>
        if e.2.takes code inst cls then
          (if e.1 % 2 = 0 && (tget {} d.sel (e.1 + 1)).chain && (tget {} d.sel (e.1 + 1)).enable
           then addPair t (e.1 / 2) n else addCtr t e.1 n)
        else t) d.ctr }

/-- Add an event record to a set of logs: a log of 256 records keeps them and counts an overflow (12 R366). -/
def Logs.add (l : Logs) (e : Event) : Logs :=
  let inLog := (l.evs.filter fun x => x.sev = e.sev).length
  if inLog < 256 then
    { l with evs := l.evs ++ [{ e with handle := l.next }], next := l.next + 1 }
  else
    { l with ovr := l.ovr.set e.sev (l.ovr.getD e.sev 0 + 1) }

/-- Logs of the host on landing `n`. -/
def Dev.hostLogs (d : Dev) (n : Nat) : Logs := tget {} d.logs n

/-- Raise the MSI-X vector of a landing: pending when its table entry is masked, sent otherwise (R405). -/
def Landing.msi (l : Landing) (v : Nat) : Landing :=
  if l.msixEn && (tget {} l.msix v).masked then { l with msix := tmod {} l.msix v fun m => { m with pend := true } } else l

/-- Send an event record to the host on landing `n`, with the interrupt of its log (R462, Table 13.7). -/
def Dev.evHost (d : Dev) (n : Nat) (kind : EvKind) (args : List Nat := []) (sev : Nat := 0) : Dev :=
  let d := { d with logs := tmod {} d.logs n fun l => l.add { kind, args, sev, time := d.time } }
  if (d.hostLogs n).policy.getD sev 0 = 1 then d.modLd n (·.msi (sev + 1)) else d

/-- Send the Pool owner an event record (R462), which STATESEQ counts (Table 12.14). -/
def Dev.evPool (d : Dev) (kind : EvKind) (args : List Nat := []) (sev : Nat := 0) : Dev :=
  { d with pool := d.pool.add { kind, args, sev, time := d.time }, mg := { d.mg with stateseq := (d.mg.stateseq + 1) % 2 ^ 32 } }

/-- Tell a running Pilot module of an event (R437, Table 14.15): a waiting call returns with it; of more than 1,024 pending the oldest is dropped. -/
def Pilot.push (p : Pilot) (kind arg : Nat) : Pilot :=
  if p.run.isNone then p
  else if p.wait.isSome then { p with wait := none, cb := some 0, ret := 0, val := [kind, arg] }
  else
    let full := decide (1024 ≤ p.events.length)
    { p with events := (if full then p.events.drop 1 else p.events) ++ [(kind, arg)], dropped := if full then p.dropped + 1 else p.dropped }

/-- Syust passes an event to every running Pilot module: kinds 1 tide, 2 scaling, 3 epoch, 4 Barge, 5 timer (R131, R319, R437). -/
def Dev.tellPilots (d : Dev) (kind arg : Nat) : Dev := { d with plt := d.plt.map fun x => (x.1, x.2.push kind arg) }

/-- Records in use. -/
def Dev.recList (d : Dev) : List (Nat × ExtRec) := d.ext.recs.filter fun r => r.2.st ≠ .free

/-- A record covers a block. -/
def ExtRec.covers (r : ExtRec) (blk : Nat) : Bool := decide (r.base ≤ blk) && decide (blk ≤ r.base + r.nblk1)

/-- Landings that hold a Granted record covering a block (R367). -/
def Dev.grantees (d : Dev) (blk : Nat) : List Nat :=
  (List.range 16).filter fun n => d.ext.recs.any fun r => decide (r.2.st = .granted) && decide (r.2.ld = n) && r.2.covers blk

/-- Add an entry to a poison list: 512 entries, then the overflow flag (R367). -/
def Logs.addPoison (l : Logs) (dpa len : Nat) (inj : Bool := false) : Logs :=
  if l.poison.length < 512 then { l with poison := l.poison ++ [(dpa, len, inj)] } else { l with poisOver := true }

/-- Put a loss on the poison list of every host that holds a Granted record covering it (R367). -/
def Dev.poison (d : Dev) (dpa len : Nat) : Dev :=
  { d with logs := (d.grantees (dpa / 2 ^ 28)).foldl (fun t n => tmod {} t n fun l => l.addPoison dpa len) d.logs }

/-- Poison-list length of a line, a quad and a page (R367). -/
def poisLine : Nat := 64
def poisQuad : Nat := 256
def poisPage : Nat := 4096

end Sys2Proof.Machine
end

