-- ==== Sys2Proof/Machine/Report.lean ====
section
/-! DEFINITION. Reports to the Lookout: merging, escalation, records, signals and ordered fences (R441 to R463), and injected checks (R466). -/
namespace Sys2Proof.Machine

/-- One report as it reaches the Lookout. -/
structure Rep where
  src : Nat
  det0 : Nat := 0
  det1 : Nat := 0
  /-- path, when it is not the source's own -/
  path : Option Path := none
  /-- unit code, when the source names several units -/
  unit : Option Nat := none
  /-- reporting island of a slip stop -/
  path2 : Option Path := none
  inj : Bool := false
  dnc : Bool := false
  /-- DPA the report concerns -/
  dpa : Option Nat := none
  /-- fence subject, when it is not the source's own: lane number -/
  sub : Option Nat := none

/-- A path to level 4, or to level 3 when a unit is named (Table 15.7). -/
def mkPath (die quad slice unit : Nat) : Path :=
  { die, quad, slice, unit, depth := if unit = 0 then 4 else 3 }

/-- The location of a source (R446, Tables 15.1 to 15.5). -/
def sourcePath (s unit : Nat) : Path :=
  if s < 0x200 then mkPath 0 (s / 0x20 / 4) (s / 0x20) unit
  else if s < 0x600 then mkPath 0 ((s - 0x200) / 0x40 / 4) (16 + (s - 0x200) / 0x40) unit
  else if s < 0x680 then mkPath 0 ((s - 0x600) / 0x20) (16 + 4 * ((s - 0x600) / 0x20)) unit
  else if s < 0x6A0 then mkPath 0 4 32 unit
  else if s < 0x6C0 then mkPath 0 4 33 unit
  else if s < 0x700 then mkPath 0 4 34 unit
  else if s < 0x740 then mkPath 0 4 35 unit
  else if s < 0x780 then mkPath 1 4 37 unit
  else if s < 0x7C0 then mkPath 1 4 36 unit
  else { die := 0, depth := 6 }

/-- Two paths agree down to level 3 (R454). -/
def Path.sameL3 (a b : Path) : Bool :=
  decide (a.die = b.die ∧ a.quad = b.quad ∧ a.slice = b.slice ∧ a.unit = b.unit)

/-- Arrival class of a source: p0300 + s, or its default (R449, Table 13.3). -/
def Dev.arrival (d : Dev) (s : Nat) (i : SInfo) : FCls :=
  match FCls.ofCode (d.p (0x300 + s) % 8) with
  | some c => c
  | none => i.cls

/-- QUIET of a source (Table 13.3). -/
def Dev.quiet (d : Dev) (s : Nat) : Bool := bits (d.p (0x300 + s)) 3 1 = 1

/-- A fence of link {a, b} would leave some pair of quadrants with no path, direct or through one quadrant (R457). -/
def Dev.linkCuts (d : Dev) (a b : Nat) : Bool :=
  let links := (min a b, max a b) :: d.lko.links
  let cut := fun x y => decide ((min x y, max x y) ∈ links)
  (List.range 4).any fun x => (List.range 4).any fun y =>
    decide (x < y) && cut x y && !((List.range 4).any fun q => decide (q ≠ x) && decide (q ≠ y) && !cut x q && !cut q y)

/-- A fence of channel `c` leaves both channels of its pair fenced or untrained while memory is active (R564). -/
def Dev.pairCuts (d : Dev) (c : Nat) : Bool := d.active && !d.chOk (partner c)

/-- Fence instance of a source: landing, slice or quadrant number. -/
def fenceInst (s : Nat) : Nat :=
  if s < 0x200 then s / 0x20 else if s < 0x600 then (s - 0x200) / 0x40 else (s - 0x600) / 0x20

/-- The event-log of a class (R462). -/
def FCls.sev : FCls → Nat
  | .corrected => 0
  | .deferred => 1
  | .contained => 2
  | .fatal => 3

/-- Landings whose tenants a record reaches (R462): its DPA in a Granted record, its own landing, every landing when Fatal. -/
def Dev.affected (d : Dev) (r : Rep) (fin : FCls) : List Nat :=
  if fin = .fatal then d.units
  else if fin = .corrected then []
  else
    let own := if r.src < 0x200 then [r.src / 0x20] else []
    let byDpa := match r.dpa with
      | some a => d.grantees (a / 2 ^ 28)
      | none => []
    (List.range 16).filter fun n => decide (n ∈ own) || decide (n ∈ byDpa)

/-- Entering the Fatal state (R453): viral on every landing that is Up, FATAL_N, LKO.STAT.FATAL. -/
def Dev.enterFatal (d : Dev) : Dev :=
  let d := (List.range 16).foldl (fun d n => if (d.ld n).link.st = .up then d.modLd n fun l => { l with viral := true } else d) d
  { d with lko := { d.lko with fatal := true }, fatalN := true }

/-- Add one report to the record it merges into (R454, R455). -/
def FRec.echoOf (r : FRec) : FRec := { r with echo := satAdd (2 ^ 32 - 1) r.echo 1, echoed := true }

/-- Change the record with a sequence number. -/
def modRec (t : List FRec) (seq : Nat) (f : FRec → FRec) : List FRec :=
  t.map fun r => if r.seq = seq then f r else r

/-- The record a storm report merges into: the first of its source made within p0281 (R455), one that has left the store included. -/
def Dev.stormPrimary (d : Dev) (s : Nat) : Option FRec :=
  let hit := fun (r : FRec) => decide (r.src = s) && !r.wire && decide (d.time ≤ r.time + d.p 0x281)
  match d.lko.recs.find? hit with
  | some r => some r
  | none => (d.plog.ents.filterMap fun e => if e.kind = 1 then e.frec else none).find? hit

/-- A log entry's record notes one more island that has merged into it (R455); what the entry shows stays as written. -/
def PLogs.noteIsland (l : PLogs) (seq : Nat) (p : Option Path) : PLogs :=
  let note := fun (r : FRec) => if r.seq = seq then { r with isl := r.isl ++ p.toList } else r
  { l with ents := l.ents.map fun e => { e with frec := e.frec.map note } }

/-- The record a repeat report merges into: unacknowledged, same source, same path to level 3 (R454). -/
def Dev.repeatOf (d : Dev) (s : Nat) (p : Path) : Option FRec :=
  d.lko.recs.find? fun r => decide (r.src = s) && !r.wire && !r.ack && r.path.sameL3 p

/-- The oldest unacknowledged record of a block with a final class, of those that take part in escalation (R450, R451). -/
def Dev.escalator (d : Dev) (blk : Nat) (c : FCls) : Option FRec :=
  d.lko.recs.find? fun r => decide (sourceBlock r.src = blk) && !r.ack && !r.wire && !r.early && decide (r.fin = c)

/-- Keep a new record while the store has room, else count the overflow; Syust's interrupt is raised for a kept record that is neither Fatal nor a
Corrected one of a quiet source (R447, R448, R450, R460). -/
def Dev.keepRecord (d : Dev) (r : FRec) : Dev :=
  if 4096 ≤ d.lko.recs.length then { d with lko := { d.lko with overflow := d.lko.overflow + 1 } }
  else
    let d := { d with lko := { d.lko with recs := d.lko.recs ++ [r], next := d.lko.next + 1 } }
    if (decide (r.fin = .corrected) && d.quiet r.src) || decide (r.fin = .fatal) then d else { d with lko := { d.lko with irq := d.lko.irq + 1 } }

/-- Tell the Pool owner and the hosts a record reaches, and enter the Fatal state on a Fatal one (R453, R462). -/
def Dev.tellRecord (d : Dev) (r : Rep) (seq : Nat) (fin : FCls) : Dev :=
  let d := d.evPool .fault [seq, r.src, r.det0, r.det1] fin.sev
  let d := (d.affected r fin).foldl (fun d n => d.evHost n .fault [seq, r.src, r.det0, r.det1] fin.sev) d
  if fin = .fatal then d.enterFatal else d

/-- Make a record, react by its final class and order its fence (R448, R450, R456, R457, R564, R39). -/
def Dev.newRecord (d : Dev) (r : Rep) (i : SInfo) (path : Path) (arr : FCls) : Dev :=
  let esc := if d.active then d.escalator (sourceBlock r.src) arr else none
  let fin0 := if esc.isSome then arr.up else arr
  let sub := r.sub.getD i.sub
  let inst := fenceInst r.src
  let fatalFence := fin0 = .contained &&
    ((decide (i.fence = some .link) && d.linkCuts inst sub) || (decide (i.fence = some .channel) && d.pairCuts inst))
  let fin := if fatalFence then .fatal else fin0
  let fences := i.fence.isSome && decide (fin0 = .contained) && !(fatalFence && decide (i.fence = some .link))
  let seq := d.lko.next
  let rec0 : FRec :=
    { seq, src := r.src, arr, fin, esc := esc.isSome && !fatalFence, inj := r.inj, fenced := fences, viral := decide (fin = .fatal),
      dnc := r.dnc, time := d.time, path, path2 := r.path2, det0 := if r.dnc then 0 else r.det0, det1 := if r.dnc then 0 else r.det1,
      cause := if fatalFence then none else esc.map (·.seq), early := !d.active, isl := r.path2.toList }
  let d := (d.keepRecord rec0).tellRecord r seq fin
  let lanes := match path.unit with
    | 0x16 => Fence.dec0
    | 0x17 => Fence.dec1
    | _ => Fence.cmp
  match i.fence.map fun t => if t = .cmp && decide (0x15 ≤ path.unit) then lanes else t with
  | some t => if fences then { d with fenceQ := d.fenceQ ++ [{ target := t, inst, sub, seq }] } else d
  | none => d

/-- One report of a source (R441): counted, merged under R454 or R455, or recorded. -/
def Dev.report (d : Dev) (r : Rep) : Dev :=
  match sourceInfo r.src with
  | none => d
  | some i =>
    let d := { d with lko := { d.lko with src := tmod {} d.lko.src r.src fun x => { x with count := satAdd (2 ^ 32 - 1) x.count 1 } } }
    let path := r.path.getD (sourcePath r.src (r.unit.getD i.unit))
    let arr := d.arrival r.src i
    let again := fun (d : Dev) =>
      match d.repeatOf r.src path with
      | some p => { d with lko := { d.lko with recs := modRec d.lko.recs p.seq FRec.echoOf } }
      | none => d.newRecord r i path arr
    if i.merge = 2 then
      match d.stormPrimary r.src with
      | some p =>
        let fresh := match r.path2 with
          | some x => !decide (x ∈ p.isl)
          | none => false
        let storms := if fresh then satAdd 0xFFFF d.lko.storms 1 else d.lko.storms
        let upd := fun q : FRec => { q.echoOf with isl := if fresh then q.isl ++ r.path2.toList else q.isl }
        let plog := if fresh then d.plog.noteIsland p.seq r.path2 else d.plog
        { d with plog, lko := { d.lko with recs := modRec d.lko.recs p.seq upd, storms } }
      | none => again d
    else if i.merge = 1 then again d
    else d.newRecord r i path arr

/-- A checker's outcome with the injections that wait at it (R466): one inverted check is transient, two are lasting. -/
def Dev.check (d : Dev) (srcs : List Nat) (c : Chk) : Chk × Bool × Dev :=
  match srcs.find? fun s => decide (0 < (tget {} d.lko.src s).inj) with
  | none => (c, false, d)
  | some s =>
    let n := (tget {} d.lko.src s).inj
    let used := if 2 ≤ n then 2 else 1
    let d := { d with lko := { d.lko with src := tmod {} d.lko.src s fun x => { x with inj := n - used } } }
    (if 2 ≤ n then .lasting else (match c with | .lasting => .lasting | _ => .transient), true, d)

/-- Source number of slice `n`. -/
def sliceSrc (n off : Nat) : Nat := 0x200 + 0x40 * n + off
/-- Source number of landing `n`. -/
def ldSrc (n off : Nat) : Nat := 0x20 * n + off

/-- Append an entry to the persistent log, erasing the oldest sector when the log is full (R463). -/
def PLogs.add (l : PLogs) (kind : Nat) (frec : Option FRec) (args : List Nat) (len : Nat) : PLogs :=
  let ovr := decide (65536 < l.used + len)
  let sec := if ovr then l.sec + 1 else l.sec
  let used := if ovr then len else l.used + len
  let kept := l.ents.filter fun e => decide (sec < e.sec + 256)
  { ents := kept ++ [{ lseq := l.next, kind, frec, args, sec }], next := l.next + 1, sec, used }

/-- Syust writes the held records to the persistent log in SEQ order, acknowledges each Corrected one, and a record both
logged and acknowledged leaves the store (R460, R461, R463). Nothing happens while the Ferryman is unavailable. -/
def Dev.syustLogs (d : Dev) : Dev :=
  if d.fmnBusy then d
  else
    let todo := d.lko.recs.filter fun r => !r.logged
    let newest := (d.lko.recs.map (·.seq)).foldl max 0
    let plog := todo.foldl (fun l r => l.add (if r.kept then 4 else 1) (some r) (if r.seq = newest ∧ d.lko.overflow ≠ 0 then [d.lko.overflow] else []) 72) d.plog
    let recs := d.lko.recs.map fun r => { r with logged := true, ack := r.ack || decide (r.fin = .corrected) }
    { d with plog, lko := { d.lko with recs := recs.filter fun r => !r.ack } }

end Sys2Proof.Machine
end

