-- ==== Sys2Proof/Machine/PageMap.lean ====
section
/-! DEFINITION. The page map: entries and their check code, carve-outs, capacity, granule allocation, tide states, entry reads (R102 to R137). -/
namespace Sys2Proof.Machine

/-- FORM code (Table 4.1). -/
def Form.code : Form → Nat
  | .z => 0
  | .p => 1
  | .k => 2

/-- Bits [119:0] of an entry (Table 4.1). -/
def PEnt.body (e : PEnt) : Nat :=
  e.form.code + e.chan * 2 ^ 2 + e.frame * 2 ^ 6 + e.goff * 2 ^ 34 + e.gm1 * 2 ^ 37 + e.qpois.toNat * 2 ^ 40 +
  e.tally.toNat * 2 ^ 56 + e.tepoch.toNat * 2 ^ 64 + e.ctx * 2 ^ 68 + e.sld.toNat * 2 ^ 82 + e.pin.toNat * 2 ^ 83

/-- Codeword positions: the first `n` positive integers that are no power of two, from `k` upward (R103). -/
def chkPositions : Nat → Nat → List Nat
  | 0, _ => []
  | fuel + 1, k =>
    if k ∈ [1, 2, 4, 8, 16, 32, 64] then chkPositions fuel (k + 1) else k :: chkPositions fuel (k + 1)

/-- pos(i) for i = 0 to 119 (R103): position 3 is bit 0 and position 127 is bit 119. -/
def chkPos : List Nat := chkPositions 127 1

/-- Exclusive or of a list of bits. -/
def xorAll : List Bool → Bool
  | [] => false
  | b :: bs => b ^^ xorAll bs

/-- CHK over bits [119:0] (R103). -/
def chkOf (body : Nat) : Nat :=
  let ones := (List.range 120).filter fun i => body.testBit i
  let c := (List.range 7).map fun j => xorAll (ones.map fun i => (chkPos.getD i 0).testBit j)
  let c7 := xorAll (ones.map fun _ => true) ^^ xorAll c
  (List.range 7).foldl (fun s j => s + (c.getD j false).toNat * 2 ^ j) 0 + c7.toNat * 2 ^ 7

/-- The 128-bit entry (Table 4.1). -/
def PEnt.encode (e : PEnt) : BitVec 128 := BitVec.ofNat 128 (e.body + chkOf e.body * 2 ^ 120)

/-- Blocks of the region (R78). -/
def Dev.regionBlocks (d : Dev) : Nat := if d.codeH then 65536 else 131072

/-- Bytes of a channel's DIMMs. -/
def Chan.bytes (c : Chan) : Nat := c.pop.gib * c.pop.dpc * 2 ^ 30

/-- CHUNK (R113). -/
def Dev.chunk (d : Dev) : Nat := if d.codeH then 131072 else 65536

/-- The entry region's base on a channel, pmbase (R115). -/
def Dev.pmbase (d : Dev) (c : Nat) : Nat := (d.ch c).bytes - 2 * d.pm.segs * d.chunk

/-- One rounded copy of an allocation map (Table 4.3). -/
def mapBytes (size : Nat) : Nat := (size / 4096 + 2 ^ 20 - 1) / 2 ^ 20 * 2 ^ 20

/-- Firmware carve-out per channel (Table 4.3). -/
def Dev.fwBytes (d : Dev) : Nat := if d.codeH then 2 ^ 27 else 2 ^ 26

/-- Berths of a channel's pool (R115). -/
def Dev.frames (d : Dev) (c : Nat) : Nat :=
  let size := (d.ch c).bytes
  (size - 2 * d.pm.segs * d.chunk - 2 * mapBytes size - d.fwBytes) / 4096

/-- Base of the firmware carve-out of a channel (R115). -/
def Dev.fwBase (d : Dev) (c : Nat) : Nat :=
  let size := (d.ch c).bytes
  size - 2 * d.pm.segs * d.chunk - 2 * mapBytes size - d.fwBytes

/-- P: DRAM on channels neither fused off nor fenced (R99); an empty or untrained channel adds nothing (R275). -/
def Dev.installed (d : Dev) : Nat :=
  (d.units.filter d.chOk).foldl (fun s c => s + (d.ch c).bytes) 0

/-- N, the nominal limit in blocks (R99). -/
def Dev.nominal (d : Dev) : Nat := min (d.p 0x140 * d.installed / 16 / 2 ^ 28) d.regionBlocks

/-- Blocks not Free, each counted once (R99). -/
def Dev.usedBlocks (d : Dev) : Nat :=
  ((d.recList.flatMap fun r => (List.range (r.2.nblk1 + 1)).map (r.2.base + ·)).eraseDups).length

/-- The entry a block's pages were bound with (R111). -/
def Block.bound (b : Block) : PEnt := { ctx := b.ctx, sld := b.sld }

/-- The block of a page. -/
def pageBlock (page : Nat) : Nat := page / 2 ^ 16

/-- The entry of a page as both DRAM copies hold it. -/
def Dev.ent (d : Dev) (page : Nat) : PEnt :=
  match tget none d.pm.ents page with
  | some e => e
  | none => (tget {} d.pm.blocks (pageBlock page)).bound

/-- Second detail word of a source of kind A (Table 15.9): the quad of a DPA within its page and the page's context. -/
def Dev.detA (d : Dev) (dpa : Nat) : Nat := dpa / 256 % 16 + (d.ent (dpa / 4096)).ctx * 2 ^ 4

/-- Write both copies of a page's entry (R116). -/
def Dev.setEnt (d : Dev) (page : Nat) (e : PEnt) : Dev :=
  let b := (tget {} d.pm.blocks (pageBlock page)).bound
  { d with pm := { d.pm with ents := tput none d.pm.ents page (if e = b then none else some e) } }

/-- Byte offsets of copies A and B of a page's entry on their channels (R113). -/
def Dev.entOffsets (d : Dev) (page : Nat) : Nat × Nat :=
  let g := (tget {} d.pm.blocks (pageBlock page)).seg.getD 0
  let i := if d.codeH then bits page 3 13 else bits page 4 12
  let c := d.spread page
  (d.pmbase c + g * d.chunk + i * 16, d.pmbase (partner c) + d.pm.segs * d.chunk + g * d.chunk + i * 16)

/-- A malformed entry (R104). -/
def Dev.malformed (d : Dev) (e : PEnt) : Bool :=
  match e.form with
  | .z => false
  | .p => decide (e.goff ≠ 0 ∨ e.gm1 ≠ 7) || !d.on e.chan || (d.chOk e.chan && decide (d.frames e.chan ≤ e.frame))
  | .k => decide (7 < e.goff + e.gm1) || !d.on e.chan || (d.chOk e.chan && decide (d.frames e.chan ≤ e.frame))

/-- Used granules of a berth (R123). -/
def Dev.used (d : Dev) (c frame : Nat) : BitVec 8 := tget 0#8 d.pm.alloc (c * 2 ^ 28 + frame)

/-- Berths of a channel with some granule used, rising. -/
def Dev.usedFrames (d : Dev) (c : Nat) : List Nat :=
  (d.pm.alloc.filter fun x => decide (x.1 / 2 ^ 28 = c)).map fun x => x.1 % 2 ^ 28

/-- The four marks of a channel in granules: HIGH, LOW, EBB, BALLAST (R130). -/
def Dev.mark (d : Dev) (c id : Nat) : Nat := d.p id * (d.frames c * 8) / 1024

/-- Rank of a tide state, 0 the lowest. -/
def Tide.rank : Tide → Nat
  | .high => 3
  | .low => 2
  | .ebb => 1
  | .ballast => 0

/-- The state a falling count gives (R130). -/
def Dev.fallTide (d : Dev) (c free : Nat) : Tide :=
  if free < d.mark c 0x164 then .ballast
  else if free < d.mark c 0x163 then .ebb
  else if free < d.mark c 0x162 then .low
  else .high

/-- The state a rising count gives (R130). -/
def Dev.riseTide (d : Dev) (c free : Nat) : Tide :=
  if d.mark c 0x161 ≤ free then .high
  else if d.mark c 0x162 ≤ free then .low
  else if d.mark c 0x163 ≤ free then .ebb
  else .ballast

/-- The tide state after a change of the free count (R130). -/
def Dev.nextTide (d : Dev) (c : Nat) : Tide :=
  let cur := (d.ch c).tide
  let f := d.fallTide c (d.ch c).free
  let r := d.riseTide c (d.ch c).free
  if f.rank < cur.rank then f else if cur.rank < r.rank then r else cur

/-- Send a tide event, latched while the Ferryman is unavailable (R131). -/
def Dev.tideEvent (d : Dev) (c : Nat) (t : Tide) : Dev :=
  if d.fmnBusy then { d with pm := { d.pm with latched := d.pm.latched ++ [(c, t, (d.ch c).free)] } }
  else
    let d := (d.evPool .tide [c, t.rank, (d.ch c).free]).tellPilots 1 c
    { d with lko := { d.lko with irq := d.lko.irq + 1 } }

/-- Re-evaluate the tide state of a channel (R130): a fenced, empty or untrained channel has none. -/
def Dev.retide (d : Dev) (c : Nat) : Dev :=
  if d.chOk c && d.active then
    let t := d.nextTide c
    if t = (d.ch c).tide then d else (d.modCh c fun x => { x with tide := t }).tideEvent c t
  else d

/-- Mark granules of a berth used or free, in both map copies, keep the free count, and re-evaluate the tide (R123).
Granules of a retired berth stay used. -/
def Dev.setUsed (d : Dev) (c frame : Nat) (mask : BitVec 8) (b : Bool) : Dev :=
  if !b && decide (frame ∈ (d.ch c).retList) then d
  else
    let old := d.used c frame
    let new := if b then old ||| mask else old &&& ~~~mask
    let d := { d with pm := { d.pm with alloc := tput 0#8 d.pm.alloc (c * 2 ^ 28 + frame) new } }
    let d := if d.chOk c then d.modCh c fun x => { x with free := x.free + popcount old - popcount new } else d
    d.retide c

/-- Granule mask of `n` granules from `off`. -/
def granMask (off n : Nat) : BitVec 8 := BitVec.ofNat 8 ((2 ^ n - 1) * 2 ^ off)

/-- Runs of free granules in a berth: offset and length, lowest first. -/
def freeRuns (u : BitVec 8) : List (Nat × Nat) :=
  (List.range 8).filterMap fun i =>
    if !u.getLsbD i && (decide (i = 0) || u.getLsbD (i - 1)) then
      some (i, ((List.range 8).filter fun j => decide (i ≤ j) && ((List.range 8).all fun k => !(decide (i ≤ k) && decide (k ≤ j)) || !u.getLsbD k)).length)
    else none

/-- The wholly free berth taken: a free candidate, then the next free berth cyclically (log 6, R125). -/
def nextFree (used : List Nat) (frames : Nat) : Nat → Nat → Nat
  | 0, f => f % frames
  | fuel + 1, f => if f % frames ∈ used then nextFree used frames fuel (f + 1) else f % frames

/-- The best run for `g` granules in partly used berths: smallest, then lowest frame (R125). -/
def Dev.kRun (d : Dev) (c g : Nat) : Option (Nat × Nat) :=
  let cands := (d.pm.alloc.filter fun x => decide (x.1 / 2 ^ 28 = c) && decide (x.1 % 2 ^ 28 < d.frames c)).flatMap fun x =>
    ((freeRuns x.2).filter fun r => decide (g ≤ r.2)).map fun r => (x.1 % 2 ^ 28, r.1, r.2)
  (argMin (fun r => r.2.2) cands).map fun r => (r.1, r.2.1)

/-- Some berth of the channel is wholly free. -/
def Dev.hasBerth (d : Dev) (c : Nat) : Bool := decide ((d.usedFrames c).length < d.frames c)

/-- A wholly free berth of a channel, the choice left open (log 6). -/
def Dev.freeBerth (d : Dev) (c : Nat) : Nat :=
  nextFree (d.usedFrames c) (d.frames c) ((d.usedFrames c).length + 1) (Config.berth d.draws)

/-- The highest run of `n` wholly free berths below `hi`, the used berths falling (R253). -/
def highRun (n : Nat) : Nat → List Nat → Option Nat
  | hi, [] => if n ≤ hi then some (hi - n) else none
  | hi, u :: us => if u + 1 + n ≤ hi then some (hi - n) else highRun n u us

/-- The space an allocation needs (R124). -/
inductive Need where
  | berth
  | gran (g : Nat)
  | area (n : Nat)
  deriving DecidableEq, Repr

/-- Granules an allocation needs (R124). -/
def Need.granules : Need → Nat
  | .berth => 8
  | .gran g => g
  | .area n => 8 * n

/-- R125 finds the space on a channel. -/
def Dev.fits (d : Dev) (c : Nat) : Need → Bool
  | .berth => d.hasBerth c
  | .gran g => (d.kRun c g).isSome || d.hasBerth c
  | .area n => (highRun n (d.frames c) (d.usedFrames c).reverse).isSome

/-- The placement test of R124, or with `bal` the test for placement from ballast (R134). -/
def Dev.placeable (d : Dev) (need : Need) (bal : Bool) (c : Nat) : Bool :=
  d.chOk c && decide (need.granules + (if bal then 0 else d.mark c 0x164) ≤ (d.ch c).free) && d.fits c need

/-- The channel a placement takes (R124, R134): the preferred one, then the quadrant's roomiest, then the roomiest. -/
def Dev.choose (d : Dev) (pref : Nat) (need : Need) (bal : Bool) (without : List Nat := []) : Option Nat :=
  let ok := d.units.filter fun c => d.placeable need bal c && !decide (c ∈ without)
  if pref ∈ ok then some pref
  else match argMax (fun c => (d.ch c).free) (ok.filter fun c => quadOf c = quadOf pref) with
    | some c => some c
    | none => argMax (fun c => (d.ch c).free) ok

/-- Take the space of an allocation on a channel (R125): frame and first granule. -/
def Dev.take (d : Dev) (c : Nat) : Need → (Nat × Nat) × Dev
  | .berth =>
    let f := d.freeBerth c
    ((f, 0), { d with draws := d.draws + 1 }.setUsed c f 0xFF#8 true)
  | .gran g =>
    match d.kRun c g with
    | some (f, o) => ((f, o), d.setUsed c f (granMask o g) true)
    | none =>
      let f := d.freeBerth c
      ((f, 0), { d with draws := d.draws + 1 }.setUsed c f (granMask 0 g) true)
  | .area n =>
    let f := (highRun n (d.frames c) (d.usedFrames c).reverse).getD 0
    ((f, 0), (List.range n).foldl (fun d i => d.setUsed c (f + i) 0xFF#8 true) d)

/-- Free the storage an entry holds (R108); storage on an unusable channel stays marked used (R119). -/
def Dev.freeStorage (d : Dev) (e : PEnt) : Dev :=
  match e.form with
  | .z => d
  | _ => if d.chOk e.chan then d.setUsed e.chan e.frame (granMask e.goff (e.gm1 + 1)) false else d

/-- An entry as form Z with its bindings kept. -/
def PEnt.toZ (e : PEnt) (q : BitVec 16) : PEnt :=
  { e with form := .z, chan := 0, frame := 0, goff := 0, gm1 := 0, qpois := q }

/-- The lines of some quads of a page no longer count as written whole since their QPOIS bit was set (R105). -/
def Slice.unwhole (s : Slice) (page : Nat) (mask : BitVec 16) : Slice :=
  { s with wharf := { s.wharf with lines := s.wharf.lines.map fun x =>
      if x.2.addr / 64 = page && mask.getLsbD (x.2.addr / 4 % 16) then (x.1, { x.2 with whole := false }) else x } }

/-- Set QPOIS bits of a page in both entry copies (R105). -/
def Dev.setQpois (d : Dev) (home page : Nat) (mask : BitVec 16) : Dev :=
  let e := d.ent page
  (d.setEnt page { e with qpois := e.qpois ||| mask }).modMs home (·.unwhole page mask)

/-- Count a transient event of a slice. -/
def Dev.transient (d : Dev) (home : Nat) : Dev :=
  (d.bump 0x205 home 1).modMs home fun s => { s with transients := s.transients + 1 }

/-- CTX and SEALED of the extent that holds a page: of its first record not Free, else what the block was bound with (R117). -/
def Dev.extentCtx (d : Dev) (page : Nat) : Nat × Bool :=
  match d.recList.find? fun r => r.2.covers (pageBlock page) with
  | some r => (r.2.ctx, (tget {} d.ctx r.2.ctx).sld)
  | none => ((tget {} d.pm.blocks (pageBlock page)).ctx, (tget {} d.pm.blocks (pageBlock page)).sld)

/-- A slice reads the segment directory for a block (R112): false when no enabled slice holds a good copy. -/
def Dev.readDir (d : Dev) (home blk : Nat) (ph : Phys) : Bool × Dev :=
  let (c, inj, d) := d.check [sliceSrc home 0x29, sliceSrc home 0x2A] ph.dirOwn
  let c := if blk ∈ (d.ms home).dirBad then .lasting else c
  match c with
  | .ok => (true, d)
  | .transient => (true, d.transient home)
  | .lasting =>
    if ph.dirPartner && ph.dirOthers then
      (false, (d.modMs home fun s => { s with dirBad := if blk ∈ s.dirBad then s.dirBad else s.dirBad ++ [blk] }).report
        { src := sliceSrc home 0x2A, det0 := blk, inj })
    else
      (true, (d.modMs home fun s => { s with dirBad := s.dirBad.filter (· ≠ blk) }).report
        { src := sliceSrc home 0x29, det0 := blk, inj })

/-- An entry is lost (R117). -/
def Dev.loseEntry (d : Dev) (home page : Nat) (inj : Bool) : Dev :=
  let (ctx, sld) := d.extentCtx page
  let c := d.spread page
  let old := d.ent page
  let seg := (tget {} d.pm.blocks (pageBlock page)).seg.getD 0
  let d := (d.setEnt page { ({} : PEnt) with qpois := 0xFFFF#16, ctx, sld, tally := old.tally, tepoch := old.tepoch }).modMs home
    (·.unwhole page 0xFFFF#16)
  d.report { src := sliceSrc home 0x0D, det0 := page * 4096,
             det1 := ctx * 2 ^ 4 + c * 2 ^ 18 + partner c * 2 ^ 22 + seg * 2 ^ 26, dpa := some (page * 4096), inj }

/-- Queue a row for soft repair, once (R298). -/
def Dev.queueRow (d : Dev) (c : Nat) (r : RowAddr) : Dev :=
  d.modCh c fun x => if r ∈ x.queue then x else { x with queue := x.queue ++ [r] }

/-- The DRAM address of a channel byte offset (R277): sub-channel, bank group, bank, column, row, stack, rank, DIMM. -/
structure DramAddr where
  sub : Nat
  bg : Nat
  ba : Nat
  col : Nat
  row : Nat
  cid : Nat
  rank : Nat
  dimm : Nat
  deriving DecidableEq, Repr

/-- Ranks of a DIMM as the mapping counts them: pseudo-channels of an MRDIMM count as ranks (R277). -/
def Pop.mapRanks (p : Pop) : Nat := if p.type = .mrdimm then 2 * p.ranks else p.ranks

/-- The mapping of R277. -/
def Pop.map (p : Pop) (off : Nat) : DramAddr :=
  let f := off / 4096
  let x := off % 4096
  let r := if p.x4 then f / 128 else f / 64
  let idx := r / p.rows
  { sub := f % 2
    bg := bits f 1 3 ^^^ bits f 13 3
    ba := bits f 4 2 ^^^ bits f 16 2
    col := x / 64 + (if p.x4 then bits f 6 1 * 64 else 0)
    row := r % p.rows
    cid := idx % p.stack
    rank := idx / p.stack % p.mapRanks
    dimm := idx / (p.stack * p.mapRanks) }

/-- One number per bank of every rank, stack die and sub-channel (R285). -/
def DramAddr.bank (a : DramAddr) : Nat :=
  a.ba + 4 * (a.bg + 8 * (a.sub + 2 * (a.cid + 16 * (a.rank + 16 * a.dimm))))

/-- The row a channel offset lies in. -/
def Dev.rowOf (d : Dev) (c off : Nat) : RowAddr :=
  let a := (d.ch c).pop.map off
  { bank := a.bank, row := a.row }

/-- Channel byte offset of the burst that holds a byte (R291, Table 15.8 B). -/
def burstAt (off : Nat) : Nat := off / 64 * 64

/-- A byte of burst `b` of `n` bytes from `off`: of the last burst when there are not so many. -/
def burstOff (off n b : Nat) : Nat := burstAt off + 64 * min b ((off % 64 + (n - 1)) / 64)

/-- A transient uncorrectable burst (R292 step 2). -/
def Dev.uet (d : Dev) (c off dpa : Nat) (inj : Bool) : Dev :=
  let d := (d.bump 0x407 c 1).modCh c fun x => { x with uet := satAdd 0xFFF x.uet 1 }
  d.report { src := sliceSrc c 0x01, det0 := burstAt off, det1 := dpa, inj }

/-- An entry copy whose burst stays uncorrectable (R292, Table 9.5): counted, reported, its row queued for soft repair. -/
def Dev.badCopy (d : Dev) (c off page : Nat) : Dev :=
  ((d.modCh c fun x => { x with uel := satAdd 0xFFF x.uel 1 }).queueRow c (d.rowOf c off)).report
    { src := sliceSrc c 0x03, det0 := burstAt off, det1 := page * 4096 }

/-- A slice reads the entry of a page from DRAM (R112, R116, R117, R564, Table 4.4): none when it cannot be located. -/
def Dev.readEnt (d : Dev) (home page : Nat) (ph : Phys) : Option PEnt × Dev :=
  match d.readDir home (pageBlock page) ph with
  | (false, d) => (none, d)
  | (true, d) =>
    let a := d.spread page
    let b := partner a
    let okA := d.chOk a
    let okB := d.chOk b
    if !okA && !okB then (none, d)
    else
      let (ca, inj, d) := if okA then d.check [sliceSrc home 0x0C, sliceSrc home 0x0D] ph.pmA else (.lasting, false, d)
      let ca := if page ∈ d.pm.badA || d.malformed (d.ent page) then .lasting else ca
      match ca with
      | .ok =>
        if ph.pmFix then (some (d.ent page), d.report { src := sliceSrc home 0x0C, det0 := page * 4096, det1 := d.detA (page * 4096), dpa := some (page * 4096), inj })
        else (some (d.ent page), d)
      | .transient =>
        let d := d.transient home
        (some (d.ent page), if ph.pmEcc then d.uet a (d.entOffsets page).1 (page * 4096) inj else d)
      | .lasting =>
        let d := if okA && ph.pmEcc then d.badCopy a (d.entOffsets page).1 page else d
        let (cb, injB, d) := if okB then d.check [sliceSrc home 0x0C, sliceSrc home 0x0D] ph.pmB else (.lasting, false, d)
        if cb = .lasting ∨ page ∈ d.pm.badB ∨ d.malformed (d.ent page) = true then
          let d := if okB && decide (cb = .lasting) && ph.pmEcc then d.badCopy b (d.entOffsets page).2 page else d
          let d := d.loseEntry home page (inj || injB)
          (some (d.ent page), d)
        else
          let d := if cb = .transient then
              (let d := d.transient home
               if ph.pmEcc then d.uet b (d.entOffsets page).2 (page * 4096) injB else d)
            else d
          if !okA then (some (d.ent page), d)
          else
            let d := if ph.pmWr then
                ({ d with pm := { d.pm with badA := if page ∈ d.pm.badA then d.pm.badA else d.pm.badA ++ [page] } } : Dev).queueRow a
                  (d.rowOf a (d.entOffsets page).1)
              else { d with pm := { d.pm with badA := d.pm.badA.filter (· ≠ page) } }
            (some (d.ent page), d.report { src := sliceSrc home 0x0C, det0 := page * 4096, det1 := d.detA (page * 4096), dpa := some (page * 4096), inj })

/-- The first access to a page stored on a fenced channel after the fence (R119). -/
def Dev.touchFenced (d : Dev) (home page : Nat) : Dev :=
  let e := d.ent page
  if e.form = .z || d.chOk e.chan then d
  else
    let d := (d.setEnt page (e.toZ 0xFFFF#16)).modMs home (·.unwhole page 0xFFFF#16)
    d.poison (page * 4096) poisPage

end Sys2Proof.Machine
end

