-- ==== Sys2Proof/Machine/Dram.lean ====
section
/-! DEFINITION. DRAM accesses of a channel: activation tracking, bytes read and written, corrected and uncorrectable bursts (R277 to R297). -/
namespace Sys2Proof.Machine

/-- Bank key of a row. -/
def RTab.hit (t : RTab) (row : Nat) : Option Nat :=
  (t.ents.find? fun e => decide (e.2.1 = row) && decide (0 < e.2.2)).map (·.1)

/-- Lowest count over the 32 entries (R285). -/
def RTab.low (t : RTab) : Nat :=
  ((List.range 32).map fun i => (tget (0, 0) t.ents i).2).foldl min (2 ^ 32)

/-- Tracker update for an activation (R285): the new table, and whether the row reached T. -/
def RTab.act (t : RTab) (row thr : Nat) : RTab × Bool :=
  let pos := match t.hit row with
    | some p => p
    | none => (argMin (fun i => (tget (0, 0) t.ents i).2) (List.range 32)).getD 0
  let n := (tget (0, 0) t.ents pos).2 + 1
  let t1 : RTab := { ents := tput (0, 0) t.ents pos (row, n) }
  if thr ≤ n then ({ ents := tput (0, 0) t1.ents pos (row, t1.low) }, true) else (t1, false)

/-- Rows that share a bank with a row and lie within the radius (R285). -/
def neighbours (r : RowAddr) (rad rows : Nat) : List RowAddr :=
  ((List.range (2 * rad + 1)).filterMap fun i =>
    let x := r.row + i
    if x < rad then none
    else if x - rad = r.row ∨ rows ≤ x - rad then none
    else some { bank := r.bank, row := x - rad })

/-- One activation of a row: open row, tracker, RAA count (R285, R286). -/
def Dev.activateRow (d : Dev) (c : Nat) (r : RowAddr) (cls : Option Nat) : Dev :=
  let (t, hit) := (tget {} (d.ch c).rtrk r.bank).act r.row (d.p 0x190)
  let d := d.bump 0x403 c 1 none cls
  d.modCh c fun x =>
    { x with
      openRow := tput none x.openRow r.bank (some r.row)
      rtrk := tput {} x.rtrk r.bank t
      owed := if hit then x.owed ++ neighbours r (d.p 0x191) x.pop.rows else x.owed
      raa := if x.rfmEn && x.pop.rfm.isSome then tmod 0 x.raa r.bank (· + 1) else x.raa }

/-- Issue the neighbour refreshes owed (R285, group 1 of Table 9.2): each activates and precharges its row. -/
def Dev.payOwed (d : Dev) (c : Nat) : Dev :=
  let rows := (d.ch c).owed
  let d := d.modCh c fun x => { x with owed := [] }
  let d := d.bump 0x404 c rows.length
  rows.foldl (fun d r => (d.activateRow c r none).modCh c fun x => { x with openRow := tput none x.openRow r.bank none }) d

/-- A command sequence to a channel offset: owed refreshes first, then an activation unless the row is open (R280, R285). -/
def Dev.openAt (d : Dev) (c off : Nat) (cls : Option Nat) : Dev :=
  let d := if (d.ch c).owed.isEmpty then d else d.payOwed c
  let r := d.rowOf c off
  if tget none (d.ch c).openRow r.bank = some r.row then d else d.activateRow c r cls

/-- Base of a channel's bytes in the memory. -/
def chBase (c : Nat) : Nat := c * 2 ^ 44

/-- Read bytes of a channel (R26 steps 6 and 7). -/
def Dev.rd (d : Dev) (c off n : Nat) (cls : Option Nat) : List Byte × Dev :=
  let d := d.openAt c off cls
  let d := (d.bump 0x401 c ((n + 63) / 64) none cls).bump 0x409 c 1 none cls
  (memRead d.mem (chBase c + off) n, d)

/-- Write bytes of a channel. -/
def Dev.wr (d : Dev) (c off : Nat) (bs : List Byte) (cls : Option Nat) : Dev :=
  let d := d.openAt c off cls
  let d := (d.bump 0x402 c ((bs.length + 63) / 64) none cls).bump 0x409 c 1 none cls
  { d with mem := memPut d.mem (chBase c + off) bs }

/-- Queue a berth for retirement, once (R292). -/
def Dev.queueRetire (d : Dev) (c frame : Nat) : Dev :=
  d.modCh c fun x => if frame ∈ x.retQ ∨ frame ∈ x.retList then x else { x with retQ := x.retQ ++ [frame] }

/-- Queue every berth of a row for retirement (R294): two on x4 devices, the row partners (R277). -/
def Dev.queueRetireRow (d : Dev) (c frame : Nat) : Dev :=
  let d := d.queueRetire c frame
  if (d.ch c).pop.x4 then d.queueRetire c (frame ^^^ 64) else d

/-- Second detail word of a burst that lies in no known page (Table 15.8 B). -/
def noDpa : Nat := 0xFFFFFFFFFFFFFFFF

/-- Times kept of a row's corrected errors within 24 h (R294). -/
def within24h (now : Nat) (ts : List Nat) : List Nat := ts.filter fun t => decide (now ≤ t + 86400000000000)

/-- A corrected burst (R291, R294): counted, reported, and its row treated as failing at p0197 errors within 24 h. -/
def Dev.corrected (d : Dev) (c off dpa : Nat) (inj : Bool) : Dev :=
  let r := d.rowOf c off
  let d := (d.bump 0x406 c 1).modCh c fun x => { x with ce := satAdd 0xFFFFFF x.ce 1 }
  let d := d.report { src := sliceSrc c 0x00, det0 := burstAt off, det1 := dpa, inj }
  let old := ((d.ch c).ceRows.find? fun e => e.1 = r).map (·.2)
  let ts := within24h d.time (old.getD []) ++ [d.time]
  let d := d.modCh c fun x =>
    let t := x.ceRows.filter fun e => e.1 ≠ r
    let t := if old.isNone && decide (64 ≤ t.length) then t.drop 1 else t
    { x with ceRows := t ++ [(r, ts)] }
  if d.p 0x197 ≤ ts.length then
    let d := d.modCh c fun x => { x with ceRows := x.ceRows.filter fun e => e.1 ≠ r }
    ((d.report { src := sliceSrc c 0x04, det0 := burstAt off, det1 := dpa }).queueRow c r).queueRetireRow c (off / 4096)
  else d

/-- A lasting uncorrectable burst of data (R292 step 3, Table 9.5): counted, reported, its berth queued for retirement. -/
def Dev.uel (d : Dev) (c off page : Nat) (inj : Bool) : Dev :=
  let d := d.modCh c fun x => { x with uel := satAdd 0xFFF x.uel 1 }
  (d.report { src := sliceSrc c 0x02, det0 := burstAt off, det1 := page * 4096, dpa := some (page * 4096), inj }).queueRetire c (off / 4096)

/-- A lasting uncorrectable burst of metadata or a carve-out (Table 9.5): counted, reported, its row queued for soft repair. -/
def Dev.uelMeta (d : Dev) (c off : Nat) (inj : Bool) : Dev :=
  let d := d.modCh c fun x => { x with uel := satAdd 0xFFF x.uel 1 }
  (d.report { src := sliceSrc c 0x03, det0 := burstAt off, det1 := noDpa, inj }).queueRow c (d.rowOf c off)

/-- Step 7 of Table 1.5 for a population and timing set, ns, row closed (R282, Table 9.3). -/
def Chan.step7 (c : Chan) : Nat :=
  if c.tset then 42 - (c.speed - 3200) / 400
  else
    let base := if c.pop.type = .mrdimm then (34, 8800) else if c.pop.dpc = 2 then (36, 5200) else (33, 6400)
    base.1 + (base.2 - c.speed) / 400 + (if c.pop.type = .rdimm3ds then 1 else 0)

/-- A row hit saves 14 ns (R282). -/
def Dev.step7At (d : Dev) (c off : Nat) : Nat :=
  let r := d.rowOf c off
  if tget none (d.ch c).openRow r.bank = some r.row then (d.ch c).step7 - 14 else (d.ch c).step7

/-- Figures of Table 9.3 in MB/s: peak, sustained random quad reads, sustained 2:1, for the row and data rate of a channel. -/
def Chan.bandwidth (c : Chan) : Nat × Nat × Nat :=
  let scale := fun (p r m rate : Nat) => (p * c.speed / rate, r * c.speed / rate, m * c.speed / rate)
  if c.tset then scale 25600 22500 20000 3200
  else if c.pop.type = .mrdimm then scale 70400 61900 54900 8800
  else if c.pop.dpc = 2 then scale 41600 35400 31600 5200
  else scale 51200 43500 39000 6400

end Sys2Proof.Machine
end

