-- ==== Sys2Proof/Machine/Seal.lean ====
section
/-! DEFINITION. Keys, the counter tree, its storage and the seal cache (R241 to R266). -/
namespace Sys2Proof.Machine

/-- The tree key Kt (R241). -/
def Dev.treeKey (d : Dev) : BitVec 256 := Config.workKey Config.rootSecret d.nonce 0 3

/-- Working keys of a context as the slice's key table holds them (R243); zeros when none is loaded. -/
def Dev.keysOf (d : Dev) (sl ctx : Nat) : BitVec 256 × BitVec 256 := (tget none (d.ms sl).sl.keys ctx).getD (0#256, 0#256)

/-- The block is homed Near: the mode of its first record not Free (R95). -/
def Dev.blockNear (d : Dev) (blk : Nat) : Bool :=
  match d.recList.find? fun r => r.2.covers blk with
  | some r => r.2.near
  | none => false

/-- Landing of the first record of a block, whose quadrant homes a Near block (R25, R254). -/
def Dev.blockLd (d : Dev) (blk : Nat) : Nat :=
  match d.recList.find? fun r => r.2.covers blk with
  | some r => r.2.ld
  | none => 0

/-- Home slice of a page under its block's homing mode (R95). -/
def Dev.homeOf (d : Dev) (page : Nat) : Nat := d.home (d.blockNear (pageBlock page)) (d.blockLd (pageBlock page)) page

/-- b of Table 8.6. -/
def Dev.sealShift (d : Dev) (near : Bool) : Nat :=
  match d.codeH, near with
  | false, false => 16
  | false, true => 14
  | true, false => 15
  | true, true => 13

/-- Node counts per level, L0 upward (Table 8.6). -/
def Dev.sealLevels (d : Dev) (near : Bool) : List Nat :=
  match d.codeH, near with
  | false, false => [8192, 1024, 128, 16, 2, 1]
  | false, true => [32768, 4096, 512, 64, 8, 1]
  | true, false => [16384, 2048, 256, 32, 4, 1]
  | true, true => [65536, 8192, 1024, 128, 16, 2, 1]

/-- Berths of one area copy (Table 8.6). -/
def Dev.sealArea (d : Dev) (near : Bool) : Nat := ((d.sealLevels near).foldl (· + ·) 0 * 128 + 4095) / 4096

/-- Top level of a subtree (Table 8.6). -/
def Dev.sealTop (d : Dev) (near : Bool) : Nat := (d.sealLevels near).length - 1

/-- Seal index j of a page (R252). -/
def Dev.sealIdx (d : Dev) (near : Bool) (page : Nat) : Nat := (page * 4096) % 2 ^ 28 / 2 ^ d.sealShift near

/-- L0 node of a quad (R252). -/
def Dev.leafOf (d : Dev) (near : Bool) (quad : Nat) : Nat := 2 * d.sealIdx near (quad / 16) + quad / 8 % 2

/-- Area offset of a node (R253). -/
def Dev.nodeOff (d : Dev) (near : Bool) (lvl idx : Nat) : Nat :=
  128 * (idx + ((d.sealLevels near).take lvl).foldl (· + ·) 0)

/-- IV of a quad (Table 8.2). -/
def quadIv (ctr : BitVec 64) (quad : Nat) : Nat := ctr.toNat + quad * 2 ^ 64

/-- Additional data of a quad: its kind, then seven zero bytes (R247). -/
def quadAad (kind : Nat) : List Byte := BitVec.ofNat 8 kind :: List.replicate 7 0#8

/-- MAC of a quad of a kind under a context's key (R247). -/
def Dev.quadMac (d : Dev) (sl ctx : Nat) (ctr : BitVec 64) (quad kind : Nat) (ct : List Byte) : BitVec 64 :=
  gcmMac (d.keysOf sl ctx).1 (quadIv ctr quad) (quadAad kind) ct

/-- IV of a node (Table 8.5). -/
def nodeIv (pctr : BitVec 64) (sl blk lvl idx : Nat) : Nat :=
  pctr.toNat + sl * 2 ^ 64 + blk * 2 ^ 68 + lvl * 2 ^ 85 + idx * 2 ^ 88

/-- The 128 bytes of a node (Table 8.4). -/
def nodeBytes (n : Node) : List Byte := n.flatMap fun e => bytesOf 8 e.1 ++ bytesOf 8 e.2

/-- A node from its bytes. -/
def nodeOfBytes (bs : List Byte) : Node :=
  (List.range 8).map fun k => (ofBytes 64 ((bs.drop (16 * k)).take 8), ofBytes 64 ((bs.drop (16 * k + 8)).take 8))

/-- MAC of a child node under its parent entry's counter (R249). -/
def Dev.nodeMac (d : Dev) (pctr : BitVec 64) (sl blk lvl idx : Nat) (n : Node) : BitVec 64 :=
  gcmMac d.treeKey (nodeIv pctr sl blk lvl idx) (nodeBytes n) []

/-- The fresh image (R250): counters 0 above L0; at L0 counter FLOOR with the kind-00h MAC of the page's context. -/
def Dev.freshNode (d : Dev) (sl blk lvl idx : Nat) (root : Root) : Node :=
  if lvl = 0 then
    let near := d.blockNear blk
    let pages := (List.range (2 ^ (d.sealShift near - 12))).map fun t => blk * 2 ^ 16 + (idx / 2) * 2 ^ (d.sealShift near - 12) + t
    let page := (pages.find? fun p => decide (d.homeOf p = sl)).getD 0
    (List.range 8).map fun k =>
      (root.floor, d.quadMac sl (d.ent page).ctx root.floor (page * 16 + (idx % 2) * 8 + k) 0 [])
  else List.replicate 8 (0#64, 0#64)

/-- The resident seal-cache line of a node. -/
def SealSt.line (s : SealSt) (blk lvl idx : Nat) : Option SLine :=
  s.cache.find? fun l => decide (l.blk = blk ∧ l.lvl = lvl ∧ l.idx = idx)

/-- Put a node into the seal cache, most recently used first. -/
def SealSt.put (s : SealSt) (l : SLine) : SealSt :=
  { s with cache := l :: s.cache.filter fun x => !decide (x.blk = l.blk ∧ x.lvl = l.lvl ∧ x.idx = l.idx) }

/-- Change a slice's seal state. -/
def Dev.modSeal (d : Dev) (sl : Nat) (f : SealSt → SealSt) : Dev := d.modMs sl fun s => { s with sl := f s.sl }

/-- Root entry of a block at a slice. -/
def Dev.root (d : Dev) (sl blk : Nat) : Root := tget {} (d.ms sl).sl.roots blk

/-- Advance a counter under R251: one more, or HW + 1 from 0; HW keeps up. -/
def Dev.advance (d : Dev) (sl : Nat) (c : BitVec 64) : BitVec 64 × Dev :=
  let hw := (d.ms sl).sl.hw
  let n := if c = 0#64 then hw + 1#64 else c + 1#64
  (n, d.modSeal sl fun s => { s with hw := if s.hw.toNat < n.toNat then n else s.hw })

/-- Read the root store of a slice (R254): copies that disagree are rewritten; without majority, Fatal. -/
def Dev.readRoot (d : Dev) (sl blk : Nat) (ph : Phys) : Root × Dev :=
  let (c, inj, d) := d.check [sliceSrc sl 0x25, sliceSrc sl 0x26] ph.root
  (d.root sl blk, match c with
    | .ok => d
    | .transient => d.report { src := sliceSrc sl 0x25, det0 := blk, inj }
    | .lasting => d.report { src := sliceSrc sl 0x26, det0 := blk, inj })

/-- Pages homed at a slice with a quad beneath a node (R264, R265). -/
def Dev.pagesUnder (d : Dev) (sl blk lvl idx : Nat) : List Nat :=
  let near := d.blockNear blk
  let lo := idx * 8 ^ lvl / 2
  let hi := ((idx + 1) * 8 ^ lvl + 1) / 2
  let w := 2 ^ (d.sealShift near - 12)
  ((List.range ((hi - lo) * w)).map fun t => blk * 2 ^ 16 + lo * w + t).filter fun p => decide (d.homeOf p = sl)

/-- Drop a node and everything beneath it from the seal cache. -/
def SealSt.dropUnder (s : SealSt) (blk lvl idx : Nat) : SealSt :=
  { s with cache := s.cache.filter fun x => !(decide (x.blk = blk) && decide (x.lvl ≤ lvl) && decide (x.idx / 8 ^ (lvl - x.lvl) = idx)) }

/-- Set the parent entry of a node: the root entry for the top node, else the entry in the resident parent (R252). -/
def Dev.setParent (d : Dev) (sl blk lvl idx : Nat) (ctr mac : BitVec 64) : Dev :=
  let r := d.root sl blk
  if r.top ≤ lvl then d.modSeal sl fun s => { s with roots := tput {} s.roots blk { r with ctr, mac } }
  else
    match (d.ms sl).sl.line blk (lvl + 1) (idx / 8) with
    | some l => d.modSeal sl (·.put { l with node := l.node.set (idx % 8) (ctr, mac), dirty := true })
    | none => d

/-- A Wharf line of a page whose node is lost (R264 step 3): Clean lines go, Dirty, Writing and Held ones set POIS. -/
def WLine.nodeLost (l : WLine) : Option WLine :=
  match l.st with
  | .clean => none
  | .invalid => some l
  | _ => some { l with pois := true, whole := false }

/-- Poison of Wharf lines of a page when its node is lost (R264 step 3). -/
def Slice.poisonPage (s : Slice) (page : Nat) : Slice :=
  let lines := s.wharf.lines.filterMap fun x =>
    if x.2.addr / 64 = page then x.2.nodeLost.map fun l => (x.1, l) else some x
  { s with wharf := { s.wharf with lines } }

/-- Fresh start beneath a node (R264 step 1, R265): parent entry 0, FLOOR and HW one above HW. -/
def Dev.refresh (d : Dev) (sl blk lvl idx : Nat) : Dev :=
  let d := (d.modSeal sl (·.dropUnder blk lvl idx)).setParent sl blk lvl idx 0#64 0#64
  d.modSeal sl fun s =>
    let f := s.hw + 1#64
    { s with hw := f, roots := tmod {} s.roots blk fun r => { r with floor := f } }

/-- A node is lost: the subtree beneath it is rebuilt (R264). -/
def Dev.loseNode (d : Dev) (sl blk lvl idx : Nat) (inj : Bool) : Dev :=
  let r := d.root sl blk
  let d := d.refresh sl blk lvl idx
  let pages := (d.pagesUnder sl blk lvl idx).filter fun p => (d.ent p).sld
  let d := pages.foldl (fun d p =>
    let d := ((d.setEnt p { d.ent p with qpois := 0xFFFF#16 }).modMs sl (·.unwhole p 0xFFFF#16)).modMs sl (·.poisonPage p)
    (List.range 16).foldl (fun d q => d.poison (p * 4096 + q * 256) poisQuad) d) d
  let d := d.modSeal sl fun s => { s with lost := if s.lost = 0xFFFF#16 then s.lost else s.lost + 1#16 }
  let ctx := (d.ent (pages.headD (blk * 2 ^ 16))).ctx
  let det1 := lvl + idx * 2 ^ 4 + ctx * 2 ^ 20 + r.chA * 2 ^ 34 + r.chB * 2 ^ 38
  let d := d.report { src := sliceSrc sl 0x23, det0 := blk * 2 ^ 28, det1, dpa := some (blk * 2 ^ 28), inj }
  d.evPool .nodeLost [sl, blk, lvl, idx] 1

/-- Write a node to both copies of its area (R257 step 3); a fenced copy is passed over (R301). -/
def Dev.storeNode (d : Dev) (sl blk lvl idx : Nat) (n : Node) (cls : Option Nat) : Dev :=
  let r := d.root sl blk
  let o := d.nodeOff (d.blockNear blk) lvl idx
  let d := if d.chOk r.chA then d.wr r.chA (r.frA * 4096 + o) (nodeBytes n) cls else d
  let d := if d.chOk r.chB then d.wr r.chB (r.frB * 4096 + o) (nodeBytes n) cls else d
  d.bump 0x302 sl 1 none cls

/-- Load a node whose parent entry is known, from the cache, as the fresh image, or from its copies (R250, R256, R263, R266).
Its check fails for good when both copies fail: the subtree is rebuilt and the fresh image results. A copy that stays uncorrectable has its row
queued for soft repair (Table 9.5). -/
def Dev.loadNode (d : Dev) (sl blk lvl idx : Nat) (pctr pmac : BitVec 64) (ph : Phys) (cls : Option Nat) : Node × Dev :=
  let here := decide (ph.nodeLvl = lvl)
  let resident := (d.ms sl).sl.line blk lvl idx
  let fresh := fun (d : Dev) => d.freshNode sl blk lvl idx (d.root sl blk)
  let keep := fun (d : Dev) (n : Node) => (n, d.modSeal sl (·.put { blk, lvl, idx, node := n, dirty := false }))
  let fetch := fun (d : Dev) =>
    if pctr = 0#64 then keep d (fresh d)
    else
      let d := d.bump 0x301 sl 1 none cls
      let r := d.root sl blk
      let o := d.nodeOff (d.blockNear blk) lvl idx
      let tryCopy := fun (d : Dev) (c fr : Nat) (k : Chk) =>
        if !d.chOk c then (none, d)
        else
          let (bs, d) := d.rd c (fr * 4096 + o) 128 cls
          let n := nodeOfBytes bs
          if k = .lasting then (none, d.uelMeta c (fr * 4096 + o) false)
          else if d.nodeMac pctr sl blk lvl idx n ≠ pmac then (none, d)
          else (some n, if k = .transient then d.transient sl else d)
      let (ka, inj, d) := d.check [sliceSrc sl 0x22, sliceSrc sl 0x23] (if here then ph.nodeA else .ok)
      match tryCopy d r.chA r.frA ka with
      | (some n, d) => keep d n
      | (none, d) =>
        let (kb, injB, d) := d.check [sliceSrc sl 0x22, sliceSrc sl 0x23] (if here then ph.nodeB else .ok)
        match tryCopy d r.chB r.frB kb with
        | (some n, d) =>
          let d := if d.chOk r.chA then
              (d.wr r.chA (r.frA * 4096 + o) (nodeBytes n) cls).report
                { src := sliceSrc sl 0x22, det0 := blk * 2 ^ 28, det1 := d.detA (blk * 2 ^ 28), dpa := some (blk * 2 ^ 28), inj }
            else d
          keep d n
        | (none, d) =>
          let d := d.loseNode sl blk lvl idx (inj || injB)
          keep d (fresh d)
  match resident with
  | some l =>
    if here && ph.sealc then
      if l.dirty then
        let d := d.loseNode sl blk lvl idx false
        keep d (fresh d)
      else fetch ((d.modSeal sl (·.dropUnder blk lvl idx)).report { src := sliceSrc sl 0x24, det0 := idx })
    else (l.node, d.modSeal sl (·.put l))
  | none => fetch d

/-- Load the chain of nodes from the top down to a node (R256); `n` levels remain. -/
def Dev.loadChain (d : Dev) (sl blk : Nat) (ph : Phys) (cls : Option Nat) (leaf : Nat) : Nat → Nat → BitVec 64 → BitVec 64 → Node × Dev
  | 0, lvl, pc, pm => d.loadNode sl blk lvl (leaf / 8 ^ lvl) pc pm ph cls
  | n + 1, lvl, pc, pm =>
    let (node, d) := d.loadNode sl blk lvl (leaf / 8 ^ lvl) pc pm ph cls
    let e := node.getD (leaf / 8 ^ (lvl - 1) % 8) (0#64, 0#64)
    d.loadChain sl blk ph cls leaf n (lvl - 1) e.1 e.2

/-- The L0 node of a quad (R258). -/
def Dev.leafNode (d : Dev) (sl quad : Nat) (ph : Phys) (cls : Option Nat) : Node × Dev :=
  let blk := quad / 2 ^ 20
  let (r, d) := d.readRoot sl blk ph
  d.loadChain sl blk ph cls (d.leafOf (d.blockNear blk) quad) r.top r.top r.ctr r.mac

/-- Clean a dirty node (R257): parent counter advanced, MAC computed, both copies written, parent dirty. -/
def Dev.cleanNode (d : Dev) (sl blk lvl idx : Nat) (cls : Option Nat) : Dev :=
  match (d.ms sl).sl.line blk lvl idx with
  | none => d
  | some l =>
    if !l.dirty then d
    else
      let r := d.root sl blk
      let pc := if r.top ≤ lvl then r.ctr
        else match (d.ms sl).sl.line blk (lvl + 1) (idx / 8) with
          | some p => (p.node.getD (idx % 8) (0#64, 0#64)).1
          | none => 0#64
      let (c, d) := d.advance sl pc
      let d := d.setParent sl blk lvl idx c (d.nodeMac c sl blk lvl idx l.node)
      (d.storeNode sl blk lvl idx l.node cls).modSeal sl (·.put { l with dirty := false })

/-- Evict seal-cache lines beyond 8,192: a line none of whose children is resident, cleaned first (R256, R257; log 9). -/
def Dev.trimSeal (d : Dev) (sl : Nat) : Dev :=
  let s := (d.ms sl).sl
  if s.cache.length + (d.ms sl).sealBad ≤ 8192 then d
  else
    let leafs := s.cache.filter fun l => !(s.cache.any fun c => decide (c.blk = l.blk ∧ c.lvl + 1 = l.lvl ∧ c.idx / 8 = l.idx))
    match leafs[Config.sealVictim d.draws % max 1 leafs.length]? with
    | none => d
    | some l => ({ d with draws := d.draws + 1 }.cleanNode sl l.blk l.lvl l.idx none).modSeal sl (·.dropUnder l.blk l.lvl l.idx)

/-- Allocate the two area copies of a subtree (R253): none when they cannot be placed. -/
def Dev.allocArea (d : Dev) (sl blk : Nat) (bal : Bool) : Option Dev :=
  let near := d.blockNear blk
  let need := Need.area (d.sealArea near)
  match d.choose sl need bal with
  | none => none
  | some a =>
    let ((fa, _), d) := d.take a need
    match d.choose (partner a) need bal [a] with
    | none => none
    | some b =>
      let ((fb, _), d) := d.take b need
      some (d.modSeal sl fun s =>
        { s with roots := tmod {} s.roots blk fun r => { r with st := 2#2, chA := a, frA := fa, chB := b, frB := fb } })

/-- The counter of a quad's next placement, taken and written with its MAC into the L0 entry (R248, R258). -/
def Dev.sealWrite (d : Dev) (sl quad ctx kind : Nat) (enc : BitVec 64 → List Byte) (ph : Phys) (cls : Option Nat) : List Byte × Dev :=
  let blk := quad / 2 ^ 20
  let (node, d) := d.leafNode sl quad ph cls
  let k := quad % 8
  let (c, d) := d.advance sl (node.getD k (0#64, 0#64)).1
  let ct := enc c
  let leaf := d.leafOf (d.blockNear blk) quad
  let n := node.set k (c, d.quadMac sl ctx c quad kind ct)
  (ct, (d.modSeal sl (·.put { blk, lvl := 0, idx := leaf, node := n, dirty := true })).trimSeal sl)

/-- The subtree of a block at a slice has an area (R253). -/
def Dev.hasArea (d : Dev) (sl blk : Nat) : Bool := (d.root sl blk).st == 2#2

/-- Encrypt a data unit of a quad under an Open context (R246). -/
def Dev.encOpen (d : Dev) (sl ctx quad : Nat) (pt : List Byte) : List Byte :=
  xts true (d.keysOf sl ctx).1 (d.keysOf sl ctx).2 quad pt

/-- Decrypt a data unit of a quad under an Open context (R246). -/
def Dev.decOpen (d : Dev) (sl ctx quad : Nat) (ct : List Byte) : List Byte :=
  xts false (d.keysOf sl ctx).1 (d.keysOf sl ctx).2 quad ct

/-- The check of an entry against the tree when a page-map-cache slot is filled (R259), of what the stored state can show:
a SEALED entry needs a root entry and an Enabled Sealed context, and a Z one has kind 00h in every L0 entry. -/
def Dev.sealEntryOk (d : Dev) (sl page : Nat) (ph : Phys) (cls : Option Nat) : Bool × Dev :=
  let e := d.ent page
  let blk := pageBlock page
  if (d.root sl blk).st = 0#2 then (!e.sld, d)
  else if !e.sld then (true, d)
  else
    let c := tget {} d.ctx e.ctx
    let (n0, d) := d.leafNode sl (page * 16) ph cls
    let (n1, d) := d.leafNode sl (page * 16 + 8) ph cls
    let kind0 := e.form ≠ .z || ((List.range 16).all fun q =>
      e.qpois.getLsbD q ||
        (let x := (if q < 8 then n0 else n1).getD (q % 8) (0#64, 0#64)
         decide (x.2 = d.quadMac sl e.ctx x.1 (page * 16 + q) 0 [])))
    (decide (c.st = .enabled) && c.sld && kind0, d)

end Sys2Proof.Machine
end

