-- ==== Sys2Proof/Machine/Shares.lean ====
section
/-! DEFINITION. Service-class shares: records, admission sums, scaling and the effective fractions (R308 to R318). -/
namespace Sys2Proof.Machine

/-- The record of a class as the units apply it (R309). -/
def Qos.cls (q : Qos) (c : Nat) : ClassRec :=
  match tget none q.recs c with
  | some r => r
  | none => if c = 0 then ClassRec.zero else {}

/-- The record of a class with admitted changes counted (R315). -/
def Qos.next (q : Qos) (c : Nat) : ClassRec :=
  match tget none q.pend c with
  | some r => r
  | none => q.cls c

/-- The three resources (Table 10.1). -/
inductive Res where
  | w | q | i
  deriving DecidableEq, Repr

/-- Guarantee (or SC00 ceiling) of a class for a resource. -/
def ClassRec.g (r : ClassRec) : Res → Nat
  | .w => r.gw
  | .q => r.gq
  | .i => r.gi

/-- Maximum of a class for a resource. -/
def ClassRec.x (r : ClassRec) : Res → Nat
  | .w => r.xw
  | .q => r.xq
  | .i => r.xi

/-- Classes named by a landing's VALID label entries (R315). -/
def Landing.classes (l : Landing) : List Nat :=
  (((List.range 16).map fun k => tget {} l.acc.lbl k).filter (·.valid)).map (·.sc.toNat) |>.eraseDups

/-- Classes that R315 counts for a resource: all of SC01 to SC63, or those mapped at the landing. -/
def Dev.counted (d : Dev) (r : Res) (ld : Nat) : List Nat :=
  match r with
  | .i => (d.ld ld).classes.filter (· ≠ 0)
  | _ => (List.range 64).drop 1

/-- SC00's ceiling as R315 counts it: for ingress, only where some label maps to SC00. -/
def Dev.ceiling (d : Dev) (rc : Nat → ClassRec) (r : Res) (ld : Nat) : Nat :=
  match r with
  | .i => if 0 ∈ (d.ld ld).classes then (rc 0).g .i else 0
  | _ => (rc 0).g r

/-- S: sum of the guarantees counted (R315, R318). -/
def Dev.sumG (d : Dev) (rc : Nat → ClassRec) (r : Res) (ld : Nat) : Nat :=
  (d.counted r ld).foldl (fun s c => s + (rc c).g r) 0

/-- Effective guarantee Ge, or C0e for SC00 (R318). -/
def effG (c0 s dl g : Nat) (isZero : Bool) : Nat :=
  if c0 + s ≤ dl then (if isZero then c0 else g)
  else
    let c0e := min c0 dl
    if isZero then c0e else if s = 0 then 0 else g * (dl - c0e) / s

/-- D of a resource as the units apply it. -/
def Dev.deliv (d : Dev) (r : Res) (ld : Nat) : Nat :=
  match r with
  | .w => d.qos.dw
  | .q => d.qos.dq
  | .i => tget 1024 d.qos.di ld

/-- Effective guarantee of a class for a resource, in 1/1024 of N (R318). -/
def Dev.ge (d : Dev) (r : Res) (ld c : Nat) : Nat :=
  let dl := d.deliv r ld
  if dl = 0 then 0
  else effG (d.ceiling d.qos.cls r ld) (d.sumG d.qos.cls r ld) dl ((d.qos.cls c).g r) (decide (c = 0))

/-- Effective maximum of a class for a resource, in 1/1024 of N (R318). -/
def Dev.xe (d : Dev) (r : Res) (ld c : Nat) : Nat :=
  let dl := d.deliv r ld
  if c = 0 then d.ge r ld 0 else min ((d.qos.cls c).x r) dl

/-- Fraction of a unit's own resource guaranteed to a class, in 1/1024 (R318). -/
def Dev.eG (d : Dev) (r : Res) (ld c : Nat) : Nat :=
  let dl := d.deliv r ld
  if dl = 0 then 0 else d.ge r ld c * 1024 / dl

/-- Maximum fraction of a unit's own resource for a class, in 1/1024 (R318). -/
def Dev.eX (d : Dev) (r : Res) (ld c : Nat) : Nat :=
  let dl := d.deliv r ld
  if dl = 0 then 0 else d.xe r ld c * 1024 / dl

end Sys2Proof.Machine
end

