-- ==== Sys2Proof/Machine/WharfOps.lean ====
section
/-! DEFINITION. The Wharf: sets, lookup, victims, installing, pins, parity of a location (R168 to R188). -/
namespace Sys2Proof.Machine

/-- Set of a line DPA[44:6] (R169). -/
def wSet (line : Nat) : Nat :=
  let a := line * 64
  let h := bits a 8 12 ^^^ bits a 20 12 ^^^ bits a 32 12 ^^^ bits a 44 1
  h * 4 + bits a 6 2

/-- Cache ways of a slice (R170). -/
def Wharf.cacheWays (w : Wharf) : List Nat := (List.range (16 - w.m)).drop w.f

/-- Number of cache ways C (Table 6.7). -/
def Wharf.nWays (w : Wharf) : Nat := 16 - w.m - w.f

/-- PINMAX (Table 6.7, R187). -/
def Wharf.pinMax (w : Wharf) : Nat := w.nWays / 2

/-- A way of a set. -/
def Wharf.at (w : Wharf) (set way : Nat) : WLine := tget {} w.lines (16 * set + way)

/-- The key of a line in the Wharf slice. -/
def Wharf.find (w : Wharf) (line : Nat) : Option Nat :=
  ((List.range 16).find? fun i => decide ((w.at (wSet line) i).st ≠ .invalid) && decide ((w.at (wSet line) i).addr = line)).map
    (16 * wSet line + ·)

/-- The line at a key. -/
def Wharf.get (w : Wharf) (k : Nat) : WLine := tget {} w.lines k

/-- Put a line at a key. -/
def Wharf.put (w : Wharf) (k : Nat) (l : WLine) : Wharf := { w with lines := tput {} w.lines k l }

/-- Change a slice's Wharf. -/
def Dev.modW (d : Dev) (sl : Nat) (f : Wharf → Wharf) : Dev := d.modMs sl fun s => { s with wharf := f s.wharf }

/-- Lines of a class in the cache ways of a slice (R174). -/
def Wharf.occ (w : Wharf) (c : Nat) : Nat :=
  (w.lines.filter fun x => decide (x.2.st ≠ .invalid) && decide (x.2.cls = c)).length

/-- Cache-way lines of a slice. -/
def Wharf.total (w : Wharf) : Nat := 16384 * w.nWays

/-- g[c] of a slice in lines (R175, R318). -/
def Dev.wG (d : Dev) (w : Wharf) (c : Nat) : Nat := d.eG .w 0 c * w.total / 1024

/-- x[c] of a slice in lines, rounded up as R311 rounds entries (R175, R318; log 10). -/
def Dev.wX (d : Dev) (w : Wharf) (c : Nat) : Nat := (d.eX .w 0 c * w.total + 1023) / 1024

/-- Lines dirty in a slice: Dirty, Writing or Held (Table 6.8). -/
def WSt.isDirty : WSt → Bool
  | .dirty => true
  | .writing => true
  | .held => true
  | _ => false

/-- STAT.DIRTY (Table 6.8). -/
def Wharf.dirtyCount (w : Wharf) : Nat := (w.lines.filter fun x => x.2.st.isDirty).length

/-- STAT.PINNED (Table 6.8). -/
def Wharf.pinCount (w : Wharf) : Nat := (w.lines.filter fun x => x.2.pin).length

/-- Pinned lines of a set (R187). -/
def Wharf.setPins (w : Wharf) (set : Nat) : Nat := (w.cacheWays.filter fun i => (w.at set i).pin).length

/-- Replacement candidates of a set, by way (R175). -/
def Wharf.cands (w : Wharf) (set : Nat) : List Nat :=
  w.cacheWays.filter fun i =>
    let l := w.at set i
    !l.pin && !decide ((16 * set + i) ∈ w.disabled) && decide (l.st = .invalid ∨ l.st = .clean ∨ l.st = .dirty)

/-- Oldest line of a pool: raise every AGE of the set until one of the pool reaches 7 (R175). -/
def Wharf.oldest (w : Wharf) (set : Nat) (pool : List Nat) : Option Nat × Wharf :=
  let top := pool.foldl (fun m i => max m (w.at set i).age) 0
  let w' := w.cacheWays.foldl (fun v i =>
    let l := v.at set i
    if l.st = .invalid then v else v.put (16 * set + i) { l with age := min 7 (l.age + (7 - top)) }) w
  (pool.find? fun i => decide ((w'.at set i).age = 7), w')

/-- The victim a fill of class `c` takes in a set (R175): none when no victim exists. -/
def Dev.victim (d : Dev) (w : Wharf) (set c : Nat) : Option Nat × Wharf :=
  let cand := w.cands set
  let inv := cand.filter fun i => (w.at set i).st == .invalid
  let valid := cand.filter fun i => (w.at set i).st != .invalid
  let ovr := valid.filter fun i => decide (d.wG w (w.at set i).cls < w.occ (w.at set i).cls)
  let own := valid.filter fun i => (w.at set i).cls == c
  let occ := w.occ c
  let pool :=
    if occ < d.wG w c then cand.filter fun i => decide (i ∈ inv ∨ i ∈ ovr)
    else if occ < d.wX w c then cand.filter fun i => decide (i ∈ inv ∨ i ∈ ovr ∨ i ∈ own)
    else own
  let pool := if pool.isEmpty && decide (occ < d.wX w c) then cand else pool
  match pool.find? fun i => (w.at set i).st == .invalid with
  | some i => (some i, w)
  | none => w.oldest set pool

/-- The line a write takes when R175 gives its class none: the lowest candidate of a class above its guarantee,
or the oldest candidate (R177); an Invalid way, which has no age, only where the set has no other candidate (R179). -/
def Dev.writeVictim (d : Dev) (w : Wharf) (set c : Nat) : Option Nat × Wharf :=
  match d.victim w set c with
  | (some i, w') => (some i, w')
  | (none, _) =>
    let cand := w.cands set
    match cand.find? fun i => decide ((w.at set i).st ≠ .invalid) && decide (d.wG w (w.at set i).cls < w.occ (w.at set i).cls) with
    | some i => (some i, w)
    | none => match w.oldest set cand with
      | (some i, w') => (some i, w')
      | (none, _) => (cand.head?, w)

/-- Drop a pin and count it (R188). -/
def pinLossMax : Nat := 0x7FFFFFFF

/-- The line leaves its way; a pin goes with it and is counted unless told otherwise (R188). -/
def Dev.invalidate (d : Dev) (sl k : Nat) (count : Bool := true) : Dev :=
  let l := (d.ms sl).wharf.get k
  let d := d.modW sl fun w => w.put k {}
  if l.pin && count then { d with pinLoss := satAdd pinLossMax d.pinLoss 1 } else d

/-- After a parity error, the location is written and read back (R186): a lasting one is disabled, a 257th fences the slice.
A line that is not Clean stays in its way until its writeback. -/
def Dev.testLocation (d : Dev) (sl k : Nat) (bad keep : Bool) : Dev :=
  if !bad then d
  else if k ∈ (d.ms sl).wharf.disabled then d
  else if 256 ≤ (d.ms sl).wharf.disabled.length then
    d.report { src := sliceSrc sl 0x19, det0 := k }
  else
    (d.modW sl fun w =>
      { w with disabled := w.disabled ++ [k], lines := if keep then w.lines else tput {} w.lines k {} }).report
      { src := sliceSrc sl 0x18, det0 := k }

/-- The tag and state copies of a way are both uncorrectable twice (R172): Fatal, and the Wharf slice is fenced. -/
def Dev.tagCheck (d : Dev) (sl line : Nat) (ph : Phys) : Dev :=
  let (c, inj, d) := d.check [sliceSrc sl 0x1A, sliceSrc sl 0x1B] ph.tag
  match c with
  | .ok => d
  | .transient => d.report { src := sliceSrc sl 0x1A, det0 := wSet line, inj }
  | .lasting =>
    let d := d.report { src := sliceSrc sl 0x1B, det0 := wSet line, inj }
    { d with fenceQ := d.fenceQ ++ [{ target := .wharf, inst := sl, sub := 1 }] }

/-- Read a line's data with its parity check (R184, R185): the state afterwards and whether the line is still there. -/
def Dev.parityRead (d : Dev) (sl k : Nat) (ph : Phys) : Bool × Dev :=
  let l := (d.ms sl).wharf.get k
  let (c, inj, d) := d.check [sliceSrc sl 0x16, sliceSrc sl 0x17] (if ph.par then .transient else .ok)
  if c = .ok then (true, d)
  else
    let dpa := l.addr * 64
    if l.st = .clean then
      let d := (d.invalidate sl k).report { src := sliceSrc sl 0x16, det0 := dpa, det1 := d.detA dpa, dpa := some dpa, inj }
      (false, d.testLocation sl k ph.locBad false)
    else
      let d := (d.modW sl fun w => w.put k { l with pois := true, whole := false }).report
        { src := sliceSrc sl 0x17, det0 := dpa, det1 := d.detA dpa, dpa := some dpa, inj }
      (true, (d.poison dpa poisLine).testLocation sl k ph.locBad true)

end Sys2Proof.Machine
end

