-- ==== Sys2Proof/Machine/Fetch.lean ====
section
/-! DEFINITION. Page-map-cache lookups with tallies, and reading a stored quad: header, ECC, cipher, MAC and decode (R120 to R127, R138 to R158, R258 to R262, R292). -/
namespace Sys2Proof.Machine

/-- Set of a page in the page-map cache (R120). -/
def pmcSetOf (page : Nat) : Nat := Config.pmcSet page % 2048

/-- Key of the slot that holds a page. -/
def Slice.pmcFind (s : Slice) (page : Nat) : Option Nat :=
  ((s.pmc.find? fun x => x.2.valid && decide (x.2.page = page)).map (·.1))

/-- Write TALLY and TEPOCH of a dirty slot back to both entry copies (R121). -/
def Dev.flushSlot (d : Dev) (sl k : Nat) : Dev :=
  let x := tget {} (d.ms sl).pmc k
  if x.valid && x.dirty then
    let d := d.setEnt x.page { d.ent x.page with tally := x.tally, tepoch := x.tepoch }
    d.modMs sl fun s => { s with pmc := tput {} s.pmc k { x with dirty := false, since := 0 } }
  else d

/-- Fill a slot for a page, evicting under pseudo-LRU (R120, R121). -/
def Dev.pmcFill (d : Dev) (sl page : Nat) : Dev :=
  let set := pmcSetOf page
  let good := (List.range 16).filter fun i => decide (16 * set + i ∉ (d.ms sl).pmcBad)
  let free := good.find? fun i => !(tget {} (d.ms sl).pmc (16 * set + i)).valid
  let (way, d) := match free with
    | some i => (i, d)
    | none => (good.getD (Config.pmcWay d.draws % max 1 good.length) 0, { d with draws := d.draws + 1 })
  let d := d.flushSlot sl (16 * set + way)
  let e := d.ent page
  if good.isEmpty then d else d.modMs sl fun s =>
    { s with pmc := tput {} s.pmc (16 * set + way) { page, valid := true, tally := e.tally, tepoch := e.tepoch } }

/-- Count one access in a page's tally (R126, R127). -/
def Dev.countTally (d : Dev) (sl page : Nat) : Dev :=
  match (d.ms sl).pmcFind page with
  | none => d
  | some k =>
    let ep := (d.ms sl).epoch
    d.modMs sl fun s =>
      { s with pmc := tmod {} s.pmc k fun x =>
                 { x with tally := if x.tepoch = ep then (if x.tally = 0xFF#8 then 0xFF#8 else x.tally + 1#8) else 1#8
                          tepoch := ep, dirty := true, since := x.since + 1 } }

/-- The entry with the tally its slot holds. -/
def Dev.entNow (d : Dev) (sl page : Nat) : PEnt :=
  match (d.ms sl).pmcFind page with
  | some k =>
    let x := tget {} (d.ms sl).pmc k
    { d.ent page with tally := x.tally, tepoch := x.tepoch }
  | none => d.ent page

/-- Look up a page's entry through the page-map cache (R120 to R122, R259, R119): none when it cannot be located.
The Bool says whether the cache hit. -/
def Dev.pmLookup (d : Dev) (sl page : Nat) (ph : Phys) (cls : Option Nat) : (Option PEnt × Bool) × Dev :=
  let reload := fun (d : Dev) =>
    let d := d.bump 0x201 sl 1 none cls
    match d.readEnt sl page ph with
    | (none, d) => ((none, false), d)
    | (some _, d) =>
      let d := d.touchFenced sl page
      let (ok, d) := d.sealEntryOk sl page ph cls
      let d := if ok then d else d.loseEntry sl page false
      let d := d.pmcFill sl page
      ((some (d.entNow sl page), false), d)
  match (d.ms sl).pmcFind page with
  | none => reload d
  | some k =>
    let (c, inj, d) := d.check [sliceSrc sl 0x0E] (if ph.pmc then .transient else .ok)
    if c = .ok then
      let d := d.touchFenced sl page
      ((some (d.entNow sl page), true), d)
    else
      let lost := (tget {} (d.ms sl).pmc k).since
      let d := d.modMs sl fun s =>
        { s with pmc := tput {} s.pmc k {}, tallyLoss := if lost = 0 then s.tallyLoss else s.tallyLoss + 1 }
      let d := if lost = 0 then d else d.bump 0x204 sl 1 none cls
      reload (d.report { src := sliceSrc sl 0x0E, det0 := k, inj })

/-- Byte address of an allocation on its channel (R138). -/
def PEnt.base (e : PEnt) : Nat := e.frame * 4096 + e.goff * 512

/-- A stow header is lost (R141). -/
def Dev.loseHeader (d : Dev) (sl page : Nat) (ecc inj : Bool) : Dev :=
  let e := d.ent page
  let d := (d.setEnt page (e.toZ 0xFFFF#16)).modMs sl (·.unwhole page 0xFFFF#16)
  let d := d.report { src := sliceSrc sl 0x0F, det0 := page * 4096, det1 := e.ctx * 2 ^ 4, dpa := some (page * 4096), inj }
  if ecc then d.uel e.chan e.base page inj else d

/-- Load and check the stow header of a K page (R141): none when the page has become Z. -/
def Dev.header (d : Dev) (sl page : Nat) (ph : Phys) (cls : Option Nat) : Option Stow × Dev :=
  let e := d.ent page
  let (bs, d) := d.rd e.chan e.base 32 cls
  let (c, inj, d) := d.check [sliceSrc sl 0x0F] ph.hdr
  match Stow.parse bs page e.gm1 with
  | none => (none, d.loseHeader sl page false inj)
  | some h =>
    match c with
    | .ok => (some h, d)
    | .transient =>
      let d := d.transient sl
      (some h, if ph.hdrEcc then d.uet e.chan e.base (page * 4096) inj else d)
    | .lasting => (none, d.loseHeader sl page ph.hdrEcc inj)

/-- The key-table slot is checked on use (R244). -/
def Dev.keyCheck (d : Dev) (sl ctx : Nat) (ph : Phys) : Dev :=
  let (c, inj, d) := d.check [sliceSrc sl 0x0A, sliceSrc sl 0x0B] ph.key
  match c with
  | .ok => d
  | .transient => (d.transient sl).report { src := sliceSrc sl 0x0A, det0 := ctx, inj }
  | .lasting =>
    if 0 < (d.ms sl).sl.spare then
      (d.modSeal sl fun s => { s with spare := s.spare - 1, remap := s.remap ++ [ctx] }).report
        { src := sliceSrc sl 0x0A, det0 := ctx, inj }
    else d.report { src := sliceSrc sl 0x0B, det0 := ctx, inj }

/-- A stored quad whose key-table slot failed its check while the Tollhouse restarts (R244): the reload waits, and its requests with it. -/
def Dev.keyWaits (d : Dev) (sl quad : Nat) (ph : Phys) : Bool × Dev :=
  let c := (d.entNow sl (quad / 16)).ctx
  if c ∈ (d.ms sl).sl.reload then (true, d)
  else if d.tlhBusy && ph.key != .ok then (true, d.modSeal sl fun s => { s with reload := s.reload ++ [c] })
  else (false, d)

/-- What reading a stored quad gives: its data, whether it is poison. -/
structure QData where
  data : Quad := 0#2048
  pois : Bool := false

/-- Poisoned data: the bytes are left open. -/
def Dev.poisoned (d : Dev) : QData × Dev :=
  let l := fun i => Config.poisonLine (d.draws + i)
  ({ data := Quad.ofLines (l 0) (l 1) (l 2) (l 3), pois := true }, { d with draws := d.draws + 4 })

/-- A loss at quad granularity: QPOIS in both copies, poison lists, then poison (R105, R157, R261, R292). -/
def Dev.loseQuad (d : Dev) (sl quad : Nat) : Dev :=
  (d.setQpois sl (quad / 16) (BitVec.ofNat 16 (2 ^ (quad % 16)))).poison (quad * 256) poisQuad

/-- Count a lasting MAC failure (Table 8.11). -/
def SealSt.addMacfail (s : SealSt) : SealSt := { s with macfail := if s.macfail = 0xFFFF#16 then s.macfail else s.macfail + 1#16 }

/-- Decrypt and, for a Sealed context, verify a quad's stored bytes of a kind (R246, R247, R258, R261). None is a lasting MAC failure. -/
def Dev.openUnit (d : Dev) (sl quad : Nat) (e : PEnt) (kind : Nat) (ct : List Byte) (ph : Phys) (cls : Option Nat) : Option (List Byte) × Dev :=
  let d := d.keyCheck sl e.ctx ph
  if !e.sld then (some (d.decOpen sl e.ctx quad ct), d)
  else
    let (node, d) := d.leafNode sl quad ph cls
    let x := node.getD (quad % 8) (0#64, 0#64)
    let (c, inj, d) := d.check [sliceSrc sl 0x20, sliceSrc sl 0x21] ph.mac
    let good := decide (d.quadMac sl e.ctx x.1 quad kind ct = x.2)
    let det1 := quad % 16 + e.ctx * 2 ^ 4
    if c = .lasting ∨ !good then
      let d := (d.loseQuad sl quad).modSeal sl (·.addMacfail)
      let d := d.report { src := sliceSrc sl 0x21, det0 := quad / 16 * 4096, det1, dpa := some (quad * 256), inj }
      (none, d.evPool .integrity [sl, quad * 256, e.ctx] 1)
    else
      let d := if c = .transient then
          (d.transient sl).report { src := sliceSrc sl 0x20, det0 := quad / 16 * 4096, det1, dpa := some (quad * 256), inj }
        else d
      (some (gcmCrypt (d.keysOf sl e.ctx).1 (quadIv x.1 quad) ct), d)

/-- Unit code of the lane that decodes first: DEC0 unless fenced (R157; log 11); none when both are fenced (R158). -/
def Slice.lane (s : Slice) : Option Nat := if !s.dec0F then some 0x16 else if !s.dec1F then some 0x17 else none

/-- Decode a slot of code 1 to 7 (R157, R158): none is poison. -/
def Dev.decodeIn (d : Dev) (sl quad : Nat) (e : PEnt) (pt : List Byte) (ph : Phys) : Option Quad × Dev :=
  match (d.ms sl).lane with
  | none => (none, d)
  | some unit =>
    let (c, inj, d) := d.check [sliceSrc sl 0x12, sliceSrc sl 0x13] ph.dec
    let det1 := quad % 16 + e.ctx * 2 ^ 4
    let rep : Rep := { src := sliceSrc sl 0x12, det0 := quad / 16 * 4096, det1, unit := some unit, dpa := some (quad * 256), inj }
    match decodeSlot pt, c with
    | some q, .ok => (some q, d)
    | some q, .transient => (some q, (d.transient sl).report rep)
    | _, _ =>
      let d := d.loseQuad sl quad
      let d := d.modMs sl fun s => { s with decerr := if s.decerr = 0xFF#8 then s.decerr else s.decerr + 1#8 }
      (none, d.report { rep with src := sliceSrc sl 0x13 })

/-- Read the bytes of a data unit with ECC (R291 to R293): none is poison. -/
def Dev.readUnit (d : Dev) (sl quad c off len : Nat) (ph : Phys) (cls : Option Nat) : Option (List Byte) × Dev :=
  let page := quad / 16
  let (bs, d) := d.rd c off len cls
  let off := burstOff off len ph.burst
  let d := if 0 < ph.fixed then d.corrected c off (page * 4096) false else d
  let (k, inj, d) := d.check [sliceSrc c 0x02, sliceSrc c 0x01] ph.ecc
  if ph.stored then (none, d)
  else
    match k with
    | .ok => (some bs, d)
    | .transient => (some bs, d.uet c off (page * 4096) inj)
    | .lasting => (none, (d.loseQuad sl quad).uel c off page inj)

/-- Turn a missing result into poison. -/
def Dev.orPoison (d : Dev) : Option Quad → QData × Dev
  | some q => ({ data := q }, d)
  | none => d.poisoned

/-- Read a quad of a page through steps 5 to 10 of Table 1.5 (R26, R28): zeros of a Z page or a code-0 quad, else the stored bytes
corrected, verified, decrypted and decoded; poison when its QPOIS bit is set (R105), as it is once the page's channel is fenced (R119). -/
def Dev.fetchQuad (d : Dev) (sl quad : Nat) (ph : Phys) (cls : Option Nat) : QData × Dev :=
  let page := quad / 16
  let d := d.touchFenced sl page
  let q := quad % 16
  let e := d.ent page
  if e.qpois.getLsbD q then d.poisoned
  else
    match e.form with
    | .z => ({}, d)
    | .p =>
      match d.readUnit sl quad e.chan (e.frame * 4096 + q * 256) 256 ph cls with
      | (none, d) => d.poisoned
      | (some ct, d) =>
        match d.openUnit sl quad e 8 ct ph cls with
        | (none, d) => d.poisoned
        | (some pt, d) => ({ data := ofBytes 2048 pt }, d)
    | .k =>
      match d.header sl page ph cls with
      | (none, d) => d.poisoned
      | (some h, d) =>
        let code := h.codes.getD q 0
        if code = 0 then
          (if e.sld then
            (match d.openUnit sl quad e 0 [] ph cls with
             | (none, d) => d.poisoned
             | (some _, d) => ({}, d))
           else ({}, d))
        else
          match d.readUnit sl quad e.chan (e.base + slotOff h.codes q) (slotSize code) ph cls with
          | (none, d) => d.poisoned
          | (some ct, d) =>
            match d.openUnit sl quad e code ct ph cls with
            | (none, d) => d.poisoned
            | (some pt, d) =>
              if code = 8 then ({ data := ofBytes 2048 pt }, d)
              else
                let (r, d) := d.decodeIn sl quad e pt ph
                d.orPoison r

/-- The quad needs a DRAM data access: its page is P, or K with a slot for it (R28). -/
def Dev.isStored (d : Dev) (quad : Nat) : Bool :=
  let e := d.ent (quad / 16)
  match e.form with
  | .z => false
  | .p => true
  | .k =>
    match Stow.parse (memRead d.mem (chBase e.chan + e.base) 32) (quad / 16) e.gm1 with
    | none => true
    | some h => decide (h.codes.getD (quad % 16) 0 ≠ 0)

end Sys2Proof.Machine
end

