-- ==== Sys2Proof/Machine/Place.lean ====
section
/-! DEFINITION. Placing quads: encryption, in-place stores, first allocations, restow, promotion, capacity poison (R105 to R108, R134, R135, R148 to R158, R248, R253). -/
namespace Sys2Proof.Machine

/-- One quad of a placement. -/
structure PQuad where
  quad : Nat
  data : Quad
  /-- the quad holds a poisoned line -/
  pois : Bool
  /-- all four lines were written by hosts since the QPOIS bit was set -/
  whole : Bool

/-- A quad of a held writeback as a placement takes it. -/
def PQuad.ofHeld (h : Nat × Quad × Bool × Bool) : PQuad := { quad := h.1, data := h.2.1, pois := h.2.2.1, whole := h.2.2.2 }

/-- The form in which a held writeback keeps a quad. -/
def PQuad.toHeld (p : PQuad) : Nat × Quad × Bool × Bool := (p.quad, p.data, p.pois, p.whole)

/-- Number of a quad within its page. -/
def PQuad.q (p : PQuad) : Nat := p.quad % 16

/-- Encrypt one data unit of a quad, advancing its counter in a Sealed context (R246 to R248, R258). -/
def Dev.sealUnit (d : Dev) (sl : Nat) (e : PEnt) (quad kind : Nat) (pt : List Byte) (ph : Phys) (cls : Option Nat) : List Byte × Dev :=
  if e.sld then
    let k := (d.keysOf sl e.ctx).1
    d.sealWrite sl quad e.ctx kind (fun c => gcmCrypt k (quadIv c quad) pt) ph cls
  else (d.encOpen sl e.ctx quad pt, d)

/-- Encrypt and write one data unit to its place (R34 steps 3 and 5). -/
def Dev.storeUnit (d : Dev) (sl : Nat) (e : PEnt) (quad kind c off : Nat) (pt : List Byte) (ph : Phys) (cls : Option Nat) : Dev :=
  let (ct, d) := d.sealUnit sl e quad kind pt ph cls
  if ct.isEmpty then d else d.wr c off ct cls

/-- QPOIS after a quad is placed (R105, R185): set by poison, cleared when hosts wrote all four lines since it was set, else kept. -/
def qpoisAfter (m : BitVec 16) (p : PQuad) : BitVec 16 :=
  if p.pois then setBit m p.q true else if p.whole then setBit m p.q false else m

/-- Write the QPOIS bits of a placement to both entry copies. -/
def Dev.placeQpois (d : Dev) (page : Nat) (ps : List PQuad) : Dev :=
  let e := d.ent page
  let m := ps.foldl qpoisAfter e.qpois
  if m = e.qpois then d else d.setEnt page { e with qpois := m }

/-- The compressor is out of use: CMP fenced, or both decompression lanes (R156, R158). -/
def Slice.noCmp (s : Slice) : Bool := s.cmpF || (s.dec0F && s.dec1F)

/-- Needed code of a quad at a slice (R146, R156). -/
def Slice.need (s : Slice) (raw : Bool) (q : Quad) : Nat := if raw || s.noCmp then 8 else neededCode q

/-- Verification of the streams of a placement (R156): true when the quads go raw, as the second encoding failed too. -/
def Dev.cmpVerify (d : Dev) (sl page : Nat) (any : Bool) (ph : Phys) : Bool × Dev :=
  if !any || (d.ms sl).noCmp then (false, d)
  else
    let (c, inj, d) := d.check [sliceSrc sl 0x11, sliceSrc sl 0x10] ph.cmpv
    match c with
    | .ok => (false, d)
    | .transient =>
      (false, (d.transient sl).report { src := sliceSrc sl 0x10, det0 := page * 4096, det1 := d.detA (page * 4096), dpa := some (page * 4096), inj })
    | .lasting => (true, d.report { src := sliceSrc sl 0x11, det0 := page * 4096, det1 := d.detA (page * 4096), dpa := some (page * 4096), inj })

/-- The tree area of a Sealed page's subtree, allocated at the first placement that stores one of its quads (R253). -/
def Dev.needArea (d : Dev) (sl page : Nat) (e : PEnt) (bal : Bool) : Option Dev :=
  if !e.sld || d.hasArea sl (pageBlock page) then some d else d.allocArea sl (pageBlock page) bal

/-- Lay a K page out whole in an allocation: every slot and the header (R107, R138, R140). -/
def Dev.layout (d : Dev) (sl page : Nat) (e : PEnt) (codes : List Nat) (plain : Nat → Quad) (enc : List Nat) (ph : Phys) (cls : Option Nat) : Dev :=
  let d := enc.foldl (fun d q =>
    let c := codes.getD q 0
    d.storeUnit sl e (page * 16 + q) c e.chan (e.base + slotOff codes q) (slotBytes (plain q) c) ph cls) d
  d.wr e.chan e.base (Stow.bytes { codes, gm1 := e.gm1, page, restows := 0 }) cls

/-- Write all sixteen quads of a page raw into a berth (R152 step 4). -/
def Dev.layoutRaw (d : Dev) (sl page : Nat) (e : PEnt) (plain : Nat → Quad) (ph : Phys) (cls : Option Nat) : Dev :=
  (List.range 16).foldl (fun d q =>
    d.storeUnit sl e (page * 16 + q) 8 e.chan (e.frame * 4096 + q * 256) (bytesOf 256 (plain q)) ph cls) d

/-- An entry moved to new storage, its other fields kept (R108). -/
def PEnt.moved (e : PEnt) (form : Form) (c f o g1 : Nat) : PEnt := { e with form, chan := c, frame := f, goff := o, gm1 := g1 }

/-- Data of a quad in a placement, zeros when it is not in it. -/
def placed (ps : List PQuad) (q : Nat) : Quad :=
  match ps.find? fun p => p.q = q with
  | some p => p.data
  | none => 0#2048

/-- A placement on a page of form Z (R106, R107, R134, R248): none when it must be held. -/
def Dev.placeZ (d : Dev) (sl page : Nat) (ps : List PQuad) (bal : Bool) (ph : Phys) (cls : Option Nat) : Option Dev :=
  let e := d.ent page
  if ps.all fun p => p.data = 0#2048 then
    let d := if e.sld && d.hasArea sl (pageBlock page) then
        ps.foldl (fun d p => (d.sealUnit sl e p.quad 0 [] ph cls).2) d
      else d
    some (d.placeQpois page ps)
  else
    let (raw, d) := d.cmpVerify sl page true ph
    let codes := (List.range 16).map fun q =>
      let x := placed ps q
      if x = 0#2048 then 0 else (d.ms sl).need raw x
    let g := granulesFor codes
    match d.needArea sl page e bal with
    | none => none
    | some d =>
      let need := if g ≤ 8 then Need.gran g else Need.berth
      match d.choose sl need bal with
      | none => none
      | some c =>
        let ((f, o), d) := d.take c need
        if g ≤ 8 then
          let d := d.layout sl page (e.moved .k c f o (g - 1)) codes (placed ps) (ps.map PQuad.q) ph cls
          some ((d.setEnt page ((d.ent page).moved .k c f o (g - 1))).placeQpois page ps)
        else
          let d := d.layoutRaw sl page (e.moved .p c f 0 7) (placed ps) ph cls
          some ((d.setEnt page ((d.ent page).moved .p c f 0 7)).placeQpois page ps)

/-- A placement on a page of form P: each quad raw at its offset (R34). -/
def Dev.placeP (d : Dev) (sl page : Nat) (ps : List PQuad) (ph : Phys) (cls : Option Nat) : Dev :=
  let e := d.ent page
  (ps.foldl (fun d p =>
    d.storeUnit sl e p.quad 8 e.chan (e.frame * 4096 + p.q * 256) (bytesOf 256 p.data) ph cls) d).placeQpois page ps

/-- New slot code of a quad of a placement (R149): none when it fits its slot of code `c`. -/
def Slice.grows (s : Slice) (raw : Bool) (c : Nat) (data : Quad) : Option Nat :=
  let n := s.need raw data
  if c = 8 then none
  else if c = 0 then (if data = 0#2048 then none else some n)
  else if n ≤ c then none else some n

/-- Store the quads that fit their slots in place (R149). -/
def Dev.placeFit (d : Dev) (sl : Nat) (e : PEnt) (codes : List Nat) (ps : List PQuad) (ph : Phys) (cls : Option Nat) : Dev :=
  ps.foldl (fun d p =>
    let c := codes.getD p.q 0
    d.storeUnit sl e p.quad c e.chan (e.base + slotOff codes p.q) (slotBytes p.data c) ph cls) d

/-- A restow (R151): the slots above the lowest growing quad move as they are, the placement's quads are encrypted anew. -/
def Dev.restow (d : Dev) (sl : Nat) (e : PEnt) (h : Stow) (codes : List Nat) (qlo : Nat) (ps : List PQuad) (ph : Phys)
    (cls : Option Nat) : Dev :=
  let placedQ := ps.map PQuad.q
  let moved := (List.range 16).filter fun q => decide (qlo < q) && decide (h.codes.getD q 0 ≠ 0) && !decide (q ∈ placedQ)
  let (olds, d) := moved.foldl (fun (acc : List (Nat × List Byte) × Dev) q =>
    let (bs, d) := acc.2.rd e.chan (e.base + slotOff h.codes q) (slotSize (h.codes.getD q 0)) cls
    (acc.1 ++ [(q, bs)], d)) ([], d)
  let d := olds.foldl (fun d x => d.wr e.chan (e.base + slotOff codes x.1) x.2 cls) d
  let d := d.placeFit sl e codes ps ph cls
  let d := d.wr e.chan e.base (Stow.bytes { h with codes, restows := min 255 (h.restows + 1) }) cls
  (d.bump 0x202 sl 1 none cls).modMs sl fun s => { s with restows := if s.restows = 0xFFFFFF#24 then s.restows else s.restows + 1#24 }

/-- The quads a promotion reads from the page, zeros and QPOIS for those that cannot be read (R152 step 2). -/
def Dev.readOthers (d : Dev) (sl page : Nat) (skip : List Nat) (ph : Phys) (cls : Option Nat) : List (Nat × Quad) × Dev :=
  ((List.range 16).filter fun q => !decide (q ∈ skip)).foldl (fun (acc : List (Nat × Quad) × Dev) q =>
    let (x, d) := acc.2.fetchQuad sl (page * 16 + q) { ph with hdr := .ok } cls
    (acc.1 ++ [(q, if x.pois then 0#2048 else x.data)], d)) ([], d)

/-- A promotion (R152): none when no berth can be taken. -/
def Dev.promote (d : Dev) (sl page : Nat) (ps : List PQuad) (bal : Bool) (ph : Phys) (cls : Option Nat) : Option Dev :=
  let s := d.ms sl
  if s.dec0F && s.dec1F then none
  else
    match d.choose sl .berth bal with
    | none => none
    | some c =>
      let ((f, _), d) := d.take c .berth
      let (others, d) := d.readOthers sl page (ps.map PQuad.q) ph cls
      let old := d.ent page
      let plain := fun q => match others.find? fun x => x.1 = q with
        | some x => x.2
        | none => placed ps q
      let d := d.layoutRaw sl page (old.moved .p c f 0 7) plain ph cls
      let d := (d.setEnt page ((d.ent page).moved .p c f 0 7)).placeQpois page ps
      let d := (d.freeStorage old).bump 0x203 sl 1 none cls
      some (d.modMs sl fun s => { s with promotes := if s.promotes = 0xFFFFFF#24 then s.promotes else s.promotes + 1#24 })

/-- A placement on a page of form K (R149 to R152): held when it must promote and cannot. -/
def Dev.placeK (d : Dev) (sl page : Nat) (h : Stow) (ps : List PQuad) (bal : Bool) (ph : Phys) (cls : Option Nat) : Option Dev :=
  let e := d.ent page
  let any := ps.any fun p => decide (h.codes.getD p.q 0 ≠ 8) && !(decide (h.codes.getD p.q 0 = 0) && decide (p.data = 0#2048))
  let (raw, d) := d.cmpVerify sl page any ph
  let s := d.ms sl
  let grow := ps.filterMap fun p => (s.grows raw (h.codes.getD p.q 0) p.data).map fun n => (p.q, n)
  if grow.isEmpty then some ((d.placeFit sl e h.codes ps ph cls).placeQpois page ps)
  else
    let codes := grow.foldl (fun cs g => cs.set g.1 g.2) h.codes
    if stowUse codes ≤ (e.gm1 + 1) * 512 then
      let qlo := (grow.map (·.1)).foldl min 15
      some ((d.restow sl e h codes qlo ps ph cls).placeQpois page ps)
    else d.promote sl page ps bal ph cls

/-- Count each quad of a placement in the page's tally (R126). -/
def Dev.tallyQuads (d : Dev) (sl page n : Nat) : Dev :=
  (List.range n).foldl (fun d _ => d.countTally sl page) d

/-- How a placement ended. -/
inductive Placed where
  | done | held
  deriving DecidableEq, Repr

/-- Place the quads of one page (R34 steps 2 to 5): held when no channel can take what it needs. A page whose entry cannot be
reached takes nothing: the data is discarded and the writeback completes (R112, R564). -/
def Dev.place (d : Dev) (sl page : Nat) (ps : List PQuad) (bal : Bool) (ph : Phys) (cls : Option Nat) : Placed × Dev :=
  let ((oe, _), d) := d.pmLookup sl page ph cls
  if oe.isNone then (.done, d)
  else
    let fin := fun (d0 : Dev) (r : Option Dev) =>
      match r with
      | some d => (Placed.done, d.tallyQuads sl page ps.length)
      | none => (Placed.held, d0)
    match (d.ent page).form with
    | .z => fin d (d.placeZ sl page ps bal ph cls)
    | .p => (.done, (d.placeP sl page ps ph cls).tallyQuads sl page ps.length)
    | .k =>
      match d.header sl page ph cls with
      | (none, d) => fin d (d.placeZ sl page ps bal ph cls)
      | (some h, d) => fin d (d.placeK sl page h ps bal ph cls)

/-- A Wharf line of a quad whose stored data now reads as poison: a line that matches what is stored (Table 6.2) carries POIS, one that
a later write made Dirty again (R182) does not. -/
def WLine.stored (l : WLine) : WLine :=
  match l.st with
  | .invalid => l
  | .dirty => l
  | _ => if l.snap.isSome then l else { l with pois := true }

/-- One quad stored as capacity-poisoned (R135). -/
def Dev.capQuad (d : Dev) (sl quad : Nat) (cls : Option Nat) : Dev :=
  let d := (d.setQpois sl (quad / 16) (BitVec.ofNat 16 (2 ^ (quad % 16)))).poison (quad * 256) poisQuad
  let d := d.modMs sl fun s => { s with wharf := { s.wharf with lines := s.wharf.lines.map fun x =>
    if x.2.addr / 4 = quad then (x.1, x.2.stored) else x } }
  let d := d.modMs sl fun s => { s with cappois := if s.cappois = 0xFFFF#16 then s.cappois else s.cappois + 1#16 }
  (d.report { src := sliceSrc sl 0x15, det0 := quad * 256, det1 := d.detA (quad * 256), dpa := some (quad * 256) }).bump 0x106 sl 1 none cls

/-- The end of a hold on a page with no storage (R106, R135): a quad that is all zero takes none and is placed, the others are
capacity-poisoned. -/
def Dev.capZero (d : Dev) (sl page : Nat) (ps : List PQuad) (ph : Phys) (cls : Option Nat) : Dev :=
  let zeros := ps.filter fun (p : PQuad) => decide (p.data = 0#2048)
  let d := if zeros.isEmpty then d else (d.placeZ sl page zeros true ph cls).getD d
  (ps.filter fun (p : PQuad) => decide (p.data ≠ 0#2048)).foldl (fun d p => d.capQuad sl p.quad cls) d

/-- The end of a hold that nothing can place (R134, R135, R152): the quads that fit are stored, those that need storage are
capacity-poisoned. -/
def Dev.capPoison (d : Dev) (sl page : Nat) (ps : List PQuad) (ph : Phys) (cls : Option Nat) : Dev :=
  let d := match (d.ent page).form with
    | .k =>
      match d.header sl page ph cls with
      | (none, d) => d.capZero sl page ps ph cls
      | (some h, d) =>
        let s := d.ms sl
        let big := ps.filter fun (p : PQuad) => (s.grows false (h.codes.getD p.q 0) p.data).isSome
        let fit := ps.filter fun (p : PQuad) => (s.grows false (h.codes.getD p.q 0) p.data).isNone
        big.foldl (fun (d : Dev) (p : PQuad) => d.capQuad sl p.quad cls) ((d.placeFit sl (d.ent page) h.codes fit ph cls).placeQpois page fit)
    | _ => d.capZero sl page ps ph cls
  d.tallyQuads sl page ps.length

end Sys2Proof.Machine
end

