-- ==== Sys2Proof/Machine/Transmit.lean ====
section
/-! DEFINITION. What a landing sends: receive and transmit times, transmission under credits and replay, responses to a host (R44, R45, R57, R60 to R62, R66). -/
namespace Sys2Proof.Machine

/-- Receive and transmit times and x8 flit time in tenths of a nanosecond (Table 2.2). -/
def Link.rowTimes (k : Link) : Nat × Nat × Nat :=
  match k.speed.toNat, k.flit.toNat with
  | 4, 2 => (100, 140, 40)
  | 4, _ => (130, 160, 40)
  | 3, 2 => (140, 180, 80)
  | 3, 1 => (200, 220, 80)
  | 3, _ => (120, 160, 21)
  | 2, _ => (160, 210, 43)
  | _, _ => (240, 310, 85)

/-- Receive plus transmit time of a landing in tenths of a nanosecond, with its width and IDE increments (R44, R45, R73). -/
def Landing.rxtx (l : Landing) : Nat :=
  let (r, t, f) := l.link.rowTimes
  let narrow := match l.link.width.toNat with
    | 1 => 7 * f
    | 2 => 3 * f
    | 3 => f
    | _ => 0
  let ide := match l.ideMem.mode with
    | .off => 0
    | _ => 40
  r + t + narrow + ide

/-- Credits of a message class put with those the host holds (R55, R57). -/
def Pool.giveHost (p : Pool) (c : Credits) : Pool :=
  { p with held := [p.held.getD 0 0 + c.req, p.held.getD 1 0 + c.rwd, p.held.getD 2 0 + c.birsp] ++ p.held.drop 3 }

/-- No credit return. -/
def Credits.isZero (c : Credits) : Bool := decide (c.req = 0 ∧ c.rwd = 0 ∧ c.birsp = 0)

/-- Transmit one new flit, with the pending credit returns bound to it (R57, R62). -/
def Landing.sendFlit (l : Landing) (body : Option Rsp) (xfer : Option (Nat × Nat)) : Landing :=
  let p := l.pool
  { l with pool := { p.giveHost p.pend with
    replay := p.replay ++ [{ seq := p.txSeq, body, credits := p.pend, xfer }]
    txSeq := p.txSeq + 1
    pend := {} } }

/-- Transmit held responses while the link is Up, the replay buffer has room and the host has given credit (R61, R62, R65). -/
def Landing.pump : Nat → Landing → Landing
  | 0, l => l
  | n + 1, l =>
    match l.pool.txq with
    | [] => l
    | (r, x) :: rest =>
      if l.link.st = .up && decide (l.pool.replay.length < 256) && decide (0 < l.pool.hostCred) then
        let l := { l with pool := { l.pool with txq := rest, hostCred := l.pool.hostCred - 1 } }
        (l.sendFlit (some r) x).pump n
      else l

/-- Hand a response to a landing for its host; a landing that is not Up or Recovering discards it (Table 2.5). -/
def Dev.respond (d : Dev) (n : Nat) (r : Rsp) (xfer : Option (Nat × Nat) := none) : Dev :=
  match (d.ld n).link.st with
  | .up | .recovering =>
    d.modLd n fun l =>
      let l := { l with pool := { l.pool with txq := l.pool.txq ++ [(r, xfer)] } }
      l.pump l.pool.txq.length
  | _ => d

/-- A landing can send its host something. -/
def Dev.linkLive (d : Dev) (n : Nat) : Bool :=
  match (d.ld n).link.st with
  | .up | .recovering => true
  | _ => false

/-- The minimum hold of a sector starts when a host is given it in A (R221). -/
def Dev.startHold (d : Dev) (n sector : Nat) : Dev :=
  if d.p 0x180 = 0 then d
  else d.modLd n fun l => { l with coh := { l.coh with hold := if sector ∈ l.coh.hold then l.coh.hold else l.coh.hold ++ [sector] } }

/-- Complete a read to its host: response, counters, latency in ns with the home-slice part `x` (R26 to R29, R44, Table 16.2). -/
def Dev.readDone (d : Dev) (sl : Nat) (w : Work) (data : Line) (pois : Bool) (grant : MetaV) (x : Nat) : Dev :=
  match w.ld with
  | none => d
  | some n =>
    if w.dead || !d.linkLive n then d
    else
      let lat := ((d.ld n).rxtx + 40 + 20 * d.hop n sl) / 10 + x
      let c := some w.cls
      let d := d.respond n (match w.req.kind with
        | .minv => .cmp w.req.tag grant
        | _ => .data w.req.tag data pois grant lat)
      let lines := match w.req.kind with
        | .minv => 0
        | _ => 64
      let d := ((d.bump 0x001 n 1 none c).bump 0x003 n lines none c).bump 0x005 n lat none c
      let d := if pois then d.bump 0x00A n 1 none c else d
      if grant = .a then d.startHold n (w.line / 4) else d

/-- Complete a write to its host (R32, Table 16.2). -/
def Dev.writeDone (d : Dev) (w : Work) : Dev :=
  match w.ld with
  | none => d
  | some n =>
    if w.dead || !d.linkLive n then d
    else
      let bytes := match w.req.kind with
        | .wrPtl _ => popcount w.req.be
        | _ => 64
      let c := some w.cls
      ((d.respond n (.cmp w.req.tag .noOp)).bump 0x002 n 1 none c).bump 0x004 n bytes none c

end Sys2Proof.Machine
end

