-- ==== Sys2Proof/Machine/Filter.lean ====
section
/-! DEFINITION. Snoop-filter entries: lookup, update, replacement places, Adrift lines, poison of lost quads (R207 to R211, R228, R232, R233). -/
namespace Sys2Proof.Machine

/-- Filter set of a sector DPA[44:8] (R208). -/
def fSet (sector : Nat) : Nat := bits sector 0 14 ^^^ bits sector 14 14 ^^^ bits sector 28 9

/-- LSTATE of line j: 0 I, 1 S, 2 A, 3 Adrift (Table 7.1). -/
def FEnt.ls (e : FEnt) (j : Nat) : Nat := bits e.lstate.toNat (2 * j) 2

/-- Set LSTATE of line j. -/
def FEnt.setLs (e : FEnt) (j v : Nat) : FEnt :=
  { e with lstate := BitVec.ofNat 8 (e.lstate.toNat - e.ls j * 4 ^ j + v * 4 ^ j) }

/-- Lines of a sector in a state. -/
def FEnt.linesIn (e : FEnt) (v : Nat) : List Nat := (List.range 4).filter fun j => e.ls j = v

/-- Some line of the sector is in A. -/
def FEnt.owned (e : FEnt) : Bool := !(e.linesIn 2).isEmpty

/-- Some line of the sector is Adrift. -/
def FEnt.adrift (e : FEnt) : Bool := !(e.linesIn 3).isEmpty

/-- Landings in SHARERS. -/
def FEnt.shs (e : FEnt) : List Nat := (List.range 16).filter fun n => e.sharers.getLsbD n

/-- Slice whose filter ways hold the sectors of a slice: the partner while the filter is moved (R232). -/
def Dev.filtAt (d : Dev) (sl : Nat) : Nat := if (d.ms sl).filt.moved then partner sl else sl

/-- Change a slice's filter. -/
def Dev.modF (d : Dev) (sl : Nat) (f : Filter → Filter) : Dev := d.modMs sl fun s => { s with filt := f s.filt }

/-- The filter-way entry of a sector, with its key. -/
def Filter.find (f : Filter) (sector : Nat) : Option (Nat × FEnt) :=
  f.ents.find? fun x => x.2.valid && decide (x.2.sector = sector)

/-- Where the entry of a sector homed at a slice lies: filter ways of a slice, or the slice's hold store (R232, R233). -/
inductive FLoc where
  | way (sl key : Nat)
  | store
  deriving DecidableEq, Repr

/-- The entry of a sector homed at slice `sl`, looked up in filter ways and hold store in parallel (R233). -/
def Dev.fent (d : Dev) (sl sector : Nat) : Option (FLoc × FEnt) :=
  match (d.ms (d.filtAt sl)).filt.find sector with
  | some (k, e) => some (.way (d.filtAt sl) k, e)
  | none => ((d.ms sl).filt.store.find? fun e => decide (e.sector = sector)).map fun e => (.store, e)

/-- No holder is left in S: the lines become I (R227); no line in A: no owner, and the epoch moves with the loss of ownership (R213). -/
def FEnt.tidy (e : FEnt) : FEnt :=
  if e.sharers = 0#16 then (e.linesIn 1).foldl (fun e j => e.setLs j 0) e else e

/-- Ownership ended: OWNER cleared, EPOCH incremented once no line is in A any more (R213). -/
def FEnt.disown (e : FEnt) (was : Bool) : FEnt :=
  if was && !e.owned then { e with owner := 0, epoch := e.epoch + 1#4 } else e

/-- The entry tracks nothing (R210). -/
def FEnt.void (e : FEnt) : Bool := decide (e.lstate = 0#8)

/-- Write an entry back to its place, freeing it when no line is S, A or Adrift (R210), or no longer Adrift in the hold store (R233). -/
def Dev.putFent (d : Dev) (sl : Nat) (loc : FLoc) (e : FEnt) : Dev :=
  let e := e.tidy
  match loc with
  | .way fs k => d.modF fs fun f => { f with ents := tput {} f.ents k (if e.void then {} else e) }
  | .store => d.modF sl fun f =>
      { f with store := if e.adrift then f.store.map fun x => if x.sector = e.sector then e else x
                        else f.store.filter fun x => x.sector ≠ e.sector }

/-- Positions of a filter set that may hold entries: 8 per filter way, ways with a disabled location left out (R208, R212). -/
def Dev.filterPos (d : Dev) (fs sector : Nat) : List Nat :=
  let w := (d.ms fs).wharf
  (List.range (8 * w.f)).filter fun p => !decide ((16 * fSet sector + p / 8) ∈ w.disabled)

/-- A sector has a forward, a collection or a handoff outstanding. -/
def Filter.busy (f : Filter) (sector : Nat) : Bool :=
  (f.fwds.any fun x => decide (x.sector = sector)) || (f.colls.any fun x => decide (x.sector = sector)) ||
  (f.handoffs.any fun h => match h.head with | some x => decide (x.sector = sector) | none => false)

/-- What taking a new entry for a sector meets (R211). -/
inductive NewEnt where
  | at_ (fs key : Nat)
  | evict (fs key : Nat) (e : FEnt)
  | allBusy
  | allAdrift
  deriving DecidableEq, Repr

/-- Home slice of a tracked entry: its own slice, or the partner when FRGN (Table 7.1). -/
def entHome (fs : Nat) (e : FEnt) : Nat := if e.frgn then partner fs else fs

/-- Entries of the sectors homed at a slice, in filter ways and in its hold store (R232, R233). -/
def Dev.entsOf (d : Dev) (sl : Nat) : List FEnt :=
  ((d.ms (d.filtAt sl)).filt.ents.map (·.2)).filter (fun e => e.valid && decide (entHome (d.filtAt sl) e = sl)) ++ (d.ms sl).filt.store

/-- Find the place of a new entry (R211). -/
def Dev.newEnt (d : Dev) (sl sector : Nat) : NewEnt :=
  let fs := d.filtAt sl
  let f := (d.ms fs).filt
  let ps := d.filterPos fs sector
  let at' := fun p => tget {} f.ents (32 * fSet sector + p)
  match ps.find? fun p => !(at' p).valid with
  | some p => .at_ fs (32 * fSet sector + p)
  | none =>
    let free := ps.filter fun p => !(at' p).adrift && !((d.ms (entHome fs (at' p))).filt.busy (at' p).sector)
    match argMin (fun p => (at' p).alloc) free with
    | some p => .evict fs (32 * fSet sector + p) (at' p)
    | none => if ps.all fun p => (at' p).adrift then .allAdrift else .allBusy

/-- Landings that hold a Granted record of the share group of a block. -/
def Dev.groupOf (d : Dev) (blk : Nat) : List Nat :=
  (List.range 16).filter fun n => d.ext.recs.any fun r => decide (r.2.st = .granted) && r.2.shared && decide (r.2.ld = n) && r.2.covers blk

/-- A line becomes Adrift (R228): poison lists, event record, Deferred fault; the caller has set LSTATE. -/
def Dev.reportAdrift (d : Dev) (sl line ld : Nat) : Dev :=
  let dpa := line * 64
  let d := d.poison dpa poisLine
  let d := d.evPool .coherence [dpa, ld] 2
  d.report { src := sliceSrc sl 0x1F, det0 := dpa, det1 := d.detA dpa, dpa := some dpa }

/-- Make lines of an entry Adrift, their lost holder leaving SHARERS and OWNER (R228). -/
def Dev.makeAdrift (d : Dev) (sl : Nat) (loc : FLoc) (e : FEnt) (js : List Nat) (ld : Nat) : Dev :=
  let was := e.owned
  let e := js.foldl (fun e j => e.setLs j 3) { e with sharers := setBit e.sharers ld false }
  let d := d.putFent sl loc (e.disown was)
  js.foldl (fun d j => d.reportAdrift sl (e.sector * 4 + j) ld) d

/-- QPOIS of the quad of an entry's Adrift lines, with poison-list entries (R233, R234). -/
def Dev.poisonSector (d : Dev) (sl sector : Nat) : Dev :=
  (d.setQpois sl (sector / 16) (BitVec.ofNat 16 (2 ^ (sector % 16)))).poison (sector * 256) poisQuad

/-- Keep an Adrift entry in the hold store, or poison its quad when the store is full (R233). -/
def Dev.storeAdrift (d : Dev) (sl : Nat) (e : FEnt) : Dev :=
  if (d.ms sl).filt.store.length < 512 then d.modF sl fun f => { f with store := f.store ++ [{ e with valid := true, frgn := false }] }
  else (d.poisonSector sl e.sector).report { src := sliceSrc sl 0x1F, det0 := e.sector * 256, det1 := d.detA (e.sector * 256), dpa := some (e.sector * 256) }

/-- The filter shows a landing holding a line (R92): owner of a line in A, or sharer of a line in S. -/
def Dev.holds (d : Dev) (sl line ld : Nat) : Bool :=
  match d.fent sl (line / 4) with
  | none => false
  | some (_, e) =>
    (decide (e.ls (line % 4) = 2) && decide (e.owner.val = ld)) || (decide (e.ls (line % 4) = 1) && e.sharers.getLsbD ld)

end Sys2Proof.Machine
end

