-- ==== Sys2Proof/Machine/Access.lean ====
section
/-! DEFINITION. Step 2 of the read path at a landing: HDM decode, label and class, access checks, violations, home slice (R79 to R81, R92, R95 to R98, R305). -/
namespace Sys2Proof.Machine

/-- Position of the highest set bit of a power of two. -/
def log2' (n : Nat) : Nat := Nat.log2 n

/-- Drop the interleave bits: with granularity 2^g and 2^w ways, bits g to g + w − 1 leave (R80, the standard CXL HDM rule). -/
def dropBits (off iw ig : Nat) : Nat :=
  let g := log2' ig
  let w := log2' iw
  off / 2 ^ (g + w) * 2 ^ g + off % 2 ^ g

/-- Decode an HPA: label and DPA, none when check 1 of Table 3.5 fails (R80). -/
def Access.decode (a : Access) (hpa : Nat) : Option (Nat × Nat) :=
  let c := a.dec
  if c.committed && decide (c.hbase ≤ hpa) && decide (hpa < c.hbase + c.size) then
    let doff := dropBits (hpa - c.hbase) c.iw c.ig
    let lp := a.lpos.toNat
    some (doff / 2 ^ lp % 2 ^ a.lbits.toNat, c.dbase + doff % 2 ^ lp)
  else none

/-- What a request turns into at the landing. -/
inductive Checked where
  | ok (sl : Nat) (w : Work)
  | fail (cause label : Nat)
  deriving DecidableEq, Repr

/-- The kinds the Releasing exception lets through (R92). -/
def reqDrains : ReqKind → Bool
  | .wr _ => true
  | .clnEvct => true
  | _ => false

/-- The record of a landing that check 3 finds for a line (R92, Table 3.5). -/
def Dev.recFor (d : Dev) (ld line : Nat) (k : ReqKind) : Option (Nat × ExtRec) :=
  d.ext.recs.find? fun r =>
    decide (r.2.ld = ld) && r.2.covers (line / 2 ^ 22) &&
    (decide (r.2.st = .granted) ||
     (decide (r.2.st = .releasing) && r.2.shared && reqDrains k && d.holds (d.home r.2.near ld (line / 64)) line ld))

/-- The checks of Table 3.5 in order on a line that a request names (R96). -/
def Dev.checkLine (d : Dev) (ld label line : Nat) (req : Req) : Checked :=
  let l := d.ld ld
  let lb := tget {} l.acc.lbl label
  if !lb.valid then .fail 2 label
  else
    match d.recFor ld line req.kind with
    | none => .fail 3 label
    | some (_, r) =>
      if r.shared && !l.acc.biEn then .fail 5 label
      else if req.kind.writes && r.rdonly then .fail 4 label
      else .ok (d.home r.near ld (line / 64)) { ld := some ld, req, line, cls := lb.sc.toNat, shared := r.shared, rdonly := r.rdonly, near := r.near }

/-- Decode and check a request (R80, R96). -/
def Dev.checkReq (d : Dev) (ld : Nat) (req : Req) : Checked :=
  match (d.ld ld).acc.decode req.hpa.toNat with
  | none => .fail 1 0
  | some (label, dpa) => d.checkLine ld label (dpa / 64) req

/-- Number that an access-violation record gives a request kind. -/
def reqCode : ReqKind → Nat
  | .rd _ => 0
  | .minv => 1
  | .wr _ => 2
  | .wrPtl _ => 3
  | .clnEvct => 4

/-- Count a failed check and, as the first of its tVIOL window, record it (R96, R98). -/
def Dev.violation (d : Dev) (ld cause label : Nat) (req : Req) : Dev :=
  let a := (d.ld ld).acc
  let inside := match a.win with
    | some t => decide (d.time < t + d.p 0x142)
    | none => false
  let prev := match a.win with
    | some _ => a.inWin
    | none => 0
  let d := d.bump 0x009 ld 1
  let d := d.modLd ld fun l => { l with acc := { l.acc with
    count := if l.acc.count = 0xFFFFFF#24 then l.acc.count else l.acc.count + 1#24
    first := if l.acc.first = 0#4 then BitVec.ofNat 4 cause else l.acc.first
    win := if inside then l.acc.win else some d.time
    prevWin := if inside then l.acc.prevWin else prev
    inWin := if inside then l.acc.inWin + 1 else 1 } }
  if inside then d
  else
    let args := [req.hpa.toNat, cause, label, reqCode req.kind, prev]
    (d.evHost ld .accessViolation args 1).evPool .accessViolation args 1

/-- Complete a request that failed a check (R97): poisoned zeros, or its data discarded. -/
def Dev.failReq (d : Dev) (ld : Nat) (req : Req) : Dev :=
  match req.kind with
  | .rd _ => (d.respond ld (.data req.tag 0#512 true .noOp (((d.ld ld).rxtx + 40) / 10))).bump 0x00A ld 1
  | _ => d.respond ld (.cmp req.tag .noOp)

end Sys2Proof.Machine
end

