-- ==== Sys2Proof/Machine/Writeback.lean ====
section
/-! DEFINITION. Writebacks, holds, ways taken by fills and writes, lines becoming dirty, quad buffers of a bypassed slice (R33, R34, R134, R175 to R182, R203, R204). -/
namespace Sys2Proof.Machine

/-- Keys of the lines of a quad in a state. -/
def Wharf.keysIn (w : Wharf) (quad : Nat) (st : WSt) : List Nat :=
  (List.range 4).filterMap fun j =>
    match w.find (quad * 4 + j) with
    | some k => if (w.get k).st = st then some k else none
    | none => none

/-- A held writeback of the quad exists. -/
def Slice.heldQuad (s : Slice) (quad : Nat) : Bool := s.held.any fun h => h.quads.any fun q => decide (q.1 = quad)

/-- Gather one line of a quad: its Wharf line, if it is there and its data passes its check (R34 step 1, R184). -/
def Dev.gatherLine (sl quad : Nat) (acc : List (Option WLine) × Phys × Dev) (j : Nat) : List (Option WLine) × Phys × Dev :=
  match (acc.2.2.ms sl).wharf.find (quad * 4 + j) with
  | none => (acc.1 ++ [none], acc.2.1, acc.2.2)
  | some k =>
    let r := acc.2.2.parityRead sl k acc.2.1
    (acc.1 ++ [if r.1 then some ((r.2.ms sl).wharf.get k) else none], { acc.2.1 with par := false }, r.2)

/-- Gather a quad: valid lines from the Wharf, the others through steps 5 to 10 of Table 1.5 (R34 step 1, R184). -/
def Dev.gather (d : Dev) (sl quad : Nat) (ph : Phys) (cls : Option Nat) : PQuad × Dev :=
  let g := (List.range 4).foldl (Dev.gatherLine sl quad) ([], ph, d)
  let xs := g.1
  let d := g.2.2
  let (q, d) := if xs.all Option.isSome then ({}, d) else d.fetchQuad sl quad ph cls
  let line := fun j => match xs.getD j none with
    | some l => l.data
    | none => Quad.line q.data j
  let pois := (List.range 4).any fun j => match xs.getD j none with
    | some l => l.pois
    | none => q.pois
  let whole := xs.all fun x => match x with
    | some l => l.whole
    | none => false
  ({ quad, data := Quad.ofLines (line 0) (line 1) (line 2) (line 3), pois, whole }, d)

/-- The lines of a quad leave a writeback state: Dirty again when a later write passed the snapshot, else Clean (R34 step 6, R182);
lines that were to be released, and those at disabled locations, leave their ways (R186). -/
def Dev.finishQuad (d : Dev) (sl quad : Nat) (st : WSt) (evict : Bool) : Dev :=
  ((d.ms sl).wharf.keysIn quad st).foldl (fun d k =>
    let w := (d.ms sl).wharf
    let l := w.get k
    if l.snap.isSome then d.modW sl fun w => w.put k { l with st := .dirty, snap := none }
    else
      let d := d.modW sl fun w => w.put k { l with st := .clean }
      if evict || decide (k ∈ w.disabled) then d.invalidate sl k else d) d

/-- Write back the dirty lines of some quads of one page in one placement (R34, R148); a placement that cannot be made is held (R134).
A quad whose earlier writeback is still held waits behind it. -/
def Dev.writeback (d : Dev) (sl page : Nat) (quads : List Nat) (evict eager : Bool) (ph : Phys) : Dev :=
  let w := (d.ms sl).wharf
  let qs := quads.filter fun q => !(w.keysIn q .dirty).isEmpty && !(d.ms sl).heldQuad q
  if qs.isEmpty then d
  else
    let keys := qs.flatMap fun q => w.keysIn q .dirty
    let cls := some (w.get (keys.headD 0)).cls
    let (ps, d) := qs.foldl (fun (acc : List PQuad × Dev) q =>
      let (p, d) := acc.2.gather sl q ph cls
      (acc.1 ++ [p], d)) ([], d)
    let d := d.bump (if eager then 0x103 else 0x104) sl keys.length none cls
    match d.place sl page ps false ph cls with
    | (.done, d) => qs.foldl (fun d q => d.finishQuad sl q .dirty evict) d
    | (.held, d) =>
      let d := qs.foldl (fun d q => ((d.ms sl).wharf.keysIn q .dirty).foldl (fun d k =>
        d.modW sl fun w => w.put k { w.get k with st := .held }) d) d
      (d.modMs sl fun s => { s with held := s.held ++ [{ page, quads := ps.map PQuad.toHeld, evict }] }).bump 0x105 sl 1 none cls

/-- A hold has ended: its lines, or the quad buffers of a bypassed slice, are released (R134, R182, R204). -/
def Dev.endHold (d : Dev) (sl : Nat) (h : Held) : Dev :=
  let d := d.modMs sl fun s => { s with held := s.held.filter fun x => !decide (x = h) }
  let d := h.quads.foldl (fun d q => d.finishQuad sl q.1 .held h.evict) d
  d.modW sl fun w => { w with qbuf := w.qbuf.filter fun b => !(h.quads.any fun q => decide (q.1 = b.quad)) }

/-- Class of a held writeback's lines. -/
def Dev.heldCls (d : Dev) (sl : Nat) (h : Held) : Option Nat :=
  match h.quads with
  | [] => none
  | q :: _ =>
    let w := (d.ms sl).wharf
    match w.keysIn q.1 .held with
    | k :: _ => some (w.get k).cls
    | [] => (w.qbuf.find? fun b => decide (b.quad = q.1)).map (·.cls)

/-- Try to place a held writeback (R134): with `bal`, from ballast. -/
def Dev.tryHeld (d : Dev) (sl : Nat) (h : Held) (bal : Bool) (ph : Phys) : Bool × Dev :=
  match d.place sl h.page (h.quads.map PQuad.ofHeld) bal ph (d.heldCls sl h) with
  | (.done, d) => (true, d.endHold sl h)
  | (.held, d) => (false, d)

/-- Room has appeared: every held writeback that some channel can now place is placed, in the order held (R134). -/
def Dev.releaseHeld (d : Dev) (sl : Nat) (ph : Phys) : Dev :=
  (d.ms sl).held.foldl (fun d h => (d.tryHeld sl h false ph).2) d

/-- A hold reaches tHOLD (R134, R135, R152): a release that is possible wins, then ballast, then capacity poison. -/
def Dev.expireHeld (d : Dev) (sl : Nat) (h : Held) (ph : Phys) : Dev :=
  match d.tryHeld sl h false ph with
  | (true, d) => d
  | (false, d) =>
    match d.tryHeld sl h true ph with
    | (true, d) => d
    | (false, d) => (d.capPoison sl h.page (h.quads.map PQuad.ofHeld) ph (d.heldCls sl h)).endHold sl h

/-- The way a fill (or, with `write`, a write) takes in the set of a line, a Dirty victim written back first and the choice made again
when that writeback is held (R175, R177). -/
def Dev.takeWay (d : Dev) (sl line cls : Nat) (write : Bool) (ph : Phys) : Nat → Option Nat × Dev
  | 0 => (none, d)
  | n + 1 =>
    let set := wSet line
    let w := (d.ms sl).wharf
    let (v, w') := if write then d.writeVictim w set cls else d.victim w set cls
    let d := d.modW sl fun _ => w'
    match v with
    | none => (none, d)
    | some i =>
      let k := 16 * set + i
      let l := w'.get k
      if l.st = .dirty then
        let d := d.writeback sl (l.addr / 64) [l.addr / 4] false false ph
        match ((d.ms sl).wharf.get k).st with
        | .clean => (some k, d)
        | .invalid => (some k, d)
        | _ => d.takeWay sl line cls write ph n
      else (some k, d)

/-- A slice installs no lines: its Wharf is fenced, draining or bypassed (R203, R204). -/
def Wharf.noInstall (w : Wharf) : Bool := w.fenced || w.draining

/-- Install one line of a fill (R175 to R177, R199): nothing when no victim exists. -/
def Dev.fillLine (d : Dev) (sl line : Nat) (data : Line) (pois : Bool) (cls age : Nat) (pf : Bool) (ph : Phys) : Dev :=
  if ((d.ms sl).wharf.find line).isSome || (d.ms sl).wharf.noInstall then d
  else
    match d.takeWay sl line cls false ph 16 with
    | (none, d) => d
    | (some k, d) => d.modW sl fun w =>
        w.put k { st := .clean, addr := line, data, cls, age, pf, pois, pm := !w.ranges.isEmpty }

/-- Install the four lines of a quad (R26 step 11, R176): the requested line at AGE 1, the others at 3, a prefetch's at 6 with PF. -/
def Dev.fillQuad (d : Dev) (sl quad req cls : Nat) (pf : Bool) (q : QData) (ph : Phys) : Dev :=
  (List.range 4).foldl (fun d j =>
    d.fillLine sl (quad * 4 + j) (Quad.line q.data j) q.pois cls (if pf then 6 else if quad * 4 + j = req then 1 else 3) pf ph) d

/-- The set of a line has no replacement candidate (R179). -/
def Wharf.stuck (w : Wharf) (line : Nat) : Bool := (w.cands (wSet line)).isEmpty

/-- Tick boundaries since a DTICK value (R180, R181). -/
def Wharf.ticksSince (w : Wharf) (dt : Nat) : Nat := (w.tick + 8 - dt) % 8

/-- Dirty lines that are urgent and whose writeback has not been issued (R181). -/
def Wharf.urgent (w : Wharf) : List Nat :=
  (w.lines.filter fun x => decide (x.2.st = .dirty) && decide (2 ≤ w.ticksSince x.2.dtick)).map (·.1)

/-- Channel time of writing back the urgent lines at the in-place rate of Table 5.7, in hundredths of a nanosecond: 40 ns for each quad
and 1.25 ns for each line. -/
def Wharf.urgentTime (w : Wharf) : Nat :=
  let u := w.urgent
  let quads := ((u.map fun k => (w.get k).addr / 4).eraseDups).length
  4000 * quads + 125 * u.length

/-- The dirty stall holds (R181). -/
def Dev.dirtyStall (d : Dev) (sl : Nat) : Bool := decide (d.p 0x170 * 100 < 8 * (d.ms sl).wharf.urgentTime)

/-- A write lands in a line present in the Wharf: it becomes or stays dirty (R180, R182). -/
def Wharf.dirtied (w : Wharf) (k : Nat) (data : Line) (pois whole : Bool) (cls : Nat) : Wharf :=
  let l := w.get k
  let l' := { l with data, pois, whole, cls, age := 0, pf := false }
  match l.st with
  | .dirty => w.put k l'
  | .held => w.put k { l' with snap := some (l.snap.getD (l.data, l.pois)), dtick := if l.snap.isSome then l.dtick else w.tick }
  | .writing => w.put k { l' with snap := some (l.snap.getD (l.data, l.pois)), dtick := if l.snap.isSome then l.dtick else w.tick }
  | _ => w.put k { l' with st := .dirty, dtick := w.tick }

/-- Install a written line (R33, R177, R180): false when the write has to wait (R179, R181). -/
def Dev.installDirty (d : Dev) (sl line : Nat) (data : Line) (pois whole : Bool) (cls : Nat) (ph : Phys) : Bool × Dev :=
  match (d.ms sl).wharf.find line with
  | some k =>
    if ((d.ms sl).wharf.get k).st = .clean && d.dirtyStall sl then (false, d)
    else (true, d.modW sl (·.dirtied k data pois whole cls))
  | none =>
    if d.dirtyStall sl then (false, d)
    else
      match d.takeWay sl line cls true ph 16 with
      | (none, d) => (false, d)
      | (some k, d) => (true, d.modW sl fun w =>
          w.put k { st := .dirty, addr := line, data, cls, age := 0, pois, whole, dtick := w.tick, pm := !w.ranges.isEmpty })

/-- Merge the enabled bytes of a partial write (R33). -/
def mergeLine (old new : Line) (be : BitVec 64) : Line :=
  (List.range 64).foldl (fun v i =>
    if be.getLsbD i then
      let m : Line := BitVec.ofNat 512 (0xFF * 2 ^ (8 * i))
      (v &&& ~~~m) ||| (new &&& m)
    else v) old

/-- Complete a quad buffer of a bypassed slice: missing lines read, the quad written back; a partial write clears no poison (R105, R204). -/
def Dev.flushBuf (d : Dev) (sl quad : Nat) (part : Bool) (ph : Phys) : Dev :=
  match (d.ms sl).wharf.qbuf.find? fun b => decide (b.quad = quad) with
  | none => d
  | some b =>
    if (d.ms sl).heldQuad quad then d
    else
      let cls := some b.cls
      let has := fun j => b.lines.find? fun x => decide (x.1 = j)
      let full := (List.range 4).all fun j => (has j).isSome
      let (q, d) := if full then ({}, d) else d.fetchQuad sl quad ph cls
      let line := fun j => match has j with
        | some x => x.2.1
        | none => Quad.line q.data j
      let pois := (List.range 4).any fun j => match has j with
        | some x => x.2.2
        | none => q.pois
      let p : PQuad := { quad, data := Quad.ofLines (line 0) (line 1) (line 2) (line 3), pois, whole := full && !part }
      match d.place sl (quad / 16) [p] false ph cls with
      | (.done, d) => d.modW sl fun w => { w with qbuf := w.qbuf.filter fun x => x.quad ≠ quad }
      | (.held, d) =>
        (d.modMs sl fun s => { s with held := s.held ++ [{ page := quad / 16, quads := [p.toHeld], evict := true }] }).bump 0x105 sl 1 none cls

/-- A line a quad buffer holds. -/
def Wharf.bufLine (w : Wharf) (line : Nat) : Option (Line × Bool) :=
  match w.qbuf.find? fun b => decide (b.quad = line / 4) with
  | none => none
  | some b => (b.lines.find? fun x => decide (x.1 = line % 4)).map (·.2)

/-- Put a full line into a quad buffer (R204): false when all 64 buffers are in use, or an earlier writeback of the quad is held. -/
def Dev.bufWrite (d : Dev) (sl line : Nat) (data : Line) (pois : Bool) (cls : Nat) : Bool × Dev :=
  let w := (d.ms sl).wharf
  if (d.ms sl).heldQuad (line / 4) then (false, d)
  else if w.qbuf.any fun b => decide (b.quad = line / 4) then
    (true, d.modW sl fun w => { w with qbuf := w.qbuf.map fun b =>
      if b.quad = line / 4 then { b with lines := (b.lines.filter fun x => x.1 ≠ line % 4) ++ [(line % 4, data, pois)] } else b })
  else if w.qbuf.length < 64 then
    (true, d.modW sl fun w => { w with qbuf := w.qbuf ++ [{ quad := line / 4, lines := [(line % 4, data, pois)], cls }] })
  else (false, d)

end Sys2Proof.Machine
end

