-- ==== Sys2Proof/Machine/Serve.lean ====
section
/-! DEFINITION. Serving a request at its home slice once coherence is settled: hits, zero pages, misses, fills, the scheduler entries they wait for (R26 to R29, R32, R33, R36, R176, R204, R311). -/
namespace Sys2Proof.Machine

/-- Channel, offset and length of a stored quad (R138). -/
def Dev.unitOf (d : Dev) (quad : Nat) : Nat × Nat × Nat :=
  let e := d.ent (quad / 16)
  match e.form with
  | .k =>
    match Stow.parse (memRead d.mem (chBase e.chan + e.base) 32) (quad / 16) e.gm1 with
    | some h => (e.chan, e.base + slotOff h.codes (quad % 16), slotSize (h.codes.getD (quad % 16) 0))
    | none => (e.chan, e.base, 32)
  | _ => (e.chan, e.frame * 4096 + quad % 16 * 256, 256)

/-- Entries of a channel's scheduler that a class holds. -/
def Chan.holds (c : Chan) (cls : Nat) : Nat := (c.sched.filter fun e => decide (e.cls = cls)).length

/-- Entries guaranteed to a class (R311). -/
def Dev.entG (d : Dev) (cls : Nat) : Nat := d.eG .q 0 cls * 192 / 1024

/-- Most entries a class may hold (R311). -/
def Dev.entX (d : Dev) (cls : Nat) : Nat := (d.eX .q 0 cls * 192 + 1023) / 1024

/-- Entries kept free as the unused guarantees of other classes (R311). -/
def Dev.entReserve (d : Dev) (c : Nat) : Nat :=
  (d.qos.recs.map (·.1)).foldl (fun s k => s + (d.entG k - (d.ch c).holds k)) 0

/-- The scheduler of a channel takes a read of a class (R278, R311). -/
def Dev.entAdmit (d : Dev) (c cls : Nat) : Bool :=
  let n := (d.ch c).sched.length
  let own := (d.ch c).holds cls
  decide (n < 192) && decide (own < d.entX cls) && (decide (own < d.entG cls) || decide (d.entReserve c < 192 - n))

/-- A miss waits in its tracker for a scheduler entry. -/
def Dev.unqueued (d : Dev) (sl : Nat) (m : Miss) : Bool :=
  !((d.ch (d.unitOf m.quad).1).sched.any fun e => decide (e.quad = m.quad) && decide (e.home = sl))

/-- Give a miss its scheduler entry when the channel takes it (R311). -/
def Dev.enqueue (d : Dev) (sl : Nat) (m : Miss) : Dev :=
  let (c, off, len) := d.unitOf m.quad
  if d.unqueued sl m && d.entAdmit c m.cls then
    d.modCh c fun x => { x with sched := x.sched ++ [{ quad := m.quad, home := sl, off, len, cls := m.cls, low := m.pf }] }
  else d

/-- Standing of a waiting access when an entry frees (R311 rule 3): 0 SC00, 1 below its guarantee, 2 below its maximum. -/
def Dev.entRank (d : Dev) (c cls : Nat) : Nat :=
  if cls = 0 then 0
  else if (d.ch c).holds cls < d.entG cls then 1000 - (d.entG cls - (d.ch c).holds cls) else 2000

/-- Waiting accesses take the entries of a channel that are free (R311 rule 3). -/
def Dev.admitWaiting (d : Dev) (c : Nat) : Nat → Dev
  | 0 => d
  | n + 1 =>
    let cand := d.units.flatMap fun s => ((d.ms s).misses.filter fun m =>
      decide ((d.unitOf m.quad).1 = c) && d.unqueued s m && d.entAdmit c m.cls).map fun m => (s, m)
    match argMin (fun x => d.entRank c x.2.cls) cand with
    | none => d
    | some x => (d.enqueue x.1 x.2).admitWaiting c n

/-- Nodes of a quad's chain that are not in the seal cache (R256). -/
def Dev.sealAbsent (d : Dev) (sl quad : Nat) : Nat :=
  let blk := quad / 2 ^ 20
  let leaf := d.leafOf (d.blockNear blk) quad
  ((List.range ((d.root sl blk).top + 1)).filter fun l => ((d.ms sl).sl.line blk l (leaf / 8 ^ l)).isNone).length

/-- Two traversals between a slice and a channel that is not its own (R29). -/
def Dev.remote (d : Dev) (sl c : Nat) : Nat := if sl = c then 0 else 2 * d.hop sl c

/-- Cipher part of a miss, ns (R27, R28, Table 8.8). -/
def Dev.cipherTime (d : Dev) (sl quad : Nat) (hit : Bool) : Nat :=
  let absent := d.sealAbsent sl quad
  if absent = 0 ∨ !hit then 14
  else 60 + 3 * (absent - 1) + d.remote sl (d.root sl (quad / 2 ^ 20)).chA

/-- Page-map-cache miss increment, ns (R27, R122). -/
def Dev.mapTime (d : Dev) (sl page : Nat) (hit : Bool) : Nat :=
  if hit then 0 else 55 + d.remote sl (d.spread page)

/-- Home-slice part of a read that makes no DRAM data access, ns (R28). -/
def Dev.zeroTime (d : Dev) (sl quad : Nat) (hit : Bool) : Nat :=
  let e := d.ent (quad / 16)
  match e.form with
  | .k => 13 + d.mapTime sl (quad / 16) hit + (if hit then 0 else 5) + (if e.sld then d.cipherTime sl quad hit else 0)
  | _ => 10 + d.mapTime sl (quad / 16) hit

/-- Home-slice part of a read of a stored quad, ns (Table 1.5, R27, R29, R260, R282). -/
def Dev.storedTime (d : Dev) (sl quad : Nat) (hit : Bool) : Nat :=
  let e := d.ent (quad / 16)
  let (c, off, _) := d.unitOf quad
  21 + d.step7At c off + d.mapTime sl (quad / 16) hit + d.remote sl c
    + (match e.form with
       | .k => 11 + (if hit then 0 else 5)
       | _ => 0)
    + (if e.sld then d.cipherTime sl quad hit else 6)

/-- Count a dropped prefetch (R197). -/
def Dev.dropPf (d : Dev) (w : Work) : Dev :=
  match w.ld with
  | some n => d.bump 0x008 n 1 none (some w.cls)
  | none => d

/-- Set the PIN flag of a line unless its set holds its limit of pins (R187). -/
def Dev.pinLine (d : Dev) (sl line : Nat) : Bool × Dev :=
  let w := (d.ms sl).wharf
  match w.find line with
  | none => (false, d)
  | some k =>
    if (w.get k).pin then (true, d)
    else if w.setPins (wSet line) < w.pinMax then (true, d.modW sl fun w => w.put k { w.get k with pin := true })
    else (false, d)

/-- Complete a request with its data in hand: a read is answered, a Barge access noted as settled. -/
def Dev.answer (d : Dev) (sl : Nat) (w : Work) (data : Line) (pois : Bool) (x : Nat) : Dev :=
  if w.pf then d
  else match w.ld with
    | none => d.modF sl fun f => { f with settled := f.settled ++ [w.line] }
    | some _ => d.readDone sl w data pois (w.grant.getD .noOp) x

/-- The completion of a write, sent once (R32). -/
def Dev.ackWrite (d : Dev) (w : Work) : Dev := if w.ack then d else d.writeDone w

/-- Apply a write over the line's present data in a slice that installs lines, or through a quad buffer in a bypassed one (R33, R204). -/
def Dev.applyWrite (d : Dev) (sl : Nat) (w : Work) (old : Line) (oldPois : Bool) (ph : Phys) : Bool × Dev :=
  let (data, pois, whole) := match w.req.kind with
    | .wrPtl _ => (mergeLine old w.req.data w.req.be, oldPois, match (d.ms sl).wharf.find w.line with
        | some k => ((d.ms sl).wharf.get k).whole
        | none => false)
    | _ => (w.req.data, w.req.poison, true)
  if (d.ms sl).wharf.noInstall && ((d.ms sl).wharf.find w.line).isNone then
    match d.bufWrite sl w.line data pois w.cls with
    | (false, d) => (false, d)
    | (true, d) => (true, match w.req.kind with
      | .wrPtl _ => d.flushBuf sl (w.line / 4) true ph
      | _ => d)
  else d.installDirty sl w.line data pois whole w.cls ph

/-- A tracker entry of a slice is free for a request: one offered it takes it, any other only when no landing has a request that waits for one (R36). -/
def Dev.trackerFree (d : Dev) (sl : Nat) (w : Work) : Bool :=
  decide ((d.ms sl).misses.length < 512) && (w.offered || !d.lnd.any fun x => x.2.wait.any fun y => decide (y.1 = sl))

/-- A request finds the tracker full (R36): it waits at its landing, an accepted write or a command's access in the conflict queue; a prefetch is dropped. -/
def Dev.park (d : Dev) (sl : Nat) (w : Work) : Option Work × Dev :=
  match w.ld with
  | none => (some w, d)
  | some n =>
    if w.ack then (some w, d)
    else (none, if w.pf then d.dropPf w else d.modLd n fun l => { l with wait := l.wait ++ [(sl, w)] })

/-- A Wharf miss that needs stored data takes a tracker entry and a scheduler entry (R36). -/
def Dev.missStart (d : Dev) (sl : Nat) (w : Work) (hit : Bool) : Dev :=
  let m : Miss := { quad := w.line / 4, ws := [w], line := w.line, cls := w.cls, pf := w.pf, hit }
  (d.modMs sl fun s => { s with misses := s.misses ++ [m] }).enqueue sl m

/-- Join the outstanding miss of a quad (R36); a demand that joins a prefetch makes it a demand fill of its own line (R176). -/
def Dev.missJoin (d : Dev) (sl : Nat) (w : Work) : Dev :=
  if w.pf then d.dropPf w
  else d.modMs sl fun s => { s with misses := s.misses.map fun m =>
    if m.quad = w.line / 4 then { m with ws := m.ws ++ [w], pf := false, line := if m.pf then w.line else m.line } else m }

/-- A miss: entry lookup, tally, zeros at once or a fetch (R26 step 5, R28, R36, R112, R126, R196, R197). A write
tried again has been counted. -/
def Dev.serveMiss (d : Dev) (sl : Nat) (w : Work) (again : Bool) (ph : Phys) : Option Work × Dev :=
  let c := some w.cls
  let quad := w.line / 4
  if d.isStored quad && !d.trackerFree sl w then d.park sl w
  else
    let d := if again then d else d.bump 0x102 sl 1 w.ld c
    let ((oe, hit), d) := d.pmLookup sl (quad / 16) ph c
    let fin := fun (d : Dev) (q : QData) (x : Nat) =>
      if w.req.kind.writes then
        match d.applyWrite sl w (Quad.line q.data (w.line % 4)) q.pois ph with
        | (true, d) => (none, d)
        | (false, d) => (some w, d)
      else (none, d.answer sl w (Quad.line q.data (w.line % 4)) q.pois x)
    if oe.isNone then
      if w.req.kind.writes then (none, d)
      else
        let (q, d) := d.poisoned
        fin d q (10 + d.mapTime sl (quad / 16) hit)
    else if !d.isStored quad then
      let x := d.zeroTime sl quad hit
      let d := if w.ld.isSome && !again then d.countTally sl (quad / 16) else d
      let (q, d) := d.fetchQuad sl quad ph c
      if w.pf then (none, d)
      else fin d q x
    else
      let d := if w.ld.isSome && !again then d.countTally sl (quad / 16) else d
      (none, d.missStart sl w hit)

/-- A write at a slice (R32, R33): accepted, unless the dirty stall holds or it finds the tracker full. -/
def Dev.serveWrite (d : Dev) (sl : Nat) (w : Work) (ph : Phys) : Option Work × Dev :=
  let W := (d.ms sl).wharf
  let present := W.find w.line
  let stall := d.dirtyStall sl && !W.noInstall && (match present with
    | some k => decide ((W.get k).st = .clean)
    | none => true)
  let joined := (d.ms sl).misses.any fun m => decide (m.quad = w.line / 4) && m.ws.any fun x => decide (x.line = w.line)
  if stall then (some w, d)
  else
    let full := match w.req.kind with
      | .wrPtl _ => false
      | _ => true
    let room := !W.noInstall || present.isSome || W.qbuf.any (fun b => decide (b.quad = w.line / 4)) || decide (W.qbuf.length < 64)
    let needs := !full && !joined && present.isNone && (W.bufLine w.line).isNone && !W.noInstall && d.isStored (w.line / 4)
      && !(d.ms sl).misses.any fun m => decide (m.quad = w.line / 4)
    if !room then (some w, d)
    else if needs && !d.trackerFree sl w then d.park sl w
    else
      let again := w.ack
      let d := d.ackWrite w
      let w := { w with ack := true }
      if joined then (none, d.missJoin sl w)
      else
        let done := fun (r : Bool × Dev) => (if r.1 then none else some w, r.2)
        if full then
          let d := if present.isSome && !again then d.bump 0x101 sl 1 w.ld (some w.cls) else d
          done (d.applyWrite sl w 0#512 false ph)
        else
          match present with
          | some k =>
            let (there, d) := d.parityRead sl k ph
            if there then
              let l := (d.ms sl).wharf.get k
              done ((if again then d else d.bump 0x101 sl 1 w.ld (some w.cls)).applyWrite sl w l.data l.pois ph)
            else d.serveMiss sl w again ph
          | none =>
            match W.bufLine w.line with
            | some x => done (d.applyWrite sl w x.1 x.2 ph)
            | none =>
              if (d.ms sl).misses.any fun m => decide (m.quad = w.line / 4) then (none, d.missJoin sl w)
              else if W.noInstall then
                let ((oe, _), d) := d.pmLookup sl (w.line / 64) ph (some w.cls)
                if oe.isNone then (none, d)
                else
                  let d := if w.ld.isSome && !again then d.countTally sl (w.line / 64) else d
                  let (q, d) := d.fetchQuad sl (w.line / 4) ph (some w.cls)
                  done (d.applyWrite sl w (Quad.line q.data (w.line % 4)) q.pois ph)
              else d.serveMiss sl w again ph

/-- A read at a slice (R26 steps 4 and 5): a hit answers from the Wharf or a quad buffer, a miss goes on. -/
def Dev.serveRead (d : Dev) (sl : Nat) (w : Work) (ph : Phys) : Option Work × Dev :=
  let miss := fun (d : Dev) (ph : Phys) =>
    if (d.ms sl).misses.any fun m => decide (m.quad = w.line / 4) then (none, d.missJoin sl w)
    else d.serveMiss sl w false ph
  match (d.ms sl).wharf.find w.line with
  | some k =>
    if w.pf then (none, d.dropPf w)
    else
      let (there, d) := d.parityRead sl k ph
      if there then
        let l := (d.ms sl).wharf.get k
        let d := d.bump 0x101 sl 1 w.ld (some w.cls)
        let d := match w.ld with
          | some n => if l.pf then d.bump 0x007 n 1 none (some w.cls) else d
          | none => d
        let d := d.modW sl fun v => v.put k { l with age := 0, pf := false }
        (none, d.answer sl w l.data l.pois 8)
      else miss d { ph with par := false }
  | none =>
    match (d.ms sl).wharf.bufLine w.line with
    | some x => (none, d.answer sl w x.1 x.2 8)
    | none => miss d ph

/-- Serve a request whose coherence is settled: none when it is served or handed to a tracker entry, else it waits in the conflict queue. -/
def Dev.serveLocal (d : Dev) (sl : Nat) (w : Work) (ph : Phys) : Option Work × Dev :=
  let d := d.tagCheck sl w.line ph
  if w.req.kind.writes then d.serveWrite sl w ph else d.serveRead sl w ph

/-- Serve one waiter of a fill from the quad's data, which its writes change (R33, R36). -/
def Dev.serveWaiter (sl : Nat) (x : Nat) (ph : Phys) (acc : List (Line × Bool) × Dev) (w : Work) : List (Line × Bool) × Dev :=
  let (buf, d) := acc
  let j := w.line % 4
  let cur := buf.getD j (0#512, false)
  if w.pf then (buf, d)
  else if w.req.kind.writes then
    let (data, pois) := match w.req.kind with
      | .wrPtl _ => (mergeLine cur.1 w.req.data w.req.be, cur.2)
      | _ => (w.req.data, w.req.poison)
    match d.applyWrite sl w cur.1 cur.2 ph with
    | (true, d) => (buf.set j (data, pois), d)
    | (false, d) => (buf.set j (data, pois), d.modMs sl fun s => { s with waitq := s.waitq ++ [w] })
  else (buf, d.answer sl w cur.1 cur.2 x)

/-- The data of a quad's DRAM read arrives (R26 steps 7 to 11, R36, R37, R177, R179): checked, installed unless doomed, and handed to the
requests that wait for it, in their order. While the set of the requested line has no candidate
or is under conversion (R192), or the key slot of the quad's context waits for the Tollhouse (R244), the fill waits. -/
def Dev.dramReturn (d : Dev) (sl quad : Nat) (ph : Phys) : Dev :=
  match (d.ms sl).misses.find? fun m => decide (m.quad = quad) with
  | none => d
  | some m =>
    let W := (d.ms sl).wharf
    if d.unqueued sl m && d.chOk (d.unitOf quad).1 then d
    else if !m.doomed && !W.noInstall && (W.find m.line).isNone && (W.conv || W.stuck m.line) then d
    else if d.isStored quad && (d.keyWaits sl quad ph).1 then (d.keyWaits sl quad ph).2
    else
      let c := (d.unitOf quad).1
      let x := d.storedTime sl quad m.hit
      let d := d.modCh c fun y => { y with sched := y.sched.filter fun e => !(decide (e.quad = quad) && decide (e.home = sl)) }
      let (q, d) := d.fetchQuad sl quad ph (some m.cls)
      let d := d.modMs sl fun s => { s with misses := s.misses.filter fun y => y.quad ≠ quad }
      let install := m.ws.any fun w => w.ld.isSome
      let d := if m.doomed || !install then d else d.fillQuad sl quad m.line m.cls m.pf q ph
      let d := if m.pf && ((List.range 4).all fun j => ((d.ms sl).wharf.find (quad * 4 + j)).isNone) then
          m.ws.foldl (fun d w => d.dropPf w) d
        else d
      let buf := (List.range 4).map fun j => (Quad.line q.data j, q.pois)
      let (_, d) := m.ws.foldl (Dev.serveWaiter sl x { ph with par := false, tag := .ok }) (buf, d)
      d.admitWaiting c 192

end Sys2Proof.Machine
end

