-- ==== Sys2Proof/Machine/Cohere.lean ====
section
/-! DEFINITION. Coherence at the home slice: requests to shared lines, collections of snoop answers, forwards, the conflict queue (R206 to R218, R222, R224, R225, R229). -/
namespace Sys2Proof.Machine

/-- What a request asks of its line (Table 7.2, R207). -/
inductive Want where
  | none | s | a | w
  deriving DecidableEq, Repr

/-- What a request asks of its line; a RDONLY record's request for A is one for S (R207, R213). -/
def wantOf (k : ReqKind) (rdonly : Bool) : Want :=
  match k with
  | .rd .data => .s
  | .rd .inv => if rdonly then .s else .a
  | .minv => if rdonly then .s else .a
  | .rd _ => .none
  | .clnEvct => .none
  | _ => .w

/-- Snoop an owner's host receives for what the head wants (Table 7.2). -/
def Want.snp : Want → Snp
  | .none => .cur
  | .s => .data
  | _ => .inv

/-- State granted with the data (Table 7.2). -/
def Want.grant : Want → MetaV
  | .s => .s
  | .a => .a
  | _ => .noOp

/-- Outcome of the coherence stage. -/
inductive CohOut where
  /-- the request may be served -/
  | go (w : Work)
  /-- it waits in the conflict queue -/
  | wait
  /-- it was answered, forwarded or given to a collection -/
  | gone

/-- Send a back-invalidate snoop to a host (R211 to R213, R219; counted 00Bh). -/
def Dev.sendSnoop (d : Dev) (ld line : Nat) (blk : Bool) (kind : Snp) (home : Nat) (why : SnpFor) : Dev :=
  let s : Snoop := { line, blk, kind, home, why, limit := d.p 0x181 }
  let d := d.modLd ld fun l => { l with coh := { l.coh with snoops := l.coh.snoops ++ [s] } }
  (d.respond ld (.snp kind blk line)).bump 0x00B ld 1

/-- Line and form of a snoop that takes a whole sector from a landing: the single-line form when its entry lets the landing hold one line, else
the block form (R213). -/
def Dev.snoopForm (d : Dev) (sl sector n : Nat) : Nat × Bool :=
  match d.fent sl sector with
  | none => (sector * 4, true)
  | some (_, e) =>
    let owned := if e.owned && decide (e.owner.val = n) then e.linesIn 2 else []
    let shared := if e.sharers.getLsbD n then e.linesIn 1 else []
    match owned ++ shared with
    | [j] => (sector * 4 + j, false)
    | _ => (sector * 4, true)

/-- Start a collection: snoop some landings for a line, or for the whole sector, and wait for their answers (R213); a rebuild always takes the
block form (R212). -/
def Dev.collect (d : Dev) (sl sector : Nat) (line : Option Nat) (kind : Snp) (lds : List Nat) (act : CollAct) : Dev :=
  let id := (d.ms sl).filt.nextColl
  let form := fun n => match line with
    | some l => (l, false)
    | none => if act = CollAct.rebuild then (sector * 4, true) else d.snoopForm sl sector n
  let d := d.modF sl fun f => { f with colls := f.colls ++ [{ id, sector, wait := lds, asked := lds, act }], nextColl := id + 1 }
  lds.foldl (fun d n =>
    if sector ∈ (d.ld n).coh.hold && decide (act = .victim) then d else d.sendSnoop n (form n).1 (form n).2 kind sl (.home id)) d

/-- Take a place for the entry of a sector that has none (R211). -/
inductive Took where
  | ok (loc : FLoc) (e : FEnt)
  | wait
  | noState

/-- The entry of a sector, allocated when absent, a victim's sector being back-invalidated first (R211); while a set's victim is, no second one is
chosen there. -/
def Dev.takeEnt (d : Dev) (sl sector : Nat) : Took × Dev :=
  match d.fent sl sector with
  | some (loc, e) => (.ok loc e, d)
  | none =>
    let evicting := d.slc.any fun s => s.2.filt.colls.any fun c =>
      decide (c.act = .victim) && decide (fSet c.sector = fSet sector) && decide (d.filtAt s.1 = d.filtAt sl)
    if (d.ms sl).filt.noGrant then (.noState, d)
    else if evicting then (.wait, d)
    else
      match d.newEnt sl sector with
      | .at_ fs key =>
        let e : FEnt := { valid := true, sector, frgn := fs ≠ sl, alloc := (d.ms fs).filt.order }
        (.ok (.way fs key) e, d.modF fs fun f => { f with order := f.order + 1 })
      | .evict fs _ v =>
        let h := entHome fs v
        let lds := v.shs ++ (if v.owned && !v.sharers.getLsbD v.owner then [v.owner.val] else [])
        let d := d.modF fs fun f => { f with evicts := if f.evicts = 0xFFFF#16 then f.evicts else f.evicts + 1#16 }
        (.wait, d.collect h v.sector none .inv lds .victim)
      | .allBusy => (.wait, d)
      | .allAdrift => (.noState, d.modF sl fun f => { f with nostate := f.nostate + 1 })

/-- Grant what a request wants in an unowned sector, its conflicts settled (Table 7.2, R229): the entry is written before the response leaves. -/
def Dev.grantNow (d : Dev) (sl : Nat) (w : Work) : CohOut × Dev :=
  let sector := w.line / 4
  let j := w.line % 4
  let want := wantOf w.req.kind w.rdonly
  let go := fun (g : MetaV) => CohOut.go { w with grant := some g }
  match w.ld with
  | none =>
    let d := match want, d.fent sl sector with
      | .w, some (loc, e) => d.putFent sl loc (e.setLs j 0)
      | _, _ => d
    (.gone, d.modF sl fun f => { f with settled := f.settled ++ [w.line] })
  | some n =>
    match want with
    | .none => (go .noOp, d)
    | .w =>
      match d.fent sl sector with
      | some (loc, e) => (go .noOp, d.putFent sl loc ((e.setLs j 0).disown e.owned))
      | none => (go .noOp, d)
    | .s =>
      match d.takeEnt sl sector with
      | (.ok loc e, d) =>
        let e := { e with sharers := setBit e.sharers n true }
        (go .s, d.putFent sl loc (if e.ls j = 0 then e.setLs j 1 else e))
      | (.wait, d) => (.wait, d)
      | (.noState, d) => (go .noOp, d)
    | .a =>
      match d.takeEnt sl sector with
      | (.ok loc e, d) =>
        let same := e.owned && decide (e.owner.val = n)
        let e := { e with owner := Fin.ofNat 16 n, epoch := if same then e.epoch else e.epoch + 1#4 }
        (go .a, d.putFent sl loc (e.setLs j 2))
      | (.wait, d) => (.wait, d)
      | (.noState, d) => (go .noOp, d)

/-- Boarding-queue entries of a landing that are shared: total, and those neither in use nor granted (R218). -/
def Dev.sharedPlaces (d : Dev) : Nat := 32 - d.units.length

/-- Shared entries of a landing free to be granted or passed into (R218, R220). -/
def Dev.sharedFree (d : Dev) (n : Nat) : Nat :=
  let c := (d.ld n).coh
  d.sharedPlaces - (c.board.filter (·.shared)).length - c.shared.length

/-- A home slice may forward to a landing: a granted shared credit, or its reserved entry free (R218). -/
def Dev.fwdCredit (d : Dev) (sl n : Nat) : Option Bool :=
  let c := (d.ld n).coh
  if sl ∈ c.shared then some true
  else if c.board.any fun f => decide (f.home = sl) && !f.shared then none else some false

/-- Put an entry into a landing's boarding queue (R216, R217, Table 7.4). -/
def Dev.board (d : Dev) (n : Nat) (f : Fwd) : Dev :=
  (d.modLd n fun l =>
    let b := l.coh.board ++ [f]
    { l with coh := { l.coh with board := b, peak := max l.coh.peak b.length } }).bump 0x00C n 1

/-- Forward a request to the owner landing (R216, R218): false when no credit is held. -/
def Dev.forward (d : Dev) (sl : Nat) (w : Work) (e : FEnt) : Bool × Dev :=
  let o := e.owner.val
  match d.fwdCredit sl o with
  | none => (false, d)
  | some shared =>
    let f : Fwd := { sector := w.line / 4, line := w.line % 4, home := sl, ld := w.ld, req := w.req, cls := w.cls, epoch := e.epoch,
                     rdonly := w.rdonly, shared, dead := w.dead }
    let d := if shared then d.modLd o fun l => { l with coh := { l.coh with shared := l.coh.shared.erase sl } } else d
    let d := (d.board o f).modF sl fun x => { x with fwds := x.fwds ++ [f] }
    let want := wantOf w.req.kind w.rdonly
    match w.ld with
    | some n =>
      if want = .w then (true, d)
      else (true, d.modLd n fun l => { l with coh := { l.coh with xfers := l.coh.xfers ++
        [{ sector := w.line / 4, line := w.line % 4, home := sl, epoch := e.epoch + 1#4, tag := w.req.tag, grant := want.grant }] } })
    | none => (true, d)

/-- A filter entry fails its parity twice (R212, R231): the sector is snooped on every landing of the group; lines a down landing may have held
are Adrift already (R227). -/
def Dev.rebuildEnt (d : Dev) (sl sector : Nat) : Dev :=
  d.collect sl sector none .inv ((d.groupOf (sector / 2 ^ 20)).filter d.linkLive) .rebuild

/-- The landing has a snoop outstanding for the sector, so its write is the answer (R212, R219, R234). -/
def Dev.answering (d : Dev) (n sector : Nat) : Bool :=
  (d.ld n).coh.snoops.any fun s => decide (s.line / 4 = sector)

/-- The owner's write or eviction meets a forward outstanding (R225): its data answers the snoop, goes to the requesting landing at once and is
installed at the home slice; the state is left to the handoff. -/
def Dev.passed (d : Dev) (w : Work) (n : Nat) : Dev :=
  let sector := w.line / 4
  let note := fun s : Snoop =>
    if s.line / 4 = sector ∧ s.why = .board then
      { s with got := (s.got.filter fun g => g.1 ≠ w.line % 4) ++ [(w.line % 4, w.req.data, w.req.poison)] }
    else s
  let d := d.modLd n fun l => { l with coh := { l.coh with snoops := l.coh.snoops.map note } }
  match (d.ld n).coh.board.find? fun f => decide (f.sector = sector) with
  | none => d
  | some f =>
    let evicts := match w.req.kind with
      | .wr .i => true
      | _ => false
    match f.ld with
    | none => d
    | some r =>
      if evicts && decide (f.line = w.line % 4) && !f.req.kind.writes && decide (f.req.kind ≠ .minv) then
        let send := fun x : Xfer =>
          if x.sector = sector ∧ x.line = f.line ∧ x.epoch = f.epoch + 1#4 then
            { x with inFlight := x.inFlight ++ [(f.epoch + 1#4, w.req.data, w.req.poison)] }
          else x
        d.modLd r fun l => { l with coh := { l.coh with xfers := l.coh.xfers.map send } }
      else d

/-- State after a write or MemClnEvct of the owner (Table 7.2). -/
def FEnt.ownerWrote (e : FEnt) (j n : Nat) (k : ReqKind) : FEnt :=
  match k with
  | .wr .i => (e.setLs j 0).disown e.owned
  | .wrPtl .i => (e.setLs j 0).disown e.owned
  | .clnEvct => if e.ls j = 2 then (e.setLs j 0).disown e.owned else e
  | .wr .s => ({ e with sharers := setBit e.sharers n true }.setLs j 1).disown e.owned
  | .wrPtl .s => ({ e with sharers := setBit e.sharers n true }.setLs j 1).disown e.owned
  | _ => e

/-- An Adrift line is read, or written without healing it (R229): poison and no state, or the data discarded. -/
def Dev.adriftServe (d : Dev) (sl : Nat) (w : Work) : Dev :=
  if w.req.kind.writes then d.ackWrite w
  else if w.pf then d.dropPf w
  else
    let l := Config.poisonLine d.draws
    ({ d with draws := d.draws + 1 } : Dev).answer sl { w with grant := some .noOp } l true 8

/-- The request does not end the Adrift state of its line (R229). -/
def Work.staysAdrift (w : Work) : Bool :=
  match w.req.kind with
  | .wr _ => w.req.poison
  | .clnEvct => false
  | _ => true

/-- The coherence stage of a request to a shared line (Table 7.2, R211 to R216, R222, R224, R225, R229, R232). -/
def Dev.cohere (d : Dev) (sl : Nat) (w : Work) (ph : Phys) : CohOut × Dev :=
  let sector := w.line / 4
  let j := w.line % 4
  let f := (d.ms sl).filt
  let n := w.ld.getD 16
  let ans := d.answering n sector
  if f.moving then (.wait, d)
  else if !ans && f.colls.any (fun c => decide (c.sector = sector) || (decide (c.act = .rebuild) && decide (fSet c.sector = fSet sector))) then (.wait, d)
  else if f.handoffs.any (fun h => match h.head with | some x => decide (x.sector = sector) | none => false) then (.wait, d)
  else if !ans && (d.ms sl).misses.any (fun m => decide (m.quad = sector) && m.ws.any fun x => x.shared && !x.pf) then (.wait, d)
  else if !ans && d.lnd.any (fun x => x.2.wait.any fun y => decide (y.1 = sl ∧ y.2.line / 4 = sector) && y.2.grant.isSome) then (.wait, d)
  else
    match d.fent sl sector with
    | none =>
      match w.req.kind with
      | .clnEvct => (.gone, match w.ld with
          | some n => d.respond n (.cmp w.req.tag .noOp)
          | none => d)
      | _ => d.grantNow sl w
    | some (loc, _) =>
      let (c, inj, d) := d.check [sliceSrc sl 0x1E] ph.filt
      match c with
      | .lasting => (.wait, (d.rebuildEnt sl sector).modF sl fun f =>
          { f with colls := f.colls.map fun c => if c.sector = sector && decide (c.act = .rebuild) then { c with inj, bad := ph.filtBad } else c })
      | _ =>
        let d := if c = .transient then d.modF sl fun f => { f with transient := f.transient + 1 } else d
        let e := ((d.fent sl sector).map (·.2)).getD {}
        let isOwner := e.owned && decide (e.owner.val = n) && !(decide (e.ls j = 3) && w.req.kind.writes)
        let foreign := e.owned && decide (e.owner.val ≠ n)
        let fwds := f.fwds.any fun x => decide (x.sector = sector)
        match w.req.kind with
        | .clnEvct =>
          let d := if isOwner && !fwds then d.putFent sl loc (e.ownerWrote j n w.req.kind) else d
          (.gone, match w.ld with
            | some n => d.respond n (.cmp w.req.tag .noOp)
            | none => d)
        | _ =>
          if e.ls j = 3 && w.staysAdrift then (.gone, d.adriftServe sl w)
          else if isOwner then
            if w.req.kind.writes then
              if fwds then (.go { w with grant := some .noOp }, d.passed w n)
              else (.go { w with grant := some .noOp }, d.putFent sl loc (e.ownerWrote j n w.req.kind))
            else if fwds then (.wait, d)
            else d.grantNow sl w
          else if w.pf && (foreign || fwds) then (.gone, d.dropPf w)
          else
            let want := wantOf w.req.kind w.rdonly
            let others := e.shs.filter fun k => k ≠ n
            let kills := decide (want = .a) || decide (want = .w)
            if foreign then
              if kills && decide (e.ls j = 1) && !others.isEmpty then
                (.gone, d.collect sl sector (some w.line) .inv others (.serve w))
              else
                match d.forward sl w e with
                | (true, d) => (.gone, d)
                | (false, d) => (.wait, d)
            else if kills && !others.isEmpty then (.gone, d.collect sl sector (some w.line) .inv others (.serve w))
            else d.grantNow sl w

/-- Serve one request at its home slice: coherence, then the Wharf and DRAM path. None when nothing is left waiting. -/
def Dev.serve (d : Dev) (sl : Nat) (w : Work) (ph : Phys) : Option Work × Dev :=
  if w.shared && w.grant.isNone then
    match d.cohere sl w ph with
    | (.go w, d) => d.serveLocal sl w ph
    | (.wait, d) => (some w, d)
    | (.gone, d) => (none, d)
  else
    match w.req.kind with
    | .clnEvct => (none, match w.ld with
        | some n => d.respond n (.cmp w.req.tag .noOp)
        | none => d)
    | _ => d.serveLocal sl w ph

/-- Order a request in a home slice's conflict queue and serve it unless an earlier one to its line waits (R35, R36). -/
def Dev.submit (d : Dev) (sl : Nat) (w : Work) (ph : Phys) : Dev :=
  let behind := (d.ms sl).waitq.any fun x => decide (x.line = w.line)
  let ans := w.shared && d.answering (w.ld.getD 16) (w.line / 4)
  if behind && !ans then d.modMs sl fun s => { s with waitq := s.waitq ++ [w] }
  else
    match d.serve sl w ph with
    | (none, d) => d
    | (some w, d) => d.modMs sl fun s => { s with waitq := s.waitq ++ [w] }

/-- One pass over the conflict queue of a slice: each request is tried unless an earlier one to its line still waits (R36). -/
def Dev.retryPass (d : Dev) (sl : Nat) : Dev :=
  let q := (d.ms sl).waitq
  let d := d.modMs sl fun s => { s with waitq := [] }
  let (kept, d) := q.foldl (fun (acc : List Work × Dev) w =>
    let (kept, d) := acc
    if kept.any fun x => decide (x.line = w.line) then (kept ++ [w], d)
    else
      match d.serve sl w {} with
      | (none, d) => (kept, d)
      | (some w, d) => (kept ++ [w], d)) ([], d)
  d.modMs sl fun s => { s with waitq := kept ++ s.waitq }

/-- Passes over the conflict queue until no request gets on. -/
def Dev.retry (d : Dev) (sl : Nat) : Nat → Dev
  | 0 => d
  | n + 1 =>
    let before := (d.ms sl).waitq.length
    if before = 0 then d
    else
      let d := d.retryPass sl
      if (d.ms sl).waitq.length < before then d.retry sl n else d

/-- Every slice with waiting requests tries them again. -/
def Dev.retryAll (d : Dev) : Dev :=
  d.slc.foldl (fun d x => if x.2.waitq.isEmpty then d else d.retry x.1 (x.2.waitq.length + 1)) d

/-- A collection has all its answers (R93, R211 to R213, R234). -/
def Dev.finishColl (d : Dev) (sl : Nat) (c : Coll) : Dev :=
  let d := d.modF sl fun f => { f with colls := f.colls.filter fun x => x.id ≠ c.id }
  match c.act with
  | .serve w =>
    let j := w.line % 4
    let d := match d.fent sl c.sector with
      | some (loc, e) =>
        let e := if e.ls j = 1 then e.setLs j 0 else e
        let e := if (e.linesIn 1).isEmpty then
            { e with sharers := c.asked.foldl (fun s n => setBit s n false) e.sharers } else e
        d.putFent sl loc e
      | none => d
    let owned := match d.fent sl c.sector with
      | some (_, e) => e.owned && decide (w.ld ≠ some e.owner.val)
      | none => false
    if owned then d.modMs sl fun s => { s with waitq := w :: s.waitq }
    else
      match d.grantNow sl w with
      | (.go w, d) => d.modMs sl fun s => { s with waitq := w :: s.waitq }
      | (.wait, d) => d.modMs sl fun s => { s with waitq := w :: s.waitq }
      | (.gone, d) => d
  | .rebuild =>
    let key := match d.fent sl c.sector with
      | some (.way _ k, _) => some k
      | _ => none
    let d := match d.fent sl c.sector with
      | some (loc, e) => d.putFent sl loc { e with lstate := if c.lost then 0xFF#8 else 0#8, sharers := 0#16 }
      | none => d
    let d := d.report { src := sliceSrc sl 0x1E, det0 := c.sector * 256, inj := c.inj }
    match key with
    | some k => d.testLocation (d.filtAt sl) (16 * fSet c.sector + k % 32 / 8) c.bad false
    | none => d
  | .release _ =>
    match d.fent sl c.sector with
    | some (loc, e) =>
      let mine := e.owned && c.asked.any fun n => decide (e.owner.val = n)
      let e1 := { e with sharers := c.asked.foldl (fun s n => setBit s n false) e.sharers }
      let e2 := if mine then (e.linesIn 2).foldl (fun x j => x.setLs j 0) e1 else e1
      d.putFent sl loc (e2.disown e.owned)
    | none => d
  | _ =>
    match d.fent sl c.sector with
    | some (loc, e) =>
      let gone := fun (e : FEnt) => (e.linesIn 1 ++ e.linesIn 2).foldl (fun e j => e.setLs j 0) { e with sharers := 0#16 }
      d.putFent sl loc ((gone e).disown e.owned)
    | none => d

/-- A landing's answer to a snoop of a collection (R213). -/
def Dev.collAnswer (d : Dev) (sl id n : Nat) : Dev :=
  let d := d.modF sl fun f => { f with colls := f.colls.map fun c => if c.id = id then { c with wait := c.wait.filter fun x => x ≠ n } else c }
  match (d.ms sl).filt.colls.find? fun c => decide (c.id = id) && c.wait.isEmpty with
  | some c => d.finishColl sl c
  | none => d

end Sys2Proof.Machine
end

