-- ==== Sys2Proof/Machine/Handoff.lean ====
section
/-! DEFINITION. The boarding queue at the owner landing, handoffs, transfers to requesting landings, loss reports (R217 to R228). -/
namespace Sys2Proof.Machine

/-- Entries of a landing's boarding queue for a sector, in order. -/
def Coh.ofSector (c : Coh) (sector : Nat) : List Fwd := c.board.filter fun f => decide (f.sector = sector)

/-- The owner landing snoops its host for the head of a sector once the hold has expired (R219, R221); block form when it owns several lines
of the sector in A (R213). Nothing happens when there is no head, a snoop for it is out, the hold runs, or the link is not Up. -/
def Dev.serveHead (d : Dev) (ld sector : Nat) : Dev :=
  let c := (d.ld ld).coh
  match c.ofSector sector with
  | [] => d
  | f :: _ =>
    if c.snoops.any (fun s => decide (s.line / 4 = sector) && decide (s.why = .board)) || decide (sector ∈ c.hold) then d
    else if (d.ld ld).link.st ≠ .up then d
    else
      let lines := match d.fent f.home sector with
        | some (_, e) => e.linesIn 2
        | none => []
      let blk := decide (2 ≤ lines.length)
      let line := sector * 4 + lines.headD f.line
      d.sendSnoop ld line blk (wantOf f.req.kind f.rdonly).snp f.home .board

/-- Append a handoff on its way to a home slice. -/
def Dev.sendHandoff (d : Dev) (home : Nat) (h : Handoff) : Dev := d.modF home fun f => { f with handoffs := f.handoffs ++ [h] }

/-- Send data of a line straight to a requesting landing under a transfer epoch (R219, R224). -/
def Dev.sendData (d : Dev) (ld sector line : Nat) (epoch : BitVec 4) (data : Line) (pois : Bool) : Dev :=
  let upd := fun x : Xfer =>
    if x.sector = sector ∧ x.line = line then { x with epoch, inFlight := x.inFlight ++ [(epoch, data, pois)] } else x
  d.modLd ld fun l => { l with coh := { l.coh with xfers := l.coh.xfers.map upd } }

/-- Data of a line among what a host wrote back. -/
def dataOf (got : List (Nat × Line × Bool)) (j : Nat) : Option (Line × Bool) := (got.find? fun g => decide (g.1 = j)).map (·.2)

/-- Entries behind a head that wanted A move to the new owner's queue, or go back to the home slice (R220): the result is what goes back. -/
def Dev.passOn (d : Dev) (new : Nat) (epoch : BitVec 4) (rest : List Fwd) : List Fwd × Dev :=
  rest.foldl (fun (acc : List Fwd × Dev) f =>
    let (back, d) := acc
    if f.ld ≠ some new && d.linkLive new && decide (0 < d.sharedFree new) then
      let upd := fun x : Xfer =>
        if x.sector = f.sector ∧ x.line = f.line ∧ x.got = false then { x with epoch := epoch + 1#4 } else x
      let d := match f.ld with
        | some r => d.modLd r fun l => { l with coh := { l.coh with xfers := l.coh.xfers.map upd } }
        | none => d
      (back, d.board new { f with epoch, shared := true })
    else (back ++ [f], d)) ([], d)

/-- Entries behind a head that wanted S are served from the data kept while they want S or no state (R220): handoffs, then what goes back. -/
def Dev.followS (d : Dev) (ld home : Nat) (epoch : BitVec 4) (got : List (Nat × Line × Bool)) : List Fwd → List Fwd × Dev
  | [] => ([], d)
  | f :: rest =>
    let want := wantOf f.req.kind f.rdonly
    if want = .a ∨ want = .w then (f :: rest, d)
    else
      let x := dataOf got f.line
      let d := match f.ld, x with
        | some r, some (data, pois) => d.sendData r f.sector f.line epoch data pois
        | _, _ => d
      let h : Handoff := { from_ := ld, head := some f, data := [], sent := x.isSome && f.ld.isSome }
      (d.sendHandoff home h).followS ld home epoch got rest

/-- The host's answer ends the service of a sector's head (R219, R220): data to the requesting landing, a handoff to the home slice, and the
entries behind passed on, followed up or returned. -/
def Dev.headDone (d : Dev) (ld : Nat) (s : Snoop) (rsp : BiRsp) : Dev :=
  let sector := s.line / 4
  match (d.ld ld).coh.ofSector sector with
  | [] => d
  | f :: rest =>
    let e := match d.fent f.home sector with
      | some (_, e) => e
      | none => {}
    let want := wantOf f.req.kind f.rdonly
    let owned := e.linesIn 2
    let snooped := owned.foldl (fun m j => setBit m j true) 0#4
    let e1 := f.epoch + 1#4
    let x := dataOf s.got f.line
    let sendIt := decide (want ≠ .w) && decide (f.req.kind ≠ .minv) && x.isSome && f.ld.isSome
    let d := match f.ld, x with
      | some r, some (data, pois) => if sendIt then d.sendData r sector f.line e1 data pois else d
      | _, _ => d
    let stays := fun y : Fwd => decide (y.sector ≠ sector) || (decide (want = Want.none) && decide (y ≠ f))
    let d := d.modLd ld fun l => { l with coh := { l.coh with board := l.coh.board.filter stays } }
    let main : Handoff := { from_ := ld, head := some f, rsp, snooped, data := s.got, sent := sendIt }
    let finish := fun (d : Dev) (hs : List Handoff) (back : List Fwd) =>
      let d := d.modLd ld fun l => { l with coh := { l.coh with returns := BitVec.ofNat 16 (satAdd 0xFFFF l.coh.returns.toNat back.length) } }
      let d := hs.foldl (fun d h => d.sendHandoff f.home h) d
      if back.isEmpty then d else d.sendHandoff f.home { from_ := ld, head := none, back }
    match want with
    | .none => finish d [main] []
    | .w => finish d [main] rest
    | .a =>
      match f.ld with
      | some new =>
        let (back, d) := d.passOn new e1 rest
        finish d [main] back
      | none => finish d [main] rest
    | .s =>
      let (back, d) := (d.sendHandoff f.home main).followS ld f.home e1 s.got rest
      finish d [] back

/-- A back-invalidate response from a host (R97, R213, R219): the oldest snoop it matches is complete; none matching, it is discarded. -/
def Dev.biRsp (d : Dev) (ld line : Nat) (blk : Bool) (rsp : BiRsp) : Dev :=
  match (d.ld ld).coh.snoops.find? fun s => decide (s.blk = blk) && (if blk then decide (s.line / 4 = line / 4) else decide (s.line = line)) with
  | none => d
  | some s =>
    let d := d.modLd ld fun l => { l with coh := { l.coh with snoops := l.coh.snoops.erase s } }
    match s.why with
    | .board => d.headDone ld s rsp
    | .home id => d.collAnswer s.home id ld

/-- A transfer of a landing has ended, by its data's acceptance and the handoff, or by its return to the home slice. -/
def Dev.dropXfer (d : Dev) (ld sector line : Nat) : Dev :=
  d.modLd ld fun l => { l with coh := { l.coh with xfers := l.coh.xfers.filter fun x => !(decide (x.sector = sector) && decide (x.line = line)) } }

/-- A boarding entry as the request the home slice served it for (R220). -/
def Fwd.toWork (f : Fwd) (grant : Option MetaV) : Work :=
  { ld := f.ld, req := f.req, line := f.sector * 4 + f.line, cls := f.cls, shared := true, rdonly := f.rdonly, near := false, grant, dead := f.dead }

/-- Put a written-back line into the Wharf as Dirty (R219): false while no way can take it. -/
def Dev.installBack (d : Dev) (sl line cls : Nat) (data : Line) (pois : Bool) : Bool × Dev :=
  if (d.ms sl).wharf.noInstall && ((d.ms sl).wharf.find line).isNone then d.bufWrite sl line data pois cls
  else d.installDirty sl line data pois (!pois) cls {}

/-- State of an entry after a handoff (R220). -/
def FEnt.handed (e : FEnt) (h : Handoff) (f : Fwd) : FEnt :=
  let lines := (List.range 4).filter fun j => h.snooped.getLsbD j && decide (e.ls j = 2)
  let was := e.owned && decide (e.owner.val = h.from_)
  match wantOf f.req.kind f.rdonly with
  | .none => e
  | .a =>
    let e := lines.foldl (fun e j => e.setLs j 0) e
    match f.ld with
    | some n => { e.setLs f.line 2 with owner := Fin.ofNat 16 n, epoch := e.epoch + 1#4 }
    | none => e.disown was
  | .s =>
    let e := lines.foldl (fun e j => e.setLs j 1) e
    let sh := match f.ld with
      | some n => setBit e.sharers n true
      | none => e.sharers
    let e := if was then ({ e with sharers := setBit sh h.from_ true } : FEnt).disown was else { e with sharers := sh }
    if e.ls f.line = 0 then e.setLs f.line 1 else e
  | .w => ((lines.foldl (fun e j => e.setLs j 0) e).setLs f.line 0).disown was

/-- Apply the loss outcome of one transfer to its line (R227): acknowledged, Adrift; else I. -/
def Dev.lossLine (d : Dev) (sl ld sector line : Nat) (acked : Bool) : Dev :=
  match d.fent sl sector with
  | none => d
  | some (loc, e) =>
    if e.ls line = 2 && decide (e.owner.val = ld) then
      (if acked then d.makeAdrift sl loc e [line] ld else d.putFent sl loc ((e.setLs line 0).disown e.owned))
    else d.putFent sl loc { e with sharers := setBit e.sharers ld false }

/-- Loss reports that waited for a handoff of their sector (R227). -/
def Dev.lossPending (d : Dev) (sl sector : Nat) : Dev :=
  let due := (d.ms sl).filt.lossWait.filter fun x => decide (x.2.1 = sector)
  let d := d.modF sl fun f => { f with lossWait := f.lossWait.filter fun x => x.2.1 ≠ sector }
  due.foldl (fun d x => d.lossLine sl x.1 x.2.1 x.2.2.1 x.2.2.2.2) d

/-- The home slice applies the oldest handoff (R219, R220, R225, R227): data installed as Dirty, entry updated, the requester given its data from
here when the owner sent none, and the returned entries put ahead of every later request, behind the
heads already settled. It waits while no way can take the data. -/
def Dev.applyHandoff (d : Dev) (sl : Nat) : Dev :=
  match (d.ms sl).filt.handoffs with
  | [] => d
  | h :: hs =>
    let cls := match h.head with
      | some f => f.cls
      | none => 63
    let sector := match h.head, h.back with
      | some f, _ => f.sector
      | none, b :: _ => b.sector
      | none, [] => 0
    let (ok, d1) := h.data.foldl (fun (acc : Bool × Dev) g =>
      let (r, d) := acc.2.installBack sl (sector * 4 + g.1) cls g.2.1 g.2.2
      (acc.1 && r, d)) (true, d)
    if !ok then d
    else
      let gone := h.head.toList ++ h.back
      let d := d1.modF sl fun f => { f with handoffs := hs, fwds := f.fwds.filter fun x => !(gone.any fun g =>
        decide (g.sector = x.sector ∧ g.line = x.line ∧ g.ld = x.ld ∧ g.req = x.req)) }
      let d := match h.head with
        | none => d
        | some f =>
          let d := match d.fent sl sector with
            | some (loc, e) => d.putFent sl loc (e.handed h f)
            | none => d
          let want := wantOf f.req.kind f.rdonly
          match f.ld with
          | none => d.modF sl fun x => { x with settled := x.settled ++ [sector * 4 + f.line] }
          | some n =>
            let x : Option Xfer := (d.ld n).coh.xfers.find? fun x => decide (x.sector = sector) && decide (x.line = f.line)
            let second := match x with
              | some x => x.got || !x.inFlight.isEmpty
              | none => false
            if want = Want.w then d.modMs sl fun s => { s with waitq := f.toWork (some .noOp) :: s.waitq }
            else if h.sent || second then
              (if (x.map fun (x : Xfer) => x.got && x.acked) = some true then d.dropXfer n sector f.line else d)
            else if x.isNone then d
            else (d.dropXfer n sector f.line).modMs sl fun s => { s with waitq := f.toWork (some want.grant) :: s.waitq }
      let d := h.back.foldl (fun d f => match f.ld with
        | some n => d.dropXfer n sector f.line
        | none => d) d
      let mine := fun (w : Work) => w.grant.isSome && decide (w.line / 4 = sector)
      let d := d.modMs sl fun s => { s with waitq := s.waitq.filter mine ++ h.back.map (fun f => f.toWork none) ++ s.waitq.filter fun w => !mine w }
      d.lossPending sl sector

/-- The oldest data message on its way to a requesting landing arrives (R219, R224): the first with the transfer's epoch completes the host's
request with the state granted; any other is discarded. -/
def Dev.dataArrives (d : Dev) (ld : Nat) : Dev :=
  match (d.ld ld).coh.xfers.find? fun x => !x.inFlight.isEmpty with
  | none => d
  | some x =>
    match x.inFlight with
    | [] => d
    | (ep, data, pois) :: rest =>
      let take := !x.got && decide (ep = x.epoch)
      let upd := fun y : Xfer => if y = x then { y with inFlight := rest, got := y.got || take } else y
      let d := d.modLd ld fun l => { l with coh := { l.coh with xfers := l.coh.xfers.map upd } }
      if !take || !d.linkLive ld then d
      else
        let lat := ((d.ld ld).rxtx + 40 + 20 * d.hop ld x.home) / 10 + 10
        let d := d.respond ld (.data x.tag data pois x.grant lat) (some (x.epoch.toNat, x.sector))
        let d := ((d.bump 0x001 ld 1).bump 0x003 ld 64).bump 0x005 ld lat
        let d := if pois then d.bump 0x00A ld 1 else d
        if x.grant = .a then d.startHold ld x.sector else d

/-- A home slice asks a landing for a shared boarding-queue credit, granted while shared entries are free (R218). Nothing happens unless a forward
to the landing waits and the slice's reserved entry there is in use. -/
def Dev.creditRequest (d : Dev) (sl ld : Nat) : Dev :=
  let waits := (d.ms sl).waitq.any fun w => w.shared && w.grant.isNone && (match d.fent sl (w.line / 4) with
    | some (_, e) => e.owned && decide (e.owner.val = ld) && decide (w.ld ≠ some ld)
    | none => false)
  let used := (d.ld ld).coh.board.any fun f => decide (f.home = sl) && !f.shared
  if waits && used && !decide (sl ∈ (d.ld ld).coh.shared) then
    if 0 < d.sharedFree ld then
      (d.modLd ld fun l => { l with coh := { l.coh with shared := l.coh.shared ++ [sl] } }).modF sl fun f => { f with credReq := f.credReq.erase ld }
    else d.modF sl fun f => { f with credReq := if ld ∈ f.credReq then f.credReq else f.credReq ++ [ld] }
  else d

/-- Shared credits asked for and not yet granted go out as entries free (R218). -/
def Dev.grantCredits (d : Dev) : Dev :=
  d.slc.foldl (fun d x => x.2.filt.credReq.foldl (fun d n =>
    if 0 < d.sharedFree n then
      (d.modLd n fun l => { l with coh := { l.coh with shared := l.coh.shared ++ [x.1] } }).modF x.1 fun f => { f with credReq := f.credReq.erase n }
    else d) d) d

/-- The minimum hold of a sector ends (R221): a filter replacement that waited for it snoops now. -/
def Dev.holdEnds (d : Dev) (ld sector : Nat) : Dev :=
  if !decide (sector ∈ (d.ld ld).coh.hold) then d
  else
    let d := d.modLd ld fun l => { l with coh := { l.coh with hold := l.coh.hold.erase sector } }
    d.units.foldl (fun d s => (d.ms s).filt.colls.foldl (fun d c =>
      if decide (c.sector = sector) && decide (ld ∈ c.wait) && decide (c.act = .victim)
          && !((d.ld ld).coh.snoops.any fun x => decide (x.why = .home c.id) && decide (x.home = s)) then
        d.sendSnoop ld (d.snoopForm s sector ld).1 (d.snoopForm s sector ld).2 .inv s (.home c.id)
      else d) d) d

/-- The oldest loss report at a home slice (R227): each transfer waits for its handoff, or takes its outcome now. -/
def Dev.applyLoss (d : Dev) (sl : Nat) : Dev :=
  match (d.ms sl).filt.losses with
  | [] => d
  | r :: rs =>
    let d := d.modF sl fun f => { f with losses := rs }
    r.xfers.foldl (fun d x =>
      let (sector, line, ep, acked) := x
      let pending := (d.ms sl).filt.handoffs.any fun h => match h.head with
        | some f => decide (f.sector = sector) && decide (f.ld = some r.ld)
        | none => false
      let queued := (d.ms sl).filt.fwds.any fun f => decide (f.sector = sector) && decide (f.ld = some r.ld)
      if pending || queued then d.modF sl fun f => { f with lossWait := f.lossWait ++ [(r.ld, sector, line, ep, acked)] }
      else d.lossLine sl r.ld sector line acked) d

end Sys2Proof.Machine
end

