-- ==== Sys2Proof/Machine/Request.lean ====
section
/-! DEFINITION. A CXL.mem request at its landing: payload figures, access checks, stride detection and prefetch, submission to its home slice (R30, R80, R96, R97, R195 to R197, R517). -/
namespace Sys2Proof.Machine

/-- Payload per direction of Table 2.2 at x8, GB/s. -/
def payloadOf (speed flit : Nat) : Nat :=
  match speed, flit with
  | 4, _ => 60
  | 3, 0 => 28
  | 3, _ => 30
  | 2, _ => 14
  | 1, _ => 7
  | _, _ => 0

/-- Lanes of a WIDTH code (Table 2.7). -/
def lanesOf (w : Nat) : Nat := if w = 0 then 0 else 2 ^ (w - 1)

/-- M2S Req and RwD slots a landing can pass to the fabric in a 4 µs window (Table 10.1, R314). -/
def Landing.windowSlots (l : Landing) : Nat :=
  payloadOf l.link.speed.toNat l.link.flit.toNat * 500 * lanesOf l.link.width.toNat / 64

/-- Departures of a class in the present window (R312). -/
def Dev.departed (d : Dev) (ld c : Nat) : Nat := tget 0 d.qos.deps (64 * ld + c)

/-- A class has reached its effective ingress maximum in the present window (R312). -/
def Dev.atIngressMax (d : Dev) (ld c : Nat) : Bool :=
  decide (d.eX .i ld c * (d.ld ld).windowSlots ≤ 1024 * d.departed ld c)

/-- Count slots of a class that left a landing (R312). -/
def Dev.countDeparture (d : Dev) (ld c n : Nat) : Dev := { d with qos := { d.qos with deps := tmod 0 d.qos.deps (64 * ld + c) (· + n) } }

/-- Streams a landing can watch (R49, R195). -/
def Landing.nStrides (l : Landing) : Nat := if l.link.merged then 32 else 16

/-- A read takes the detector of its stream, or the least recently used one (R195): the detectors after it, and the stream. -/
def Landing.watch (l : Landing) (line label train : Nat) : Landing × Stride :=
  let near := fun s : Stride => decide (s.label = label) && decide (line ≤ s.last + 64) && decide (s.last ≤ line + 64)
  match l.strides.find? near with
  | none =>
    let s : Stride := { last := line, label, stride := 0, run := 1, trained := false, asked := [], use := l.strideUse }
    let kept := if l.strides.length < l.nStrides then l.strides
      else match argMin (·.use) l.strides with
        | some o => l.strides.erase o
        | none => l.strides
    ({ l with strides := kept ++ [s], strideUse := l.strideUse + 1 }, s)
  | some o =>
    let st : Int := (line : Int) - (o.last : Int)
    let s : Stride :=
      if st = 0 then { o with use := l.strideUse }
      else if st = o.stride then { o with last := line, run := o.run + 1, trained := o.trained || decide (train ≤ o.run + 1), use := l.strideUse }
      else { o with last := line, stride := st, run := 2, trained := decide (train ≤ 2), asked := [], use := l.strideUse }
    ({ l with strides := l.strides.map fun x => if x = o then s else x, strideUse := l.strideUse + 1 }, s)

/-- Send one prefetch, or drop it under R197 (R196). -/
def Dev.prefetch (d : Dev) (ld label line : Nat) (hpa : BitVec 64) : Dev :=
  let d := d.bump 0x006 ld 1
  match d.checkLine ld label line { kind := .rd .none, hpa } with
  | .fail _ _ => d.bump 0x008 ld 1
  | .ok sl w =>
    if d.atIngressMax ld w.cls || decide (384 < (d.ms sl).misses.length) then d.bump 0x008 ld 1 none (some w.cls)
    else d.submit sl { w with pf := true } {}

/-- Watch a read that passed the checks, and prefetch ahead of a trained stream (R195, R196). -/
def Dev.stride (d : Dev) (ld label line : Nat) (hpa : BitVec 64) : Dev :=
  let (l, s) := (d.ld ld).watch line label (d.p 0x174)
  let d := d.modLd ld fun _ => l
  if !s.trained || decide (s.last ≠ line) then d
  else
    let ts := (List.range (d.p 0x173)).filterMap fun (k : Nat) =>
      let t : Int := (line : Int) + ((k : Int) + 1) * s.stride
      if 0 ≤ t && decide (t < 2 ^ 39) then some t.toNat else none
    let ts := ts.foldl (fun acc t => if decide (t / 4 ∈ s.asked) || acc.any (fun u => decide (u / 4 = t / 4)) then acc else acc ++ [t]) []
    let ts := ts.filter fun t => t / 4 ≠ line / 4
    let upd := fun x : Stride => if x = s then { x with asked := x.asked ++ ts.map (· / 4) } else x
    let d := d.modLd ld fun l => { l with strides := l.strides.map upd }
    ts.foldl (fun d t => d.prefetch ld label t hpa) d

/-- Skid mode keeps the line addresses written in the open MAC epoch (R73). -/
def Dev.skidNote (d : Dev) (ld line : Nat) (k : ReqKind) : Dev :=
  if k.writes && decide ((d.ld ld).ideMem.mode = .skid) then
    d.modLd ld fun l => { l with ideMem := { l.ideMem with skid := if line ∈ l.ideMem.skid then l.ideMem.skid else l.ideMem.skid ++ [line] } }
  else d

/-- A CXL.mem request at its landing (R26, R30, R32, R96, R97, R517): checked, watched, and ordered at its home slice, behind an
earlier request of the landing to its line that waits for a tracker entry. A landing without CXL.mem
enabled answers it as a failed check of cause 1h. -/
def Dev.memReq (d : Dev) (ld : Nat) (req : Req) (ph : Phys) : Dev :=
  let c := if (d.ld ld).link.memen then d.checkReq ld req else .fail 1 0
  match c with
  | .fail cause label => (d.violation ld cause label req).failReq ld req
  | .ok sl w =>
    let d := d.skidNote ld w.line req.kind
    let behind := (d.ld ld).wait.any fun x => decide (x.1 = sl ∧ x.2.line = w.line)
    let d := if behind then d.modLd ld fun l => { l with wait := l.wait ++ [(sl, w)] } else d.submit sl w ph
    match req.kind with
    | .rd _ =>
      match (d.ld ld).acc.decode req.hpa.toNat with
      | some (label, _) => d.stride ld label w.line req.hpa
      | none => d
    | _ => d

end Sys2Proof.Machine
end

