-- ==== Sys2Proof/Machine/Down.lean ====
section
/-! DEFINITION. Landing reset and down declarations: outstanding work, owned and shared lines, loss reports, the host's Barge queue (R64 to R71, R226, R227, R231). -/
namespace Sys2Proof.Machine

/-- Request of a down landing that still waits somewhere (R66): a write goes on with its completion discarded, a private read goes on
without a grant, and what has no effect left is dropped. -/
def Work.orphan (ld : Nat) (w : Work) : Option Work :=
  if w.ld ≠ some ld then some w
  else
    match w.req.kind with
    | .clnEvct => none
    | .wr _ => some { w with dead := true }
    | .wrPtl _ => some { w with dead := true }
    | _ => if w.shared && w.grant.isNone then none else some { w with dead := true }

/-- A forwarded request of a down landing: its response is discarded. -/
def Fwd.orphan (ld : Nat) (f : Fwd) : Fwd := if f.ld = some ld then { f with dead := true } else f

/-- Outstanding requests of a down landing at a slice (Table 2.5). -/
def Slice.orphans (ld : Nat) (s : Slice) : Slice :=
  { s with
    waitq := s.waitq.filterMap (Work.orphan ld)
    misses := s.misses.map fun m => { m with ws := m.ws.filterMap (Work.orphan ld) }
    filt := { s.filt with
      fwds := s.filt.fwds.map (Fwd.orphan ld)
      handoffs := s.filt.handoffs.map fun h => { h with head := h.head.map (Fwd.orphan ld), back := h.back.map (Fwd.orphan ld) }
      colls := s.filt.colls.map fun c => match c.act with
        | .serve w => { c with act := .serve ((w.orphan ld).getD { w with dead := true, req := { w.req with kind := .rd .none } }) }
        | _ => c } }

/-- Outstanding requests of a down landing at a landing: boarding entries and requests that wait for a tracker entry (Table 2.5). -/
def Landing.orphans (ld : Nat) (l : Landing) : Landing :=
  { l with coh := { l.coh with board := l.coh.board.map (Fwd.orphan ld) }
           wait := l.wait.filterMap fun x => (x.2.orphan ld).map fun w => (x.1, w) }

/-- Mark every outstanding request of a down landing (Table 2.5). -/
def Dev.orphans (d : Dev) (ld : Nat) : Dev :=
  let d := (List.range 16).foldl (fun d n => if d.on n then d.modMs n (Slice.orphans ld) else d) d
  d.units.foldl (fun d n => d.modLd n (Landing.orphans ld)) d

/-- Send a message of the receive pool on its way (R59): a request to its home slice, a response to its snoop; CXL.io messages leave here. -/
def Dev.passMsg (d : Dev) (ld : Nat) (m : Msg) (ph : Phys) : Dev :=
  match m with
  | .rd r => d.memReq ld r.toReq ph
  | .wr w => d.memReq ld w.toReq ph
  | .clnEvct hpa tag => d.memReq ld { kind := .clnEvct, hpa, tag } ph
  | .biRsp line blk rsp => d.biRsp ld line.toNat blk rsp
  | _ => d

/-- Requests received complete leave the pool and execute, a containment epoch not yet verified being discarded (R66, R73). -/
def Dev.drainPool (d : Dev) (ld : Nat) : Dev :=
  let ms := (d.ld ld).pool.msgs
  let d := d.modLd ld fun l => { l with pool := { l.pool with msgs := [] } }
  ms.foldl (fun d m => if m.sealedEp then d else d.passMsg ld m.msg {}) d

/-- The home slices settle every sector a down landing appears in (Table 2.5, R227): lines it owned become Adrift, but those it was still
receiving, which its loss report settles; it leaves every sharer list. Every line of a sector whose entry is being rebuilt becomes Adrift (R231). -/
def Dev.loseLanding (d : Dev) (ld : Nat) (xfers : List Xfer) : Dev :=
  d.units.foldl (fun d sl =>
    let d := (List.range ((d.ms sl).filt.handoffs.length)).foldl (fun d _ =>
      match (d.ms sl).filt.handoffs with
      | h :: _ => if h.from_ = ld then d.applyHandoff sl else d
      | [] => d) d
    let secs := ((d.entsOf sl).filter (fun e => e.valid && (e.sharers.getLsbD ld || (e.owned && decide (e.owner.val = ld))))).map (·.sector)
    secs.foldl (fun d sector =>
      match d.fent sl sector with
      | none => d
      | some (loc, e) =>
        let mine := e.owned && decide (e.owner.val = ld)
        let recv := fun j => xfers.any fun x => decide (x.sector = sector ∧ x.line = j)
        let e := { e with sharers := setBit e.sharers ld false }
        let bad := (d.ms sl).filt.colls.any fun c => decide (c.sector = sector) && decide (c.act = .rebuild)
        let gone := if bad then ((List.range 4).filter fun j => decide (e.ls j ≠ 3)) else ((e.linesIn 2).filter fun j => mine && !recv j)
        let mark := fun c : Coll => if decide (c.sector = sector) && decide (c.act = .rebuild) then { c with lost := true } else c
        let d := d.modF sl fun f => { f with colls := f.colls.map mark }
        if gone.isEmpty then d.putFent sl loc e else d.makeAdrift sl loc e gone ld) d) d

/-- Entries in a down landing's boarding queue go back to their home slices (Table 2.5, R227). -/
def Dev.returnBoard (d : Dev) (ld : Nat) : Dev :=
  let b := (d.ld ld).coh.board
  let upd := fun c : Coh => { c with board := [] }
  let d := d.modLd ld fun l => { l with coh := upd l.coh }
  b.foldr (fun f d =>
    let d := match f.ld with
      | some n => d.dropXfer n f.sector f.line
      | none => d
    let other := fun g : Fwd => !decide (g.sector = f.sector ∧ g.line = f.line ∧ g.ld = f.ld ∧ g.req = f.req)
    let d := d.modF f.home fun x => { x with fwds := x.fwds.filter other }
    d.modMs f.home fun s => { s with waitq := f.toWork none :: s.waitq }) d

/-- The loss reports of a down landing, one per home slice it was receiving from (R227). -/
def Dev.sendLoss (d : Dev) (ld : Nat) (xfers : List Xfer) : Dev :=
  d.units.foldl (fun d sl =>
    let mine := xfers.filter fun x => decide (x.home = sl)
    if mine.isEmpty then d
    else d.modF sl fun f => { f with losses := f.losses ++ [{ ld, xfers := mine.map fun x => (x.sector, x.line, x.epoch, x.acked) }] }) d

/-- Apply the pending landing-reset parameters at a landing (R391, R392): the value shown is the one the latest reset applied. -/
def Dev.applyLr (d : Dev) (ld : Nat) : Dev :=
  let ids := [0x102, 0x103, 0x120, 0x121, 0x122, 0x123, 0x124, 0x125]
  let d := ids.foldl (fun d i =>
    match tget none d.mg.pend i with
    | none => d
    | some v =>
      let left := (tget [] d.mg.lrWait i).filter fun n => n ≠ ld
      { d.setP i v with
               mg := { d.mg with lrWait := tput [] d.mg.lrWait i left, pend := if left.isEmpty then tput none d.mg.pend i none else d.mg.pend } }) d
  let k := if (d.ld ld).link.merged then 2 else 1
  d.modLd ld fun l =>
    { l with link := { l.link with latOpt := decide (d.p 0x102 = 1), maxSpeed := d.p 0x103 }
             pool := { l.pool with mins := (List.range 6).map fun i => k * d.p (0x120 + i) } }

/-- The host's Barge channel takes no further descriptor (Table 2.5, R345, R349): Disabled at once when none is in progress. -/
def BrgCh.disable (b : BrgCh) : BrgCh :=
  if b.cur.isNone then { b with enable := false, st := .disabled, stop := false } else { b with enable := false, stop := true }

/-- The effect of a landing reset on the landing itself (Table 2.8, R70, R82, R484). -/
def Landing.resetTo (l : Landing) (st : LinkSt) : Landing :=
  let size := if l.link.merged then 8192 else 4096
  { l with
    link := { l.link with speed := 0#3, width := 0#3, reversed := false, flit := 0#2, st, memen := false, lost := none, polarity := 0#16, l1 := false }
    pool := { mins := l.pool.mins, low := size }
    ideMem := {}
    ideIo := {}
    acc := { l.acc with lbits := 0#3, lpos := 0x2D#6, dec := {}, biEn := false }
    coh := { peak := l.coh.peak, returns := l.coh.returns }
    strides := []
    strideUse := 0
    msix := []
    msixEn := false
    ptm := false
    aspm := false
    moored := false }

/-- A landing reset (R70). -/
def Dev.landingReset (d : Dev) (ld : Nat) (st : LinkSt) : Dev :=
  let d := (d.modLd ld fun l => l.resetTo st).applyLr ld
  d.modBg ld BrgCh.disable

/-- A link that has something to lose: not fused off, absorbed, in reset, down or disabled already. -/
def LinkSt.live : LinkSt → Bool
  | .training | .up | .recovering => true
  | _ => false

/-- Declare a landing down with a cause, 1 tDOWN, 2 PERST_N, 3 in-band reset, 4 partner through Detect, 5 Lookout fence, 6 IDE failure
(R64 to R68, Table 2.5): its received requests execute, its lines and boarding entries are settled, its loss reports are sent, and it is reset. -/
def Dev.declareDown (d : Dev) (ld cause : Nat) (st : LinkSt) : Dev :=
  if !(d.ld ld).link.st.live then d
  else
    let upd := fun k : Link => { k with st := .down, downcnt := if k.downcnt = 0xFF#8 then k.downcnt else k.downcnt + 1#8 }
    let d := d.modLd ld fun l => { l with link := upd l.link }
    let d := (d.drainPool ld).orphans ld
    let xfers := (d.ld ld).coh.xfers
    let d := d.modLd ld fun l => { l with coh := { l.coh with snoops := [], xfers := [] } }
    let d := (d.loseLanding ld xfers).returnBoard ld
    let d := d.sendLoss ld xfers
    let d := d.units.foldl (fun d sl => (d.ms sl).filt.colls.foldl (fun d c =>
      if decide (ld ∈ c.wait) then d.collAnswer sl c.id ld else d) d) d
    let d := d.units.foldl (fun d sl => d.modF sl fun f => { f with credReq := f.credReq.erase ld }) d
    (d.landingReset ld st).evPool .landingDown [ld, cause] 1

end Sys2Proof.Machine
end

