-- ==== Sys2Proof/Machine/Fence.lean ====
section
/-! DEFINITION. Fences the Lookout or a command orders: lane, landing, link, Wharf slice, channel, compression lanes (R22, R46, R156, R158, R172, R203, R226, R300 to R302). -/
namespace Sys2Proof.Machine

/-- Fence a lane: an Up landing retrains without it (R46). -/
def Dev.fenceLane (d : Dev) (ld lane : Nat) : Dev :=
  d.modLd ld fun l =>
    let k := { l.link with lanes := setBit l.link.lanes lane true }
    { l with link := if k.st = .up then { k with st := .recovering, lost := none } else k }

/-- Fence a landing: declared down, then Disabled until the Pool owner re-enables it (R64, R67). -/
def Dev.fenceLanding (d : Dev) (ld : Nat) : Dev :=
  if (d.ld ld).link.st = .absorbed then d
  else
    let d := d.declareDown ld 5 .down
    d.modLd ld fun l => { l with link := { l.link with st := .disabled, fenced := true } }

/-- Fence a cross-quadrant link: messages held on it are resent by the reroute (R22, R23). -/
def Dev.fenceLink (d : Dev) (q r : Nat) : Dev :=
  let pair := (min q r, max q r)
  if pair ∈ d.lko.links then d
  else
    let crosses := fun x : Path × Path =>
      decide ((min x.1.quad x.2.quad, max x.1.quad x.2.quad) = pair) || (decide (x.2.unit = 0x40 + 4 * q + r) || decide (x.2.unit = 0x40 + 4 * r + q))
    { d with lko := { d.lko with links := d.lko.links ++ [pair], stopped := d.lko.stopped.filter fun x => !crosses x } }

/-- Drop every pin of a slice, counting each (R203). -/
def Dev.dropPins (d : Dev) (sl : Nat) : Dev :=
  let n := (d.ms sl).wharf.pinCount
  let d := d.modW sl fun w => { w with lines := w.lines.map fun x => (x.1, { x.2 with pin := false }) }
  { d with pinLoss := satAdd pinLossMax d.pinLoss n }

/-- Fence a Wharf slice (R172, R203): after a tag loss it is bypassed at once, what it held being lost; otherwise it drains first. -/
def Dev.fenceWharf (d : Dev) (sl : Nat) (tagLoss : Bool) : Dev :=
  if (d.ms sl).wharf.fenced then d
  else
    let d := d.dropPins sl
    if tagLoss then
      (d.modW sl fun w => { w with fenced := true, draining := false, lines := [] }).modF sl fun f => { f with ents := [] }
    else d.modW sl fun w => { w with draining := true }

/-- Fence a channel (R300 to R302): it issues nothing more, leaves its tide state, and its queued reads of data end as lasting failures (R119). -/
def Dev.fenceChannel (d : Dev) (c : Nat) (cause : Nat) : Dev :=
  let ch := d.ch c
  if ch.st = .fenced then d
  else
    let q := ch.sched
    let d := d.modCh c fun x =>
      { x with st := .fenced, fcause := BitVec.ofNat 4 cause, drain := false, sched := [], wq := 0, openRow := [], rtrk := [], owed := [], raa := []
               postponed := [], repause := false, free := 0, tide := .high, tokens := 0 }
    q.foldl (fun d e => d.dramReturn e.home e.quad {}) d

/-- Fence a compression lane (R156 to R158). -/
def Dev.fenceLaneOf (d : Dev) (sl : Nat) (t : Fence) : Dev :=
  d.modMs sl fun s =>
    match t with
    | .cmp => { s with cmpF := true }
    | .dec0 => { s with dec0F := true }
    | .dec1 => { s with dec1F := true }
    | _ => s

/-- The FCAUSE code of a channel fence by its cause record (Table 9.7). -/
def Dev.fcauseOf (d : Dev) (seq : Nat) : Nat :=
  match d.lko.recs.find? fun r => decide (r.seq = seq) with
  | some r =>
    let o := (r.src - 0x200) % 0x40
    if r.src < 0x200 ∨ 0x600 ≤ r.src then 6 else if o = 7 then 4 else if o = 0x0B then 5 else 6
  | none => 6

/-- Apply one ordered fence. -/
def Dev.applyFence (d : Dev) (j : FenceJob) : Dev :=
  match j.target with
  | .lane => d.fenceLane j.inst j.sub
  | .landing => d.fenceLanding j.inst
  | .link => d.fenceLink j.inst j.sub
  | .wharf => d.fenceWharf j.inst (decide (j.sub = 1))
  | .channel => d.fenceChannel j.inst (d.fcauseOf j.seq)
  | t => d.fenceLaneOf j.inst t

/-- Apply the ordered fences in order; a fence may order others. -/
def Dev.applyFences : Nat → Dev → Dev
  | 0, d => { d with fenceQ := [] }
  | n + 1, d =>
    match d.fenceQ with
    | [] => d
    | j :: js => (({ d with fenceQ := js } : Dev).applyFence j).applyFences n

/-- Fences one step can order, at most: every landing, lane, link, Wharf slice, channel and compression lane once, with room. -/
def fenceFuel : Nat := 1024

/-- Collections that wait for no landing are finished (R213). -/
def Dev.finishColls (d : Dev) : Dev :=
  d.slc.foldl (fun d x => x.2.filt.colls.foldl (fun d c => if c.wait.isEmpty then d.finishColl x.1 c else d) d) d

/-- Held responses leave as credits and replay room allow (R61, R62). -/
def Dev.pumpAll (d : Dev) : Dev :=
  { d with lnd := d.lnd.map fun x => (x.1, x.2.pump x.2.pool.txq.length) }

/-- What follows an event inside the block with no further event: ordered fences, finished collections, waiting requests, granted credits,
held responses (R36, R218, R456). -/
def Dev.calm (d : Dev) : Dev :=
  let d := d.applyFences fenceFuel
  if d.slc.isEmpty && d.lnd.isEmpty then d
  else
    let d := (d.finishColls.retryAll.grantCredits).pumpAll
    d.applyFences fenceFuel

end Sys2Proof.Machine
end

