-- ==== Sys2Proof/Machine/Ingress.lean ====
section
/-! DEFINITION. The receive pool, credits and replay of a landing: flits received, departures, credit returns, acknowledgements (R53 to R63, R312). -/
namespace Sys2Proof.Machine

/-- Receive class of a message, in the order of Table 2.3. -/
def msgClass : Msg → Nat
  | .rd _ => 0
  | .clnEvct _ _ => 0
  | .wr _ => 1
  | .biRsp _ _ _ => 2
  | .posted _ => 3
  | .nonPosted _ => 4
  | .completion _ => 5

/-- Slots a message occupies (R53). -/
def msgSlots : Msg → Nat
  | .wr _ => 2
  | .posted n => 1 + n
  | .nonPosted n => 1 + n
  | .completion n => 1 + n
  | _ => 1

/-- Credit a message uses: one of its class for CXL.mem, its slots for CXL.io (R55). -/
def msgCredit (m : Msg) : Nat := if msgClass m < 3 then 1 else msgSlots m

/-- Slots one credit of a class stands for (Table 2.3). -/
def creditSlots (c : Nat) : Nat := if c = 1 then 2 else 1

/-- Slots of the pool (R49, R53). -/
def Landing.poolSize (l : Landing) : Nat := if l.link.merged then 8192 else 4096

/-- Slots occupied, all classes or one. -/
def Pool.occ (p : Pool) : Nat := p.msgs.foldl (fun s m => s + msgSlots m.msg) 0
def Pool.occOf (p : Pool) (c : Nat) : Nat := (p.msgs.filter fun m => msgClass m.msg = c).foldl (fun s m => s + msgSlots m.msg) 0

/-- Slots of a request that waits at its landing for a tracker entry (R36, R53). -/
def Work.slots (w : Work) : Nat := if w.req.kind.writes then 2 else 1

/-- Slots of the requests that wait for a tracker entry, all classes or one (R36). -/
def Landing.waitOcc (l : Landing) : Nat := l.wait.foldl (fun s x => s + x.2.slots) 0
def Landing.waitOf (l : Landing) (c : Nat) : Nat := (l.wait.filter fun x => decide (x.2.cls = c)).foldl (fun s x => s + x.2.slots) 0

/-- CRDPOOL.FREE (Table 2.4). -/
def Landing.free (l : Landing) : Nat := l.poolSize - l.pool.occ - l.waitOcc

/-- Note the lowest value of FREE (Table 2.4 LOW). -/
def Landing.noteLow (l : Landing) : Landing := { l with pool := { l.pool with low := min l.pool.low l.free } }

/-- Credits of a class waiting for a flit. -/
def Pool.pendOf (p : Pool) (c : Nat) : Nat :=
  match c with
  | 0 => p.pend.req
  | 1 => p.pend.rwd
  | 2 => p.pend.birsp
  | _ => 0

/-- Slots of a class held as credit, on their way as credit, or occupied (R55). -/
def Pool.claimed (p : Pool) (c : Nat) : Nat := (p.held.getD c 0 + p.pendOf c) * creditSlots c + p.occOf c

/-- Free slots not set aside for any class (R57 rule 2). -/
def Landing.unreserved (l : Landing) : Nat :=
  l.poolSize - l.waitOcc - (List.range 6).foldl (fun s c => s + max (l.pool.mins.getD c 0) (l.pool.claimed c)) 0

/-- Give credits of a class: CXL.mem credits wait for a flit, CXL.io credits go out as PCIe flow control. -/
def Pool.credit (p : Pool) (c n : Nat) : Pool :=
  match c with
  | 0 => { p with pend := { p.pend with req := p.pend.req + n } }
  | 1 => { p with pend := { p.pend with rwd := p.pend.rwd + n } }
  | 2 => { p with pend := { p.pend with birsp := p.pend.birsp + n } }
  | _ => { p with held := p.held.set c (p.held.getD c 0 + n) }

/-- Rule 1 of R57: a freed message's credit goes back to its class when the class would otherwise fall below its minimum. -/
def Landing.freed (l : Landing) (m : Msg) : Landing :=
  let c := msgClass m
  if l.pool.claimed c < l.pool.mins.getD c 0 then { l with pool := l.pool.credit c (msgCredit m) } else l

/-- A class holds more of the pool than its effective ingress maximum (R36, R59, R312). -/
def Dev.overPool (d : Dev) (ld : Nat) : Bool :=
  let l := d.ld ld
  ((l.pool.msgs.filter fun m => decide (msgClass m.msg < 2)).map (·.cls) ++ l.wait.map (·.2.cls)).any fun c =>
    let held := (l.pool.msgs.filter fun m => m.cls = c && decide (msgClass m.msg < 2)).foldl (fun s m => s + msgSlots m.msg) (l.waitOf c)
    decide (d.eX .i ld c * l.poolSize < 1024 * held)

/-- A warm device reset in preparation withholds every credit return (Table 19.5). -/
def Dev.withhold (d : Dev) : Bool := d.mg.warm.isSome

/-- Rule 2 of R57: grants of 16 messages from the shared slots. -/
def Dev.grantShared (d : Dev) (ld : Nat) : Dev :=
  if d.withhold || d.overPool ld || !d.linkLive ld then d
  else
    [0, 1, 2, 3, 4].foldl (fun d c =>
      let l := d.ld ld
      let p := l.pool
      let low := decide (4 * p.held.getD c 0 * creditSlots c < p.mins.getD c 0)
      if low && decide (256 < l.unreserved) && !decide (c ∈ p.granted) then
        (d.modLd ld fun l => { l with pool := { l.pool.credit c 16 with granted := c :: l.pool.granted } }).bump 0x00E ld 1
      else d) d

/-- Service class and home slice a CXL.mem request waits under (R59); 3Fh when its label is not valid. -/
def Dev.msgHome (d : Dev) (ld : Nat) (hpa : Nat) (k : ReqKind) : Nat × Nat :=
  match (d.ld ld).acc.decode hpa with
  | none => (63, 0)
  | some (label, dpa) =>
    match d.recFor ld (dpa / 64) k with
    | some (_, r) => ((tget {} (d.ld ld).acc.lbl label).sc.toNat, d.home r.near ld (dpa / 4096))
    | none => ((tget {} (d.ld ld).acc.lbl label).sc.toNat, 0)

/-- Class and home of a message. -/
def Dev.msgTags (d : Dev) (ld : Nat) (m : Msg) : Nat × Nat :=
  match m with
  | .rd r => d.msgHome ld r.hpa.toNat r.toReq.kind
  | .wr w => d.msgHome ld w.hpa.toNat w.toReq.kind
  | .clnEvct hpa _ => d.msgHome ld hpa.toNat .clnEvct
  | _ => (63, 0)

/-- One message of an accepted flit enters the pool against its credit, or is discarded without one (R58). -/
def Dev.enter (d : Dev) (ld : Nat) (m : Msg) : Dev :=
  let p := (d.ld ld).pool
  let c := msgClass m
  if c ≠ 5 && decide (p.held.getD c 0 < msgCredit m) then
    (d.modLd ld fun l => { l with pool := { l.pool with dropped := true }, rasUnc := true }).report { src := ldSrc ld 0x02 }
  else
    let (cls, home) := d.msgTags ld m
    let sealed := decide ((d.ld ld).ideMem.mode = .containment) && decide (c < 3)
    let held := if c = 5 then p.held else p.held.set c (p.held.getD c 0 - msgCredit m)
    let pm : PoolMsg := { msg := m, cls, home, ord := p.next, sealedEp := sealed }
    d.modLd ld fun l => ({ l with pool := { p with held, next := p.next + 1, msgs := p.msgs ++ [pm] } } : Landing).noteLow

/-- Take a message out of the pool, free its slots and send it on its way (R53, R57). -/
def Dev.depart (d : Dev) (ld : Nat) (m : PoolMsg) (ph : Phys) : Dev :=
  let d := d.modLd ld fun l => { l with pool := { l.pool with msgs := l.pool.msgs.filter fun x => x.ord ≠ m.ord } }
  let d := if d.withhold then d else d.modLd ld fun l => l.freed m.msg
  let d := if msgClass m.msg < 2 then d.countDeparture ld m.cls (msgSlots m.msg) else d
  (d.passMsg ld m.msg ph).grantShared ld

/-- Line of the device a CXL.mem request addresses, none when its label is not valid. -/
def Dev.msgLine (d : Dev) (ld : Nat) (m : Msg) : Option Nat :=
  let at_ := fun (hpa : Nat) => ((d.ld ld).acc.decode hpa).map fun x => x.2 / 64
  match m with
  | .rd r => at_ r.hpa.toNat
  | .wr w => at_ w.hpa.toNat
  | .clnEvct hpa _ => at_ hpa.toNat
  | _ => none

/-- A back-invalidate response behind an older writeback of its sector in the pool waits for it: the landing takes the host's writeback, then the
response (R219, R225). -/
def Dev.behindWriteback (d : Dev) (ld : Nat) (m : PoolMsg) : Bool :=
  match m.msg with
  | .biRsp line _ _ => (d.ld ld).pool.msgs.any fun o =>
      decide (o.ord < m.ord) && decide (msgClass o.msg = 1) && decide ((d.msgLine ld o.msg).map (· / 4) = some (line.toNat / 4))
  | _ => false

/-- Messages the departure order does not regulate leave as soon as they may (R312): back-invalidate responses and CXL.io messages. -/
def Dev.departFree (d : Dev) (ld : Nat) : Dev :=
  ((d.ld ld).pool.msgs.filter fun m => !m.sealedEp && decide (2 ≤ msgClass m.msg) && !d.behindWriteback ld m).foldl
    (fun d m => d.depart ld m {}) d

/-- A flit arrives (R58, R62): in sequence and good, its credits are applied and its messages received; any other changes nothing. -/
def Dev.flitIn (d : Dev) (ld : Nat) (f : Flit) : Dev :=
  let l := d.ld ld
  if l.link.st ≠ .up || !f.good || f.seq ≠ l.pool.rxSeq then d
  else
    let upd := fun p : Pool => { p with rxSeq := p.rxSeq + 1, hostCred := p.hostCred + f.credits }
    let d := d.modLd ld fun l => { l with pool := upd l.pool }
    ((f.msgs.foldl (fun d m => d.enter ld m) d).departFree ld).grantShared ld

/-- Rank of a waiting request's class in the departure order (R312): lower departs first, none may not depart in this window. -/
def Dev.departRank (d : Dev) (ld c : Nat) : Option (Nat × Nat) :=
  let W := (d.ld ld).windowSlots
  let used := 1024 * d.departed ld c
  let g := d.eG .i ld c * W
  let x := d.eX .i ld c * W
  if c = 0 then (if used < g then some (0, 0) else none)
  else if used < g then some (1, 1024 * W - (g - used))
  else if used < x then some (2, 0) else none

/-- An older request in the pool addresses the same line, so this one does not pass it (R35). -/
def Dev.wouldPass (d : Dev) (ld : Nat) (m : PoolMsg) : Bool :=
  (d.msgLine ld m.msg).isSome && (d.ld ld).pool.msgs.any fun o => decide (o.ord < m.ord) && decide (d.msgLine ld o.msg = d.msgLine ld m.msg)

/-- The next request to depart: best rank, then the oldest (R35, R312). -/
def Dev.nextDeparture (d : Dev) (ld : Nat) : Option PoolMsg :=
  let ready := (d.ld ld).pool.msgs.filterMap fun m =>
    if m.sealedEp || decide (2 ≤ msgClass m.msg) || d.wouldPass ld m then none else (d.departRank ld m.cls).map fun r => (r, m)
  (argMin (fun x : (Nat × Nat) × PoolMsg => x.1.1 * 2 ^ 60 + x.1.2 * 2 ^ 30 + x.2.ord) ready).map (·.2)

/-- One departure (R312), and the responses that waited for it. -/
def Dev.ingressDepart (d : Dev) (ld : Nat) (ph : Phys) : Dev :=
  match d.nextDeparture ld with
  | none => d
  | some m =>
    let waits := (d.ld ld).pool.msgs.any fun x => decide (2 ≤ msgClass x.msg)
    let d := d.depart ld m ph
    if waits then d.departFree ld else d

/-- tCRET passes with no flit due: a flit of credit returns alone, and shared grants may be made again (R57 rules 2 and 3). -/
def Dev.creditTimer (d : Dev) (ld : Nat) : Dev :=
  let d := (d.modLd ld fun l => { l with pool := { l.pool with granted := [] } }).grantShared ld
  let l := d.ld ld
  if l.link.st = .up && !Credits.isZero l.pool.pend && decide (l.pool.replay.length < 256) && !d.withhold then d.modLd ld fun l => l.sendFlit none none
  else d

/-- The host acknowledges every flit up to a sequence number (R61, R227): the entries are freed and shared data they carried counts as received. -/
def Dev.flitAck (d : Dev) (ld seq : Nat) : Dev :=
  let done := (d.ld ld).pool.replay.filter fun f => decide (f.seq ≤ seq)
  if done.isEmpty then d
  else
    let carried := fun x : Xfer => x.got && done.any fun f => decide (f.xfer = some (x.epoch.toNat, x.sector))
    let acked := (d.ld ld).coh.xfers.filter carried
    let upd := fun x : Xfer => if carried x then { x with acked := true } else x
    let d := d.modLd ld fun l =>
      let l := { l with pool := { l.pool with replay := l.pool.replay.filter fun f => decide (seq < f.seq), replays := 0 }
                        coh := { l.coh with xfers := l.coh.xfers.map upd } }
      l.pump l.pool.txq.length
    acked.foldl (fun d x =>
      let waits := (d.ms x.home).filt.fwds.any fun f => decide (f.sector = x.sector ∧ f.line = x.line ∧ f.ld = some ld)
      if waits then d else d.dropXfer ld x.sector x.line) d

/-- A NAK or retry request (R60, R62, R63): every flit from a sequence number is sent again. -/
def Dev.flitReplay (d : Dev) (ld seq : Nat) : Dev :=
  let d := if 0 < seq then d.flitAck ld (seq - 1) else d
  let again := (d.ld ld).pool.replay.filter fun f => decide (seq ≤ f.seq)
  if again.isEmpty || !d.linkLive ld then d
  else
    let d := d.modLd ld fun l => { l with pool := { l.pool with replays := l.pool.replays + 1 } }
    (d.bump 0x00D ld again.length).report { src := ldSrc ld 0x00, det0 := again.length }

/-- The oldest flit was replayed four times without progress: the link retrains (R63). -/
def Dev.replayLimit (d : Dev) (ld : Nat) : Dev :=
  let l := d.ld ld
  if 4 ≤ l.pool.replays && decide (l.link.st = .up) then
    (d.modLd ld fun l => { l with link := { l.link with st := .recovering, lost := none }, pool := { l.pool with replays := 0 } }).report { src := ldSrc ld 0x00 }
  else d

end Sys2Proof.Machine
end

