-- ==== Sys2Proof/Machine/Link.lean ====
section
/-! DEFINITION. Link training and recovery, PERST_N, link encryption and the HDM decoder of a landing (R42 to R52, R64, R65, R69, R73 to R76, R79 to R82, R540). -/
namespace Sys2Proof.Machine

/-- CXL.mem is enabled: Up at 8 GT/s or above, decoder committed, memory-active (R42, R81, R517). -/
def Landing.memOk (l : Landing) (active : Bool) : Landing :=
  { l with link := { l.link with memen := active && decide (l.link.st = .up) && decide (1 ≤ l.link.speed.toNat) && l.acc.dec.committed } }

/-- Speed code of a p0103 value (Table 2.7). -/
def speedCode (gts : Nat) : Nat := if gts = 64 then 4 else if gts = 32 then 3 else if gts = 16 then 2 else 1

/-- Widest WIDTH code that leaves the fenced lanes out, counting up from lane 0 or down from the top lane (R45, R46, R50). -/
def Link.widest (k : Link) (reversed : Bool) : Nat :=
  let top := if k.merged then 16 else 8
  let ok := fun n => (List.range n).all fun i => !k.lanes.getLsbD (if reversed then top - 1 - i else i)
  ([5, 4, 3, 2, 1].find? fun w => decide (lanesOf w ≤ top) && ok (lanesOf w)).getD 0

/-- Flit mode (R43): kept through a recovery, else 256 B where the partner has flit mode. -/
def Link.flitFor (k : Link) (t : Train) : BitVec 2 :=
  if k.st = .recovering then k.flit
  else if !t.flitMode then 0#2 else if t.latOpt && k.latOpt then 2#2 else 1#2

/-- Training or a recovery ends (R42 to R52, R55): below 8 GT/s the landing serves CXL.io alone and says so; a landing that comes up from reset
advertises its minima as credits. -/
def Dev.trained (d : Dev) (ld : Nat) (t : Train) : Dev :=
  let k := (d.ld ld).link
  if k.st ≠ .training && k.st ≠ .recovering then d
  else
    let fresh := decide (k.st = .training)
    let flit := k.flitFor t
    let cap := min (speedCode k.maxSpeed) (if flit = 0#2 then 3 else 4)
    let speed := min t.speed.toNat cap
    let width := min t.width.toNat (k.widest t.reversed)
    let k' := { k with speed := BitVec.ofNat 3 speed, width := BitVec.ofNat 3 width, reversed := t.reversed, flit, st := .up, lost := none, polarity := t.polarity }
    let start := fun p : Pool => { p with held := [p.mins.getD 0 0, p.mins.getD 1 0 / 2, p.mins.getD 2 0] ++ p.mins.drop 3, hostCred := t.hostCred }
    let d := d.modLd ld fun l =>
      let l := ({ l with link := k', pool := if fresh then start l.pool else l.pool } : Landing).memOk d.active
      l.pump l.pool.txq.length
    if speed = 0 then (d.evHost ld .speedLimited [ld] 1).evPool .speedLimited [ld] 1 else d

/-- Loss of lock: recovery, under the tDOWN in force when it began (R64, R65). -/
def Dev.lockLost (d : Dev) (ld : Nat) : Dev :=
  let k := (d.ld ld).link
  if k.st = .up || (decide (k.st = .recovering) && k.lost.isNone) then
    d.modLd ld fun l => { l with link := { l.link with st := .recovering, lost := some (d.p 0x100) } }
  else d

/-- Lock returns before tDOWN: the landing resumes by replay (R65). -/
def Dev.lockRegained (d : Dev) (ld : Nat) : Dev :=
  if (d.ld ld).link.lost.isNone then d
  else
    d.modLd ld fun l =>
      let l := { l with link := { l.link with st := .up, lost := none } }
      l.pump l.pool.txq.length

/-- Lock has been lost for tDOWN (R64). -/
def Dev.tdown (d : Dev) (ld : Nat) : Dev := if (d.ld ld).link.lost.isSome then d.declareDown ld 1 .down else d

/-- PERST_N asserted for `ns` (R69, R515): shorter than 1 µs, or before the landings are released, it is ignored. -/
def Dev.perstOn (d : Dev) (ld ns : Nat) : Dev :=
  let k := (d.ld ld).link
  if ns < 1000 || !k.released || decide (k.st = .disabled) || decide (k.st = .absorbed) then d
  else
    let d := if k.st.live then d.declareDown ld 2 .reset else d.landingReset ld .reset
    d.modLd ld fun l => { l with link := { l.link with perst := true } }

/-- PERST_N deasserted: the landing enters Detect (R69, R515). -/
def Dev.perstOff (d : Dev) (ld : Nat) : Dev :=
  d.modLd ld fun l =>
    let k := { l.link with perst := false }
    { l with link := if k.st = .reset && k.released then { k with st := .training } else k }

/-- A partner appears to a landing that waits in Detect after a down declaration (R67). -/
def Dev.partnerAppears (d : Dev) (ld : Nat) : Dev :=
  if (d.ld ld).link.st = .down then d.modLd ld fun l => { l with link := { l.link with st := .training } } else d

/-- The host directs a retrain (R42). -/
def Dev.hostRetrain (d : Dev) (ld : Nat) : Dev :=
  if (d.ld ld).link.st = .up then d.modLd ld fun l => { l with link := { l.link with st := .recovering, lost := none } } else d

/-- Change one direction of one IDE stream of a landing. -/
def Landing.modIde (l : Landing) (s : IdeStream) (dir : Dir) (f : IdeDir → IdeDir) : Landing :=
  let upd := fun i : Ide => match dir with
    | .rx => { i with rx := f i.rx }
    | .tx => { i with tx := f i.tx }
  match s with
  | .mem => { l with ideMem := upd l.ideMem }
  | .io => { l with ideIo := upd l.ideIo }

/-- One direction of one IDE stream of a landing. -/
def Landing.ideDir (l : Landing) (s : IdeStream) (dir : Dir) : IdeDir :=
  let i := match s with
    | .mem => l.ideMem
    | .io => l.ideIo
  match dir with
  | .rx => i.rx
  | .tx => i.tx

/-- A slot of a direction holds a key. -/
def IdeDir.has (x : IdeDir) (slot : Bool) : Bool := if slot then x.k1.isSome else x.k0.isSome

/-- The direction settles on the slot of K_SET_GO, the old one being cleared (R75). -/
def IdeDir.settleOn (x : IdeDir) (slot clear : Bool) : IdeDir :=
  { x with act1 := slot, go := none, k0 := if slot && clear then none else x.k0, k1 := if !slot && clear then none else x.k1 }

/-- A line that a failing skid epoch wrote becomes poison (R74). -/
def Dev.poisonWritten (d : Dev) (ld line : Nat) : Dev :=
  match d.recFor ld line (.wr .noOp) with
  | none => d
  | some (_, r) =>
    let p := Config.poisonLine d.draws
    let sl := d.home r.near ld (line / 64)
    let w : Work := { ld := none, req := { kind := .wr .noOp, data := p, poison := true }, line, cls := 63, shared := r.shared, rdonly := false, near := r.near,
                      grant := some .noOp }
    (({ d with draws := d.draws + 1 } : Dev).submit sl w {}).report { src := ldSrc ld 0x07, det0 := line * 64, det1 := d.detA (line * 64), dpa := some (line * 64) }

/-- The MAC of an IDE epoch arrives (R73 to R75). -/
def Dev.macEpoch (d : Dev) (ld : Nat) (s : IdeStream) (dir : Dir) (ok newSlot : Bool) : Dev :=
  let l := d.ld ld
  let mode : IdeMode := match s with
    | .mem => l.ideMem.mode
    | .io => l.ideIo.mode
  if mode = .off || mode = .insecure || !l.link.st.live then d
  else
    match dir with
    | .tx => d.modLd ld fun l => l.modIde s .tx fun x => match x.go with
        | some g => x.settleOn g false
        | none => x
    | .rx =>
      if ok then
        let d := d.modLd ld fun l =>
          let l := l.modIde s .rx fun x => match x.go with
            | some g => if newSlot then x.settleOn g true else x
            | none => x
          match s with
          | .mem => { l with ideMem := { l.ideMem with skid := [] }
                             pool := { l.pool with msgs := l.pool.msgs.map fun m => { m with sealedEp := false } } }
          | .io => l
        d.departFree ld
      else
        let lines := match s with
          | .mem => if mode = IdeMode.skid then l.ideMem.skid else []
          | .io => []
        let d := d.modLd ld fun l => match s with
          | .mem => { l with ideMem := { l.ideMem with mode := .insecure, skid := [] }
                             pool := { l.pool with msgs := l.pool.msgs.filter fun m => !m.sealedEp } }
          | .io => { l with ideIo := { l.ideIo with mode := .insecure } }
        let d := if lines.isEmpty then d.report { src := ldSrc ld 0x07 } else lines.foldl (fun d x => d.poisonWritten ld x) d
        d.declareDown ld 6 .down

/-- The landing has an SPDM secure session that ends in the Tollhouse (R72). -/
def Dev.hasSession (d : Dev) (ld : Nat) : Bool := d.tlh.spdm.any fun s => decide (s.ld = some ld)

/-- Answer a DOE request of a landing. -/
def Dev.doeAnswer (d : Dev) (ld code : Nat) (out : List Byte := []) : Dev := d.modLd ld fun l => { l with doeRsp := code, doeOut := out }

/-- An IDE_KM request: it waits while the Tollhouse restarts (R76), needs a session (R72), and is refused or done (R75). -/
def Dev.ideKm (d : Dev) (ld : Nat) (okNow : Bool) (f : Landing → Landing) : Dev :=
  if d.tlhBusy then d.modLd ld fun l => { l with doe := l.doe + 1 }
  else if !d.hasSession ld || !okNow then d.doeAnswer ld 2
  else (d.modLd ld f).doeAnswer ld 1

/-- KEY_PROG: a key for the idle slot of a direction (R75). -/
def Dev.keyProg (d : Dev) (ld : Nat) (s : IdeStream) (dir : Dir) (slot : Bool) (key : BitVec 256) : Dev :=
  let x := (d.ld ld).ideDir s dir
  let active := decide (x.act1 = slot) && x.has slot
  d.ideKm ld (!active) fun l => l.modIde s dir fun x => if slot then { x with k1 := some key } else { x with k0 := some key }

/-- K_SET_GO: a direction is to settle on a slot (R75). -/
def Dev.kSetGo (d : Dev) (ld : Nat) (s : IdeStream) (dir : Dir) (slot : Bool) : Dev :=
  d.ideKm ld (((d.ld ld).ideDir s dir).has slot) fun l => l.modIde s dir fun x => { x with go := some slot }

/-- The decoder settings R81 accepts. -/
def Dev.decoderOk (d : Dev) (ld size dbase iw : Nat) : Bool :=
  let a := (d.ld ld).acc
  let lbits := a.lbits.toNat
  let lpos := a.lpos.toNat
  decide (size = iw * 2 ^ (lpos + lbits)) && decide (dbase % 2 ^ 28 = 0) && decide (dbase + 2 ^ lpos ≤ d.regionBlocks * 2 ^ 28)
    && decide (lbits ≤ 4) && decide (28 ≤ lpos) && decide (lpos ≤ 45)

/-- Interleave ways and granularities a decoder supports (R79). -/
def interleaveOk (iw ig : Nat) : Bool := decide (iw ∈ [1, 2, 4, 8]) && decide (ig ∈ [256, 512, 1024, 2048, 4096, 8192, 16384])

/-- The host commits the decoder (R79, R81, R82); a committed one is locked. -/
def Dev.commitDecoder (d : Dev) (ld hbase size dbase iw ig : Nat) : Dev :=
  let l := d.ld ld
  if !d.linkLive ld || l.acc.dec.committed then d
  else if d.decoderOk ld size dbase iw && interleaveOk iw ig then
    d.modLd ld fun l => ({ l with acc := { l.acc with dec := { hbase, size, dbase, iw, ig, committed := true, errNot := false } } } : Landing).memOk d.active
  else d.modLd ld fun l => ({ l with acc := { l.acc with dec := { l.acc.dec with errNot := true, committed := false } } } : Landing).memOk d.active

end Sys2Proof.Machine
end

