-- ==== Sys2Proof/Machine/ChanOps.lean ====
section
/-! DEFINITION. Channel events: temperature polls, refresh, tracker clear, RFM, starvation, retraining, command errors, patrol scrub, soft repair, retirement (R276, R284 to R298). -/
namespace Sys2Proof.Machine

/-- One poll of a channel's DIMM sensors (R276): a reading below 1 °C counts as 1; after two failed polls there is no current reading. -/
def Dev.tempPoll (d : Dev) (c : Nat) (reading : Option Int) : Dev :=
  if (d.ch c).pop.dpc = 0 then d
  else
    match reading with
    | some t => d.modCh c fun x => { x with temp := min 255 (max 1 t.toNat), pollFail := 0 }
    | none => d.modCh c fun x => { x with pollFail := min 2 (x.pollFail + 1), temp := if 1 ≤ x.pollFail then 0 else x.temp }

/-- A same-bank refresh falls due (R284): postponed, or issued, which closes the bank's row; idle slots also take the postponed ones.
Neighbour refreshes owed follow it (R285). -/
def Dev.refreshDue (d : Dev) (c bank : Nat) (busy : Bool) : Dev :=
  if !(d.ch c).usable then d
  else
    let n := tget 0 (d.ch c).postponed bank
    if busy && decide (n < 4) then d.modCh c fun x => { x with postponed := tput 0 x.postponed bank (n + 1) }
    else
      (d.modCh c fun x =>
        { x with openRow := tput none x.openRow bank none, postponed := tput 0 x.postponed bank (if busy then n else 0) }).payOwed c

/-- The tREFW boundary: every table of the tracker is cleared (R285). -/
def Dev.trefw (d : Dev) (c : Nat) : Dev := d.modCh c fun x => { x with rtrk := [] }

/-- RFMsb once a bank's RAA count has reached the DIMM's threshold (R286). -/
def Dev.rfm (d : Dev) (c bank : Nat) : Dev :=
  let x := d.ch c
  match x.pop.rfm with
  | none => d
  | some thr =>
    let n := tget 0 x.raa bank
    if x.rfmEn && x.usable && decide (thr ≤ n) then
      (d.modCh c fun y => { y with raa := tput 0 y.raa bank (n - thr), openRow := tput none y.openRow bank none }).bump 0x405 c 1
    else d

/-- A scheduler entry has waited longer than tSTARVE: it rises to the head of its group (R280). -/
def Dev.starve (d : Dev) (c quad : Nat) : Dev :=
  d.modCh c fun x =>
    let up := (x.sched.filter fun e => decide (e.quad = quad)).map fun e => { e with starved := true }
    { x with sched := up ++ x.sched.filter fun e => decide (e.quad ≠ quad) }

/-- A retraining pause (R287, R288): a low margin is tried once more 100 µs later; low again, the drift is lasting. -/
def Dev.retrainPause (d : Dev) (c : Nat) (low : Bool) : Dev :=
  let x := d.ch c
  if !x.usable then d
  else
    match x.repause, low with
    | false, false => d
    | false, true => d.modCh c fun y => { y with repause := true }
    | true, false => d.modCh c fun y => { y with repause := false, drift := y.drift + 1 }
    | true, true => (d.modCh c fun y => { y with repause := false }).report { src := sliceSrc c 0x05 }

/-- A write-CRC or CA-parity error on ALERT_n (R295): replayed once; failing again, the channel is fenced by its record. -/
def Dev.alertN (d : Dev) (c off : Nat) (chk : Chk) : Dev :=
  if !(d.ch c).usable then d
  else
    let (k, inj, d) := d.check [sliceSrc c 0x06, sliceSrc c 0x07] chk
    match k with
    | .ok => d
    | .transient => (d.modCh c fun y => { y with cmdErr := y.cmdErr + 1 }).report { src := sliceSrc c 0x06, det0 := off, det1 := noDpa, inj }
    | .lasting => d.report { src := sliceSrc c 0x07, det0 := off, det1 := noDpa, inj }

/-- A berth of a channel holds counter-tree nodes of some subtree (R253). -/
def Dev.nodeBerth (d : Dev) (c frame : Nat) : Bool :=
  d.slc.any fun s => s.2.sl.roots.any fun r =>
    let n := d.sealArea (d.blockNear r.2.blk)
    r.2.st == 2#2 && ((decide (r.2.chA = c) && decide (r.2.frA ≤ frame) && decide (frame < r.2.frA + n)) ||
      (decide (r.2.chB = c) && decide (r.2.frB ≤ frame) && decide (frame < r.2.frB + n)))

/-- Patrol scrub reads the next burst (R296): a correctable one is corrected in DRAM, an uncorrectable one is judged by R292,
and a lasting one by what the allocation map says of its location (Table 9.5). -/
def Dev.patrol (d : Dev) (c : Nat) (ph : Phys) : Dev :=
  let x := d.ch c
  if !x.usable then d
  else
    let off := x.scrub
    let frame := off / 4096
    let d := d.modCh c fun y => { y with scrub := if off + 64 < y.bytes then off + 64 else 0 }
    if ph.stored then d
    else
      let d := if 0 < ph.fixed then d.corrected c off noDpa false else d
      let (k, inj, d) := d.check [sliceSrc c 0x01, sliceSrc c 0x02, sliceSrc c 0x03] ph.ecc
      match k with
      | .ok => d
      | .transient => d.uet c off noDpa inj
      | .lasting =>
        if d.frames c ≤ frame || d.nodeBerth c frame then d.uelMeta c off inj
        else
          let d := d.modCh c fun y => { y with uel := satAdd 0xFFF y.uel 1 }
          let used := (d.used c frame).getLsbD (off % 4096 / 512)
          let d := if used then d.report { src := sliceSrc c 0x02, det0 := off, det1 := noDpa, inj } else d
          d.queueRetire c frame

/-- Channel byte offset of the first byte of a row: the mapping of R277 undone. -/
def Pop.offOf (p : Pop) (r : RowAddr) : Nat :=
  let hi := (r.row + p.rows * (r.bank / 64 % 16 + p.stack * (r.bank / 1024 % 16 + p.mapRanks * (r.bank / 16384)))) * (if p.x4 then 128 else 64)
  (hi + r.bank / 32 % 2 + 2 * (bits r.bank 2 3 ^^^ bits hi 13 3) + 16 * (r.bank % 4 ^^^ bits hi 16 2)) * 4096

/-- Add a row to the repair list in the flash, 256 rows per channel (R298, R299). -/
def Flash.noteRow (f : Flash) (c : Nat) (r : RowAddr) : Flash :=
  if (c, r) ∈ f.repair ∨ 256 ≤ (f.repair.filter fun x => decide (x.1 = c)).length then f else { f with repair := f.repair ++ [(c, r)] }

/-- Soft repair of the oldest queued row (R298): `clean` is the re-read's outcome. The row's bytes are written back as they were read. -/
def Dev.softRepair (d : Dev) (c : Nat) (clean : Bool) : Dev :=
  let x := d.ch c
  match x.queue with
  | [] => d
  | r :: rest =>
    if !x.usable then d
    else
      let d := d.modCh c fun y => { y with queue := rest }
      if r ∈ x.noRepair then d
      else
        let g := r.bank / 4
        let note := fun d : Dev => { d with flash := d.flash.noteRow c r }
        if x.pop.sppr ≤ tget 0 x.spprUsed g then note (d.modCh c fun y => { y with unrep := satAdd 255 y.unrep 1 })
        else
          let d := d.modCh c fun y => { y with spprUsed := tmod 0 y.spprUsed g (· + 1), openRow := tput none y.openRow r.bank none }
          if clean then note (d.modCh c fun y => { y with sppr := satAdd 255 y.sppr 1 })
          else
            note ((d.modCh c fun y => { y with unrep := satAdd 255 y.unrep 1, noRepair := y.noRepair ++ [r] }).report
              { src := sliceSrc c 0x08, det0 := x.pop.offOf r, det1 := noDpa })

/-- Retirement step 1 for one berth (R297): its granules are used and retired in both maps; the row is queued; the event of p019C once. -/
def Dev.retireBerth (d : Dev) (c frame : Nat) : Dev :=
  if d.frames c ≤ frame then d
  else
    let d := d.setUsed c frame 0xFF#8 true
    let d := d.modCh c fun y => { y with retList := y.retList ++ [frame], retired := satAdd 0xFFF y.retired 1 }
    let d := d.queueRow c (d.rowOf c (frame * 4096))
    let y := d.ch c
    if d.p 0x19C < y.retired && !y.retEvt then (d.modCh c fun y => { y with retEvt := true }).evPool .retiredBerths [c, y.retired] 1 else d

/-- Syust takes the berths that wait for retirement, while the Ferryman is available (R297). -/
def Dev.retirePending (d : Dev) : Dev :=
  if d.fmnBusy then d
  else d.chn.foldl (fun d x =>
    let q := (d.ch x.1).retQ
    if q.isEmpty then d else q.foldl (fun d f => d.retireBerth x.1 f) (d.modCh x.1 fun y => { y with retQ := [] })) d

end Sys2Proof.Machine
end

