-- ==== Sys2Proof/Machine/QosOps.lean ====
section
/-! DEFINITION. Deliverable figures, window boundaries, scaling events and receipt meters of the service classes (R314 to R319, R474). -/
namespace Sys2Proof.Machine

/-- Throttle step of a channel: the higher of its own and the junction's (R492). -/
def Dev.step (d : Dev) (c : Nat) : Nat := max d.pwr.jstep (d.ch c).dimmStep

/-- D_W (R317, Table 10.1): slices not bypassed, over enabled slices. -/
def Dev.calcDw (d : Dev) : Nat :=
  let lines := fun (l : List Nat) => l.foldl (fun s n => s + (d.ms n).wharf.total) 0
  let all := lines d.units
  if all = 0 then 1024 else 1024 * lines (d.units.filter fun n => !(d.ms n).wharf.fenced) / all

/-- D_Q (R317, Table 10.1): sustained 2:1 figures of the channels in use under their present sets, throttled channels in proportion. -/
def Dev.calcDq (d : Dev) : Nat :=
  if d.qos.nq = 0 then 1024
  else
    let sum := (d.units.filter d.chOk).foldl (fun s c => s + (d.ch c).bandwidth.2.2 * (8 - d.step c)) 0
    min 1024 (1024 * sum / (8 * d.qos.nq))

/-- D_I of a landing (R317, Table 10.1): recomputed while it is Up, kept otherwise. -/
def Dev.calcDi (d : Dev) (ld : Nat) : Nat :=
  let l := d.ld ld
  if l.link.st = .up then
    let full := payloadOf (speedCode l.link.maxSpeed) 1 * (if l.link.merged then 16 else 8)
    if full = 0 then 1024 else min 1024 (1024 * (payloadOf l.link.speed.toNat l.link.flit.toNat * lanesOf l.link.width.toNat) / full)
  else tget 1024 d.qos.diNext ld

/-- The power manager recomputes and broadcasts the deliverable figures (R317). -/
def Dev.recompute (d : Dev) : Dev :=
  let di := d.units.foldl (fun t n => tput 1024 t n (d.calcDi n)) d.qos.diNext
  { d with qos := { d.qos with dwNext := d.calcDw, dqNext := d.calcDq, diNext := di } }

/-- Number of a resource in records and commands (R315). -/
def Res.code : Res → Nat
  | .w => 0
  | .q => 1
  | .i => 2

/-- Effective guarantees of the classes a resource counts, SC00 first. -/
def Dev.effAll (d : Dev) (r : Res) (ld : Nat) : List (Nat × Nat) := (0 :: d.counted r ld).map fun c => (c, d.ge r ld c)

/-- Send a scaling event: resource, landing, old D, new D, C0e, S, changes merged; latched while the Ferryman is unavailable (R319). -/
def Dev.sendScale (d : Dev) (r : Res) (ld old merged : Nat) : Dev :=
  let args := [r.code, ld, old, d.deliv r ld, d.ge r ld 0, d.sumG d.qos.cls r ld, merged]
  let key := fun e : ScaleEv => decide (e.res = r.code) && decide (e.ld = ld)
  let ev : ScaleEv := { res := r.code, ld, time := d.time }
  let d := { d with qos := { d.qos with scaleEv := satAdd 0xFFFF d.qos.scaleEv 1, lastEv := (d.qos.lastEv.filter fun e => !key e) ++ [ev] } }
  if d.fmnBusy then { d with qos := { d.qos with latched := d.qos.latched ++ [args] } }
  else
    let d := (d.evPool .scaling args).tellPilots 2 r.code
    { d with lko := { d.lko with irq := d.lko.irq + 1 } }

/-- Effective guarantees moved because a deliverable size moved (R319): an event, or one more change merged into the next. -/
def Dev.scaleChange (d : Dev) (r : Res) (ld old : Nat) : Dev :=
  let key := fun e : ScaleEv => decide (e.res = r.code) && decide (e.ld = ld)
  match d.qos.lastEv.find? key with
  | some e =>
    if d.time < e.time + d.p 0x1A0 then
      let upd := fun x : ScaleEv => if key x then { x with merged := x.merged + 1, old := if x.merged = 0 then old else x.old } else x
      { d with qos := { d.qos with lastEv := d.qos.lastEv.map upd } }
    else d.sendScale r ld old 0
  | none => d.sendScale r ld old 0

/-- Resource of a scaling event. -/
def resOf (n : Nat) : Res := if n = 0 then .w else if n = 1 then .q else .i

/-- Merged changes whose interval has passed go out as one record with the final figures (R319). -/
def Dev.mergedOut (d : Dev) : Dev :=
  d.qos.lastEv.foldl (fun d e =>
    if 0 < e.merged && decide (e.time + d.p 0x1A0 ≤ d.time) then d.sendScale (resOf e.res) e.ld e.old e.merged else d) d

/-- Resource of a measured share. -/
def shareRes : Share → Res
  | .w => .w
  | .q => .q
  | .i => .i

/-- Meter one receipt (R474, Table 16.6). -/
def Dev.meterOne (d : Dev) (x : Receipt) : Dev :=
  let r := shareRes x.share
  let g := d.eG r x.unit.val x.cls.val
  let m := d.eX r x.unit.val x.cls.val
  let got := min 0x7FE x.got
  let short := x.demand && decide (x.got + 5 < g)
  let ovr := decide (m + 5 < x.got)
  let upd := fun t : Rcpt => match x.share with
    | .q => { t with minq := if x.demand then min t.minq got else t.minq, maxq := max t.maxq got, shortq := t.shortq || short, overq := t.overq || ovr }
    | .w => { t with minw := if x.demand then min t.minw got else t.minw, maxw := max t.maxw got, shortw := t.shortw || short, overw := t.overw || ovr }
    | .i => { t with mini := if x.demand then min t.mini got else t.mini, shorti := t.shorti || short, overi := t.overi || ovr }
  { d with tele := { d.tele with rcpt := tmod {} d.tele.rcpt x.cls.val upd } }

/-- A 4 µs window boundary (R314 to R319, R474): the window that ends is metered, admitted records and broadcast figures apply, events go out,
and the window's meters start anew. -/
def Dev.windowEnd (d : Dev) (rs : List Receipt) : Dev :=
  let d := rs.foldl (fun d x => d.meterOne x) d
  let recs := d.qos.pend.foldl (fun t x => tput none t x.1 x.2) d.qos.recs
  let d := { d with qos := { d.qos with recs, pend := [] } }
  let old := d.qos
  let before : Res → Nat → List (Nat × Nat) := fun r ld => d.effAll r ld
  let e := { d with qos := { d.qos with dw := d.qos.dwNext, dq := d.qos.dqNext, di := d.qos.diNext, slots := [], deps := [] } }
  let changed : Res → Nat → Bool := fun r ld => e.effAll r ld != before r ld
  let f := if old.dw ≠ e.qos.dw && changed .w 0 then e.scaleChange .w 0 old.dw else e
  let f := if old.dq ≠ e.qos.dq && changed .q 0 then f.scaleChange .q 0 old.dq else f
  let f := d.units.foldl (fun f n =>
    let o := tget 1024 old.di n
    if o ≠ tget 1024 e.qos.di n && changed .i n then f.scaleChange .i n o else f) f
  f.mergedOut

end Sys2Proof.Machine
end

