-- ==== Sys2Proof/Machine/Capacity.lean ====
section
/-! DEFINITION. Extent records: adds, offers, grants, releases, drains and reclaim; contexts' counts; what binds and frees a block (R84 to R100, R111, R236, R254). -/
namespace Sys2Proof.Machine

/-- Record `n`. -/
def Dev.xrec (d : Dev) (n : Nat) : ExtRec := tget {} d.ext.recs n
/-- Change record `n`. -/
def Dev.modRec (d : Dev) (n : Nat) (f : ExtRec → ExtRec) : Dev := { d with ext := { d.ext with recs := tmod {} d.ext.recs n f } }

/-- Blocks of a record. -/
def ExtRec.blocks (r : ExtRec) : List Nat := (List.range (r.nblk1 + 1)).map fun i => r.base + i

/-- Some record but number `n` that is not Free covers a block. -/
def Dev.heldBut (d : Dev) (n blk : Nat) : Bool := d.ext.recs.any fun r => decide (r.1 ≠ n) && decide (r.2.st ≠ .free) && r.2.covers blk

/-- Distinct blocks with a root entry at some slice (R240). -/
def Dev.sealedBlocks (d : Dev) : List Nat :=
  (d.slc.flatMap fun s => (s.2.sl.roots.filter fun r => r.2.st != 0#2).map (·.1)).eraseDups

/-- Blocks a context counts (Table 8.1 BLOCKS). -/
def Dev.ctxBlocks (d : Dev) (c : Nat) : Nat := (((d.recList.filter fun r => decide (r.2.ctx = c)).flatMap fun r => r.2.blocks).eraseDups).length

/-- Pages a context counts (Table 8.1 PAGES). -/
def Dev.ctxPages (d : Dev) (c : Nat) : Nat :=
  d.pm.blocks.foldl (fun s b =>
    if b.2.seg.isNone then s
    else
      let ents := d.pm.ents.filter fun e => decide (pageBlock e.1 = b.1)
      let here := (ents.filter fun e => (e.2.getD b.2.bound).ctx = c).length
      if b.2.ctx = c then s + 65536 - ents.length + here else s + here) 0

/-- Root entries of a block bound to a Sealed context, at every slice that can home its pages (R254). -/
def Dev.makeRoots (d : Dev) (blk ld : Nat) (near : Bool) : Dev :=
  let sls := if near then d.units.filter fun n => decide (quadOf n = quadOf ld) else d.units
  sls.foldl (fun d sl =>
    if (d.root sl blk).st != 0#2 then d
    else
      let top := d.sealTop near
      d.modSeal sl fun s =>
        let f := s.hw + 1#64
        { s with hw := f, roots := tput {} s.roots blk { st := 1#2, blk, top, floor := f } }) d

/-- The lowest segment no block holds (R111). -/
def Dev.freeSeg (d : Dev) : Nat :=
  let used := d.pm.blocks.filterMap fun b => b.2.seg
  ((List.range (used.length + 1)).find? fun g => !decide (g ∈ used)).getD 0

/-- Bind a block: a segment in every directory, and every entry Z with the record's context (R111, R254). -/
def Dev.bindBlock (d : Dev) (blk ctx ld : Nat) (near : Bool) : Dev :=
  let sld := (tget {} d.ctx ctx).sld
  let b : Block := { seg := some d.freeSeg, ctx, sld }
  let d := { d with pm := { d.pm with blocks := tput {} d.pm.blocks blk b, ents := d.pm.ents.filter fun e => !decide (pageBlock e.1 = blk) } }
  if sld then d.makeRoots blk ld near else d

/-- Free the tree areas and root entries of a block (R94). -/
def Dev.dropRoots (d : Dev) (blk : Nat) : Dev :=
  d.slc.foldl (fun d s =>
    let r := d.root s.1 blk
    if r.st == 0#2 then d
    else
      let n := d.sealArea (d.blockNear blk)
      let drop := fun (d : Dev) (c f : Nat) => if d.chOk c then (List.range n).foldl (fun d i => d.setUsed c (f + i) 0xFF#8 false) d else d
      let d := if r.st == 2#2 then drop (drop d r.chA r.frA) r.chB r.frB else d
      d.modSeal s.1 fun x => { x with roots := tput {} x.roots blk {}, cache := x.cache.filter fun l => !decide (l.blk = blk) }) d

/-- A block returns to Free (R94, R111, R188): storage freed, Wharf lines dropped without writeback, held writebacks and counters discarded, segment released. -/
def Dev.freeBlock (d : Dev) (blk : Nat) : Dev :=
  let ents := d.pm.ents.filter fun e => decide (pageBlock e.1 = blk)
  let d := ents.foldl (fun d e => d.freeStorage (d.ent e.1)) d
  let d := d.dropRoots blk
  let inBlk := fun (line : Nat) => decide (line / 2 ^ 22 = blk)
  let pins := d.slc.foldl (fun n s => n + (s.2.wharf.lines.filter fun l => l.2.pin && inBlk l.2.addr).length) 0
  let upd := fun s : Slice =>
    let lines := s.wharf.lines.filter fun l => !(decide (l.2.st ≠ .invalid) && inBlk l.2.addr)
    let ents := s.filt.ents.filter fun e => !(e.2.valid && inBlk (e.2.sector * 4))
    { s with
      wharf := { s.wharf with lines, qbuf := s.wharf.qbuf.filter fun q => !inBlk (q.quad * 4) }
      filt := { s.filt with ents, store := s.filt.store.filter fun e => !inBlk (e.sector * 4) }
      held := s.held.filter fun h => !decide (pageBlock h.page = blk)
      pmc := s.pmc.filter fun p => !decide (pageBlock p.2.page = blk) }
  { d with
    slc := d.slc.map fun s => (s.1, upd s.2)
    pinLoss := satAdd pinLossMax d.pinLoss pins
    pm := { d.pm with ents := d.pm.ents.filter fun e => !decide (pageBlock e.1 = blk), blocks := tput {} d.pm.blocks blk {} } }

/-- A record goes to Free, keeping SEQ (Table 3.3); blocks no other record holds are freed, `only` limiting that to records never granted. -/
def Dev.freeRecord (d : Dev) (n : Nat) : Dev :=
  let r := d.xrec n
  let gone := r.blocks.filter fun b => !d.heldBut n b
  let d := gone.foldl (fun d b => d.freeBlock b) d
  { d with
    ext := { d.ext with
      recs := tput {} d.ext.recs n { seq := r.seq }
      offers := (d.ext.offers.map fun o => { o with recs := o.recs.filter (· ≠ n) }).filter fun o => !o.recs.isEmpty } }

/-- An Offered record returns to Free, with an event to the Pool owner (R90). -/
def Dev.endOffer (d : Dev) (n : Nat) : Dev :=
  let r := d.xrec n
  (d.freeRecord n).evPool .offerEnded [n, r.ld, r.base, r.nblk1 + 1]

/-- Attributes of an add: homing, writability, context; staged for exactly this landing and range, or the defaults (R87). -/
def Dev.staged (d : Dev) (ld base nblk : Nat) : Bool × Bool × Nat :=
  match d.ext.staged.find? fun s => decide (s.ld = ld ∧ s.base = base ∧ s.nblk = nblk) with
  | some s => (s.near, s.rdonly, s.ctx)
  | none => (false, false, d.p (0x150 + ld))

/-- Share group of a tag: SHAREID of its live records. -/
def Dev.groupId (d : Dev) (tag : BitVec 128) : Option Nat :=
  (d.recList.find? fun r => r.2.shared && decide (r.2.tag = tag)).map (·.2.share)

/-- Outcome of the checks of R88: the check that failed, the index of the extent, and a block whose reclaim is the only cause. -/
structure AddFail where
  check : Nat
  idx : Nat
  reclaim : Option Nat := none
  deriving DecidableEq, Repr

/-- First index of a list that satisfies a test. -/
def firstIdx {α : Type} (f : Nat → α → Bool) (l : List α) : Option Nat := ((List.range l.length).zip l).find? (fun x => f x.1 x.2) |>.map (·.1)

/-- The checks of R88 in order over extents given as first block and block count. -/
def Dev.addChecks (d : Dev) (ld : Nat) (tag : BitVec 128) (shared : Bool) (xs : List (Nat × Nat)) : Option AddFail :=
  let k := (d.ld ld).link
  let live := d.recList
  let grp := if shared then d.groupId tag else none
  let inx := fun (x : Nat × Nat) (b : Nat) => decide (x.1 ≤ b) && decide (b < x.1 + x.2)
  let blks := fun (x : Nat × Nat) => (List.range x.2).map fun i => x.1 + i
  let fail := fun (k : Nat) (t : Nat → Nat × Nat → Bool) => (firstIdx t xs).map fun i => ({ check := k, idx := i } : AddFail)
  let hit := fun (x : Nat × Nat) (p : ExtRec → Bool) => (blks x).find? fun b => live.any fun r => r.2.covers b && p r.2
  let mine := (live.filter fun r => decide (r.2.ld = ld)).length
  let ids := (live.map (·.2.share)).filter (0 < ·) |>.eraseDups
  let c1 := if !d.on ld || decide (k.st = .disabled) || decide (k.st = .absorbed) then some ({ check := 1, idx := 0 } : AddFail) else none
  let c2 := fail 2 fun i _ => decide (32768 < live.length + i + 1) || decide (4096 < mine + i + 1) || (shared && grp.isNone && decide (0x7FFF ≤ ids.length))
  let c3 := fail 3 fun i x => (hit x fun r => decide (r.ld = ld)).isSome || (xs.take i).any fun y => (blks x).any fun b => inx y b
  let only := fun (p : ExtRec → Bool) (i : Nat) =>
    match xs[i]? with
    | some x => match hit x fun r => p r && decide (r.st ≠ .reclaiming) with
      | some _ => none
      | none => hit x p
    | none => none
  let p4 := fun _ : ExtRec => true
  let p5 := fun r : ExtRec =>
    !r.shared || decide (grp ≠ some r.share) || !(live.any fun y => decide (y.2.share = r.share) && decide (y.2.st = .offered ∨ y.2.st = .granted))
  let withReclaim := fun (o : Option AddFail) (p : ExtRec → Bool) => o.map fun f => { f with reclaim := only p f.idx }
  let c4 := if shared then none else withReclaim (fail 4 fun _ x => (hit x p4).isSome) p4
  let c5 := if !shared then none else withReclaim (fail 5 fun _ x => (hit x p5).isSome) p5
  let attrs := fun (x : Nat × Nat) => d.staged ld x.1 x.2
  let first : Option ExtRec := match grp with
    | some g => (live.find? fun (r : Nat × ExtRec) => decide (r.2.share = g)).map (·.2)
    | none => none
  let c6 := match first with
    | some r => fail 6 fun _ x => decide ((attrs x).1 ≠ r.near) || decide ((attrs x).2.2 ≠ r.ctx)
    | none => none
  let others : List Nat := match grp with
    | some g => (live.filter fun (r : Nat × ExtRec) => decide (r.2.share = g)).map (·.2.ld)
    | none => []
  let c7 := fail 7 fun _ x => shared && (attrs x).1 && others.any fun n => decide (quadOf n ≠ quadOf ld)
  let held := fun (b : Nat) => live.any fun r => r.2.covers b
  let newTo := fun (i : Nat) => ((xs.take (i + 1)).flatMap blks).eraseDups.filter fun b => !held b
  let c8 := fail 8 fun i _ => decide (d.nominal < d.usedBlocks + (newTo i).length)
  let sealOf := fun (x : Nat × Nat) => (tget {} d.ctx (attrs x).2.2).sld
  let sb := d.sealedBlocks
  let newSeal := fun (i : Nat) => ((xs.take (i + 1)).filter fun x => sealOf x).flatMap blks |>.eraseDups |>.filter fun b => !decide (b ∈ sb)
  let c9 := fail 9 fun i x => sealOf x && decide (8192 < sb.length + (newSeal i).length)
  let c10 := fail 10 fun _ x =>
    let c := tget {} d.ctx (attrs x).2.2
    (decide ((attrs x).2.2 ≠ 0) && decide (c.st ≠ .enabled)) || (c.sld && shared && !(d.sealEn && d.sealSh))
  [c1, c2, c3, c4, c5, c6, c7, c8, c9, c10].foldl (fun (a : Option AddFail) o => match a with
    | some x => some x
    | none => o) none

/-- Accept an add (R89, R91, R111): records Offered, blocks bound, staged sets used up, events to the host. -/
def Dev.acceptAdd (d : Dev) (ld : Nat) (tag : BitVec 128) (shared : Bool) (xs : List (Nat × Nat)) : Dev :=
  let ids := d.recList.map (·.2.share)
  let share := if shared then (d.groupId tag).getD (((List.range 0x8000).drop 1).find? (fun i => !decide (i ∈ ids)) |>.getD 0) else 0
  let (recs, d) := xs.foldl (fun (acc : List Nat × Dev) x =>
    let (recs, d) := acc
    let (near, rdonly, ctx) := d.staged ld x.1 x.2
    let n := ((List.range (d.ext.recs.length + 1)).find? fun i => decide ((d.xrec i).st = .free)).getD 0
    let fresh := ((List.range x.2).map fun i => x.1 + i).filter fun b => !(d.ext.recs.any fun r => decide (r.2.st ≠ .free) && r.2.covers b)
    let old := d.xrec n
    let r : ExtRec := { base := x.1, nblk1 := x.2 - 1, ld, shared, near, rdonly, st := .offered, ctx, share, seq := old.seq + 1#16, tag }
    let keep := d.ext.staged.filter fun s => !decide (s.ld = ld ∧ s.base = x.1 ∧ s.nblk = x.2)
    let d := { d with ext := { d.ext with recs := tput {} d.ext.recs n r, staged := keep } }
    let d := fresh.foldl (fun d b => d.bindBlock b ctx ld near) d
    (recs ++ [n], d.evHost ld .addCapacity [n, x.1, x.2] 4)) ([], d)
  { d with ext := { d.ext with offers := d.ext.offers ++ [{ ld, recs, limit := d.p 0x141 }] } }

/-- Sectors of a record's blocks that a landing holds at a slice (R93). -/
def Dev.heldSectors (d : Dev) (sl n : Nat) : List Nat :=
  let r := d.xrec n
  ((d.entsOf sl).filter fun e => e.valid && r.covers (e.sector / 2 ^ 20) && (e.sharers.getLsbD r.ld || (e.owned && decide (e.owner.val = r.ld)))).map (·.sector)

/-- Back-invalidate every line of a Releasing shared record that its host holds and is not asked for yet (R93). -/
def Dev.drainSnoops (d : Dev) (n : Nat) : Dev :=
  let r := d.xrec n
  if !r.shared || !d.linkLive r.ld then d
  else d.units.foldl (fun d sl => (d.heldSectors sl n).foldl (fun d s =>
    if (d.ms sl).filt.colls.any fun c => decide (c.sector = s) && decide (c.act = .release n) then d
    else d.collect sl s none .inv [r.ld] (.release n)) d) d

/-- A Granted record enters Releasing (R92, R93). -/
def Dev.releaseRec (d : Dev) (n : Nat) : Dev := (d.modRec n fun r => { r with st := .releasing }).drainSnoops n

/-- A descriptor of a landing's host queue names some byte of a record (R93). -/
def Dev.bargeOn (d : Dev) (r : ExtRec) : Bool :=
  match (d.bg r.ld).cur with
  | none => false
  | some x =>
    let lo := r.base * 2 ^ 28
    let hi := (r.base + r.nblk1 + 1) * 2 ^ 28
    let hit := fun (a : Nat) => decide (a < hi) && decide (lo < a + max 1 x.len)
    hit x.src || (decide (x.op = 1) && hit x.dst)

/-- Requests of a landing to a record's blocks that are admitted and not complete. -/
def Dev.admitted (d : Dev) (r : ExtRec) : Bool :=
  let mine := fun w : Work => decide (w.ld = some r.ld) && !w.pf && r.covers (w.line / 2 ^ 22)
  (d.slc.any fun s => s.2.waitq.any mine || s.2.misses.any fun m => m.ws.any mine) || (d.ld r.ld).wait.any (fun x => mine x.2)
    || (d.lnd.any fun l => l.2.coh.board.any fun f => decide (f.ld = some r.ld) && r.covers (f.sector / 2 ^ 20))

/-- The drain of a Releasing record is done (R93): Free when other records hold all its blocks, else Reclaiming. While it is not, nothing but
the snoops still missing happens. -/
def Dev.drainDone (d : Dev) (n : Nat) : Dev :=
  let r := d.xrec n
  if r.st ≠ .releasing then d
  else
    let holds := r.shared && d.units.any fun sl => !(d.heldSectors sl n).isEmpty
    let down := !d.linkLive r.ld
    if !down && (d.admitted r || holds || d.bargeOn r) then d.drainSnoops n
    else if r.blocks.all fun b => d.heldBut n b then d.freeRecord n
    else d.modRec n fun r => { r with st := .reclaiming }

/-- Reclaim of a record's blocks is done (R94). -/
def Dev.reclaimDone (d : Dev) (n : Nat) : Dev := if (d.xrec n).st = .reclaiming then d.freeRecord n else d

/-- Send the overcommit event when N has fallen below the blocks in use, once (R100). -/
def Dev.overcommit (d : Dev) : Dev :=
  if !d.active then d
  else
    let now := decide (d.nominal < d.usedBlocks)
    if now == d.ext.ovr then d
    else
      let d := { d with ext := { d.ext with ovr := now } }
      if now then d.evPool .overcommit [d.nominal, d.usedBlocks] 1 else d

end Sys2Proof.Machine
end

