-- ==== Sys2Proof/Machine/Maint.lean ====
section
/-! DEFINITION. Wharf maintenance: range operations, pins, way conversion, the drain of a fenced slice, the move of its filter, cleaning ticks and idle cleaning (R178 to R204, R230 to R234). -/
namespace Sys2Proof.Machine

/-- Lines of a range at a slice that a range operation acts on: installed before its marker (R199), which at the marker itself is every one. -/
def Wharf.inRange (w : Wharf) (r : RangeOp) (now : Bool) : List (Nat × WLine) :=
  w.lines.filter fun x => decide (x.2.st ≠ .invalid) && (now || !x.2.pm) && decide (r.lo ≤ x.2.addr) && decide (x.2.addr ≤ r.hi)

/-- Write back the dirty quads among some lines, page by page. -/
def Dev.writeLines (d : Dev) (sl : Nat) (lines : List Nat) (evict eager : Bool) (ph : Phys) : Dev :=
  let pages := (lines.map (· / 64)).eraseDups
  pages.foldl (fun d p =>
    let qs := ((lines.filter fun l => l / 64 = p).map (· / 4)).eraseDups
    d.writeback sl p qs evict eager ph) d

/-- Act on the lines of a range operation at a slice (R199 to R201, Table 6.5): dirty lines are written back, or dropped under Discard;
under Invalidate and Discard the others leave; Held and Writing lines are waited for, and a Discard ends their holds. -/
def Dev.actRange (d : Dev) (sl : Nat) (r : RangeOp) (now : Bool) (ph : Phys) : Dev :=
  let inq := fun (q : Nat) => decide (r.lo ≤ q * 4 + 3) && decide (q * 4 ≤ r.hi)
  match r.op with
  | .clean =>
    let dirty := (((d.ms sl).wharf.inRange r now).filter fun x => x.2.st = .dirty).map (·.2.addr)
    let d := d.writeLines sl dirty false false ph
    ((d.ms sl).wharf.qbuf.filter fun b => inq b.quad).foldl (fun d b => d.flushBuf sl b.quad false ph) d
  | .invalidate =>
    let dirty := (((d.ms sl).wharf.inRange r now).filter fun x => x.2.st = .dirty).map (·.2.addr)
    let d := d.writeLines sl dirty false false ph
    let d := ((d.ms sl).wharf.qbuf.filter fun b => inq b.quad).foldl (fun d b => d.flushBuf sl b.quad false ph) d
    (((d.ms sl).wharf.inRange r now).filter fun x => x.2.st = .clean).foldl (fun d x => d.invalidate sl x.1 r.count) d
  | .discard =>
    let d := d.modMs sl fun s =>
      { s with held := s.held.filter fun h => !(h.quads.all fun q => inq q.1)
               wharf := { s.wharf with qbuf := s.wharf.qbuf.filter fun b => !inq b.quad } }
    ((d.ms sl).wharf.inRange r now).foldl (fun d x => d.invalidate sl x.1 r.count) d

/-- Doom the fills ordered before the marker of an Invalidate or Discard (R37, R199). -/
def Dev.doomRange (d : Dev) (sl : Nat) (r : RangeOp) : Dev :=
  if r.op = .clean then d
  else
    let upd := fun m : Miss => if decide (r.lo ≤ m.quad * 4 + 3) && decide (m.quad * 4 ≤ r.hi) then { m with doomed := true } else m
    d.modMs sl fun s => { s with misses := s.misses.map upd }

/-- A range operation starts at a slice, or waits behind the oldest of four (R202). -/
def Dev.beginRange (d : Dev) (sl : Nat) (r : RangeOp) (ph : Phys) : Dev :=
  let w := (d.ms sl).wharf
  if 4 ≤ w.ranges.length then d.modW sl fun w => { w with rangeQ := w.rangeQ ++ [r] }
  else ((d.modW sl fun w => { w with ranges := w.ranges ++ [r] }).doomRange sl r).actRange sl r true ph

/-- Slices a range operation touches (R198): those that home its pages, or every enabled one from 4 MiB on. -/
def Dev.rangeSlices (d : Dev) (lo hi : Nat) : List Nat :=
  if 65536 ≤ hi + 1 - lo then d.units
  else
    let pages := (List.range (hi / 64 + 1 - lo / 64)).map fun i => lo / 64 + i
    d.units.filter fun s => pages.any fun p => decide (d.homeOf p = s)

/-- Start a range operation over a line range, with a device-wide number (R198, R199). -/
def Dev.startRange (d : Dev) (op : MaintOp) (lo hi : Nat) (count : Bool) (ph : Phys) : Nat × Dev :=
  let id := d.mg.nextOp
  let d := { d with mg := { d.mg with nextOp := id + 1 } }
  (id, (d.rangeSlices lo hi).foldl (fun d s => d.beginRange s { id, op, lo, hi, count } ph) d)

/-- Some slice has still to report a range operation. -/
def Dev.rangeActive (d : Dev) (id : Nat) : Bool :=
  d.slc.any fun s => (s.2.wharf.ranges.any fun r => decide (r.id = id)) || s.2.wharf.rangeQ.any fun r => decide (r.id = id)

/-- A slice has acted on every line before the marker (R202): the operation acts again on lines whose hold has ended; while one is Held or Writing,
or the quad's writeback is held, the slice does not report. Then the next waiting operation starts. -/
def Dev.rangeDone (d : Dev) (sl id : Nat) : Dev :=
  match (d.ms sl).wharf.ranges.find? fun r => decide (r.id = id) with
  | none => d
  | some r =>
    let d := d.actRange sl r false {}
    let w := (d.ms sl).wharf
    let left := match r.op with
      | .clean => (w.inRange r false).any fun x => x.2.st.isDirty
      | _ => !(w.inRange r false).isEmpty
    if left then d
    else
      let d := d.modW sl fun w =>
        let rs := w.ranges.filter fun x => x.id ≠ id
        { w with ranges := rs, lines := if rs.isEmpty then w.lines.map fun x => (x.1, { x.2 with pm := false }) else w.lines }
      match (d.ms sl).wharf.rangeQ with
      | [] => d
      | q :: qs => (d.modW sl fun w => { w with rangeQ := qs }).beginRange sl q {}

/-- Pin one line (R187): filled when absent, a Z page's as Clean zeros; false when its set holds its limit or no way can take it. -/
def Dev.pin (d : Dev) (line : Nat) : Bool × Dev :=
  let sl := d.homeOf (line / 64)
  let w := (d.ms sl).wharf
  if w.noInstall then (false, d)
  else if (w.find line).isSome then d.pinLine sl line
  else if w.pinMax ≤ w.setPins (wSet line) then (false, d)
  else
    let cls := 63
    let ((oe, _), d) := d.pmLookup sl (line / 64) {} (some cls)
    if oe.isNone then (false, d)
    else
    let (q, d) := d.fetchQuad sl (line / 4) {} (some cls)
    let d := if d.isStored (line / 4) then d.fillQuad sl (line / 4) line cls false q {} else d.fillLine sl line (Quad.line q.data (line % 4)) q.pois cls 1 false {}
    d.pinLine sl line

/-- Unpin one line (R187): false when it was not pinned. -/
def Dev.unpin (d : Dev) (line : Nat) : Bool × Dev :=
  let sl := d.homeOf (line / 64)
  match (d.ms sl).wharf.find line with
  | some k => ((((d.ms sl).wharf.get k).pin), d.modW sl fun w => w.put k { w.get k with pin := false })
  | none => (false, d)

/-- Lines in the ways that a conversion to `m` scratch ways takes. -/
def Wharf.inConv (w : Wharf) (m : Nat) : List (Nat × WLine) :=
  w.lines.filter fun x => decide (x.2.st ≠ .invalid) && decide (16 ≤ x.1 % 16 + m)

/-- Clean and invalidate the ways under conversion (R192). -/
def Dev.clearConv (d : Dev) (sl m : Nat) : Dev :=
  let dirty := (((d.ms sl).wharf.inConv m).filter fun x => x.2.st = .dirty).map (·.2.addr)
  let d := d.writeLines sl dirty false false {}
  (((d.ms sl).wharf.inConv m).filter fun x => x.2.st = .clean).foldl (fun d x => d.invalidate sl x.1) d

/-- Start a change of p0171 in every enabled slice (R192). -/
def Dev.startConv (d : Dev) (m : Nat) : Dev :=
  let d := { d with mg := { d.mg with convTo := some m } }
  d.units.foldl (fun d s => (d.modW s fun w => { w with conv := true }).clearConv s m) d

/-- Drop the pins of a set beyond the limit, from the highest cache way downward (R192). -/
def Dev.trimPins (d : Dev) (sl : Nat) : Dev :=
  let w := (d.ms sl).wharf
  let sets := ((w.lines.filter fun x => x.2.pin).map (·.1 / 16)).eraseDups
  sets.foldl (fun d set =>
    let pinned := (((d.ms sl).wharf.cacheWays.filter fun i => ((d.ms sl).wharf.at set i).pin)).reverse
    let drop := pinned.take (pinned.length - (d.ms sl).wharf.pinMax)
    drop.foldl (fun d i =>
      let d := d.modW sl fun w => w.put (16 * set + i) { w.at set i with pin := false }
      { d with pinLoss := satAdd pinLossMax d.pinLoss 1 }) d) d

/-- The conversion is finished in every slice (R192): nothing happens while a line in a converted way is Held or Writing. -/
def Dev.convDone (d : Dev) : Dev :=
  match d.mg.convTo with
  | none => d
  | some m =>
    let d := d.units.foldl (fun d s => d.clearConv s m) d
    if d.units.any fun s => !((d.ms s).wharf.inConv m).isEmpty then d
    else
      let d := d.units.foldl (fun d s =>
        (d.modW s fun w => { w with
          m, conv := false
          scratch := w.scratch.filter fun x => decide (x.1 / 2 ^ 20 < min m w.m)
          scrPois := w.scrPois.filter fun x => decide (x / 2 ^ 20 < min m w.m) }).trimPins s) d
      { d with mg := { d.mg with convTo := none } }

/-- A cleaning tick ends (R180). -/
def Dev.cleanTick (d : Dev) (sl : Nat) : Dev := d.modW sl fun w => { w with tick := (w.tick + 1) % 8, tickLen := d.p 0x170 / 8 }

/-- Idle cleaning (R181): from the scanner's place on, the next set with a dirty line has its dirty lines written back, while the channel is idle enough. -/
def Dev.idleClean (d : Dev) (sl util : Nat) (ph : Phys) : Dev :=
  if d.p 0x175 ≤ util then d
  else
    let w := (d.ms sl).wharf
    let dirty := w.lines.filter fun x => x.2.st = .dirty
    let rank := fun (x : Nat × WLine) => (x.1 / 16 + 16384 - w.scan) % 16384
    match argMin rank dirty with
    | none => d
    | some x =>
      let set := x.1 / 16
      let lines := (dirty.filter fun y => y.1 / 16 = set).map (·.2.addr)
      (d.modW sl fun w => { w with scan := (set + 1) % 16384 }).writeLines sl lines false true ph

/-- Trim one class of a slice that is over its maximum (R178): its oldest Clean lines leave, then its oldest Dirty ones are written back and leave. -/
def Dev.trimClass (d : Dev) (sl cls : Nat) (ph : Phys) : Dev :=
  let w := (d.ms sl).wharf
  let ovr := w.occ cls - d.wX w cls
  let oldest := fun (l : List (Nat × WLine)) => (List.range 8).reverse.flatMap fun a => l.filter fun x => x.2.age = a
  let mine := w.lines.filter fun x => decide (x.2.cls = cls) && !x.2.pin && decide (x.1 % 16 ∈ w.cacheWays)
  let clean := (oldest (mine.filter fun x => x.2.st = .clean)).take ovr
  let dirty := (oldest (mine.filter fun x => x.2.st = .dirty)).take (ovr - clean.length)
  let d := clean.foldl (fun d x => d.invalidate sl x.1) d
  dirty.foldl (fun d x =>
    let d := d.writeLines sl [x.2.addr] false false ph
    match (d.ms sl).wharf.find x.2.addr with
    | some k => if ((d.ms sl).wharf.get k).st = .clean then d.invalidate sl k else d
    | none => d) d

/-- Every page-map-cache slot's TALLY and TEPOCH are written back (R121). -/
def Dev.flushTallies (d : Dev) (sl : Nat) : Dev := (d.ms sl).pmc.foldl (fun d x => d.flushSlot sl x.1) d

/-- A fenced Wharf slice has drained (R203): its dirty lines written back and no hold left, it is bypassed, and its filter begins to move (R232). -/
def Dev.drainComplete (d : Dev) (sl : Nat) (ph : Phys) : Dev :=
  if !(d.ms sl).wharf.draining then d
  else
    let dirty := ((d.ms sl).wharf.lines.filter fun x => x.2.st = .dirty).map (·.2.addr)
    let d := d.writeLines sl dirty false false ph
    if (d.ms sl).wharf.lines.any fun x => x.2.st.isDirty then d
    else
      let d := d.modW sl fun w => { w with fenced := true, draining := false, lines := [], scratch := [], scrPois := [] }
      d.modF sl fun f => { f with moving := !f.moved }

/-- Where one moving entry goes in the partner's ways: the ways so far, entries for the store, sectors to evict first. -/
structure Move where
  ents : Tbl FEnt
  store : List FEnt := []
  evict : List (Nat × FEnt) := []

/-- Place one entry of a moving filter (R232). -/
def Dev.moveOne (d : Dev) (p : Nat) (m : Move) (e : FEnt) : Move :=
  let ps := d.filterPos p e.sector
  let key := fun i => 32 * fSet e.sector + i
  let at' := fun i => tget {} m.ents (key i)
  match ps.find? fun i => !(at' i).valid with
  | some i => { m with ents := tput {} m.ents (key i) { e with frgn := true, alloc := (d.ms p).filt.order } }
  | none =>
    let free := ps.filter fun i => !(at' i).adrift
    match argMin (fun i => (at' i).alloc) free with
    | some i => { m with evict := m.evict ++ [(key i, at' i)] }
    | none => if e.adrift then { m with store := m.store ++ [e] } else { m with evict := m.evict ++ [(0, e)] }

/-- Back-invalidate a tracked sector for a drain or an eviction, unless that is under way (R211, R232, R234). -/
def Dev.evictSector (d : Dev) (home : Nat) (e : FEnt) (act : CollAct) : Dev :=
  let lds := (e.shs ++ if e.owned then [e.owner.val] else []).eraseDups
  if (d.ms home).filt.busy e.sector then d
  else d.collect home e.sector none .inv lds act

/-- The filter of a bypassed slice finishes moving to its partner's ways (R232, R233). Evictions it needs are started and waited for; with the
partner bypassed too, both back-invalidate what they track and keep only Adrift entries, in their stores. -/
def Dev.filterMove (d : Dev) (sl : Nat) : Dev :=
  let p := partner sl
  if !(d.ms sl).filt.moving then d
  else if (d.ms p).wharf.fenced then
    let d := d.modF p fun f => { f with moving := true }
    let track := fun (fs : Nat) => ((d.ms fs).filt.ents.filter fun x => x.2.valid).map fun x => (entHome fs x.2, x.2)
    let all := track sl ++ track p
    let live := all.filter fun x => !(x.2.linesIn 1 ++ x.2.linesIn 2).isEmpty
    if live.isEmpty && all.all fun x => !(d.ms x.1).filt.busy x.2.sector then
      let d := all.foldl (fun d x => d.storeAdrift x.1 { x.2 with frgn := false }) d
      let fin := fun f : Filter => { f with ents := [], moving := false, noGrant := true, moved := false, hosting := false }
      (d.modF sl fin).modF p fin
    else live.foldl (fun d x => d.evictSector x.1 x.2 .drain) d
  else
    let mine := (d.ms sl).filt.ents.filter fun x => x.2.valid && !x.2.frgn
    let m := mine.foldl (fun m x => d.moveOne p m x.2) ({ ents := (d.ms p).filt.ents } : Move)
    if m.evict.isEmpty then
      let d := (d.modF sl fun f => { f with ents := [], moving := false, moved := true }).modF p fun f =>
        { f with ents := m.ents, hosting := true, order := f.order + mine.length }
      m.store.foldl (fun d e => d.storeAdrift sl e) d
    else m.evict.foldl (fun d x => d.evictSector (if (mine.any fun y => decide (y.2.sector = x.2.sector)) then sl else entHome p x.2) x.2 .victim) d

/-- End the Adrift state of one line (R230): zero-fill, or the home slice's copy as it stands. Says whether the line was Adrift. -/
def Dev.clearAdrift (d : Dev) (line : Nat) (zero : Bool) : Bool × Dev :=
  let sl := d.homeOf (line / 64)
  let j := line % 4
  match d.fent sl (line / 4) with
  | none => (false, d)
  | some (loc, e) =>
    if e.ls j ≠ 3 then (false, d)
    else
      let d := d.putFent sl loc (e.setLs j 0)
      if zero then
        (true, (if (d.ms sl).wharf.noInstall then d.bufWrite sl line 0#512 false 63 else d.installDirty sl line 0#512 false true 63 {}).2)
      else (true, d)

end Sys2Proof.Machine
end

