-- ==== Sys2Proof/Machine/Internal.lean ====
section
/-! DEFINITION. The internal map: memories, region registers, agents, accesses, scratch, and the sandbox faults of Pilot modules (R189 to R191, R417 to R420, R433 to R439). -/
namespace Sys2Proof.Machine

/-- Agents of Table 14.3. -/
inductive Agent where
  | qs
  | qp (slot : Nat)
  | tw
  | th
  | bs
  | bp (slot : Nat)
  | dbg
  deriving DecidableEq, Repr

/-- Memory of an internal address and the offset in it (Table 14.4): 0 Ferryman SRAM, 1 Quay carve-out, 2 Toll carve-out, 3 scratch. -/
def memoryOf (a : Nat) : Option (Nat × Nat) :=
  if a < 0x200000 then some (0, a)
  else if a < 0x40000000 then none
  else if a < 0x78000000 then some (1, a - 0x40000000)
  else if a < 0x80000000 then some (2, a - 0x78000000)
  else if a < 0x88000000 then some (3, a - 0x80000000)
  else none

/-- Pages of each memory of Table 14.4. -/
def memPages : Nat → Nat
  | 0 => 512
  | 1 => 229376
  | 2 => 32768
  | 3 => 32768
  | _ => 128

/-- Region register `k` of a memory (Table 14.3). -/
def Dev.region (d : Dev) (m k : Nat) : BitVec 128 := tget 0#128 d.rgn (16 * m + k)

/-- Fields of a region register. -/
def rgnValid (r : BitVec 128) : Bool := r.getLsbD 0
def rgnLock (r : BitVec 128) : Bool := r.getLsbD 1
def rgnBase (r : BitVec 128) : Nat := bits r.toNat 4 20
def rgnLimit (r : BitVec 128) : Nat := bits r.toNat 32 20
def rgnPmod (r : BitVec 128) : Nat := bits r.toNat 68 3
def rgnQpcode (r : BitVec 128) : Nat := bits r.toNat 82 20

/-- DBGLOCK (Table 14.6). -/
def Dev.dbgLock (d : Dev) : Nat := bits d.fz.toNat 48 2

/-- Grant code of a region to an agent, at a page of its memory (Table 14.3, Table 14.6, R432). -/
def Dev.grant (d : Dev) (r : BitVec 128) (ag : Agent) (page : Nat) : Nat :=
  let f := fun lo => bits r.toNat lo 2
  match ag with
  | .qs => f 64
  | .qp s => if rgnPmod r ≠ s then 0 else if f 66 = 2 ∧ page < rgnBase r + rgnQpcode r then 3 else f 66
  | .tw => f 72
  | .th => f 74
  | .bs => f 76
  | .bp s => if rgnPmod r = s then f 78 else 0
  | .dbg => if d.dbgLock = 3 ∨ (d.dbgLock = 1 ∧ d.tlh.unlock.isNone) then 0 else f 80

/-- The access is allowed (R418): the lowest VALID region with the first byte also holds the last byte and grants the access. -/
def Dev.allowed (d : Dev) (ag : Agent) (a n : Nat) (write : Bool) : Bool :=
  match memoryOf a with
  | none => false
  | some (m, o) =>
    let p := o / 4096
    let q := (o + n - 1) / 4096
    match ((List.range 16).map (d.region m)).find? fun r => rgnValid r && decide (rgnBase r ≤ p) && decide (p ≤ rgnLimit r) with
    | none => false
    | some r =>
      let g := min (d.grant r ag p) (d.grant r ag q)
      decide (q ≤ rgnLimit r) && decide (q < memPages m) && (if write then decide (2 ≤ g) else decide (1 ≤ g))

/-- Channel and byte offset of a carve-out byte (R419): none when its channel is not usable. -/
def Dev.carveAt (d : Dev) (a : Nat) : Option (Nat × Nat) :=
  let o := a - 0x40000000
  let e := d.units
  let (i, w) := if d.codeH then (bits o 12 3, 15) else (bits o 12 4, 16)
  match e[i]? with
  | some c => if (d.ch c).usable then some (c, d.fwBase c + o / 2 ^ w * 4096 + o % 4096) else none
  | none => none

/-- A scratch offset decodes to slice and offset in it, when its slice is enabled and not bypassed and its ordinal is below m (R189). -/
def Dev.scratchAt (d : Dev) (o : Nat) : Option (Nat × Nat) :=
  let sl := o / 2 ^ 23
  let w := (d.ms sl).wharf
  if d.on sl && !w.fenced && decide (bits o 20 3 < w.m) then some (sl, o % 2 ^ 23) else none

/-- Read `n` bytes within one page of the internal map with no region check: the bytes, and whether they are poisoned by a lasting parity
error (R191, R292); none is an access error. -/
def Dev.rawRead (d : Dev) (a n : Nat) (chk : Chk) : Option (List Byte × Bool) × Dev :=
  match memoryOf a with
  | none => (none, d)
  | some (0, o) => (some ((List.range n).map fun i => tget 0#8 d.sram (o + i), false), d)
  | some (3, o) =>
    (match d.scratchAt o with
     | none => (none, d)
     | some (sl, x) =>
       let out := (List.range n).map fun i => tget 0#8 (d.ms sl).wharf.scratch (x + i)
       let was := (List.range n).any fun i => decide ((x + i) / 16 ∈ (d.ms sl).wharf.scrPois)
       let (k, inj, d) := d.check [sliceSrc sl 0x1C, sliceSrc sl 0x1D] chk
       match k with
       | .ok => (some (out, was), d)
       | .transient => (some (out, was), d.report { src := sliceSrc sl 0x1C, det0 := a, inj })
       | .lasting =>
         let u := x / 16
         let d := d.modW sl fun w => { w with scrPois := if u ∈ w.scrPois then w.scrPois else w.scrPois ++ [u] }
         (some (out, true), d.report { src := sliceSrc sl 0x1D, det0 := a, inj }))
  | some (_, _) =>
    (match d.carveAt a with
     | none => (none, d)
     | some (c, off) =>
       let (out, d) := d.rd c off n none
       let (k, inj, d) := d.check [sliceSrc c 0x01, sliceSrc c 0x03] chk
       match k with
       | .ok => (some (out, false), d)
       | .transient => (some (out, false), d.uet c off noDpa inj)
       | .lasting => (none, d.uelMeta c off inj))

/-- Write bytes within one page of the internal map with no region check: false is an access error. -/
def Dev.rawWrite (d : Dev) (a : Nat) (bs : List Byte) : Bool × Dev :=
  match memoryOf a with
  | none => (false, d)
  | some (0, o) =>
    (true, { d with sram := ((List.range bs.length).zip bs).foldl (fun t x => tput 0#8 t (o + x.1) x.2) d.sram })
  | some (3, o) =>
    (match d.scratchAt o with
     | none => (false, d)
     | some (sl, x) =>
       (true, d.modW sl fun w => { w with
         scratch := ((List.range bs.length).zip bs).foldl (fun t y => tput 0#8 t (x + y.1) y.2) w.scratch
         scrPois := w.scrPois.filter fun u => !(decide (x ≤ u * 16) && decide (u * 16 + 16 ≤ x + bs.length)) }))
  | some (_, _) =>
    (match d.carveAt a with
     | none => (false, d)
     | some (c, off) => (true, d.wr c off bs none))

/-- A checked read by an agent (R418). -/
def Dev.intRead (d : Dev) (ag : Agent) (a n : Nat) (chk : Chk) : Option (List Byte × Bool) × Dev :=
  if d.allowed ag a n false then d.rawRead a n chk else (none, d)

/-- A checked write by an agent (R418). -/
def Dev.intWrite (d : Dev) (ag : Agent) (a : Nat) (bs : List Byte) : Bool × Dev :=
  if d.allowed ag a bs.length true then d.rawWrite a bs else (false, d)

/-- Pilot slot `n`. -/
def Dev.pilot (d : Dev) (n : Nat) : Pilot := tget {} d.plt n
/-- Change Pilot slot `n`. -/
def Dev.modPilot (d : Dev) (n : Nat) (f : Pilot → Pilot) : Dev := { d with plt := tmod {} d.plt n f }

/-- A channel stops at its next descriptor boundary: at once when it is idle (R343). -/
def BrgCh.stopNow (b : BrgCh) : BrgCh :=
  match b.st with
  | .idle => { b with st := .stopped, stop := false }
  | .running => if b.cur.isNone then { b with st := .stopped, stop := false } else { b with stop := true }
  | .preempted => { b with stop := true }
  | .waiting => if b.cur.isNone then { b with st := .stopped, stop := false } else { b with stop := true }
  | _ => b

/-- Release a Barge channel from a Pilot slot: back to Syust (R321, R438). -/
def BrgCh.release (b : BrgCh) : BrgCh := { b with owner := .syust, slot := none }

/-- Zero a module's scratch region (R438). -/
def Dev.zeroScratch (d : Dev) (base len : Nat) : Dev :=
  let sls := d.units
  let lo := base - 0x80000000
  sls.foldl (fun d s => d.modW s fun w =>
    let inR := fun (x : Nat) => decide (lo ≤ s * 2 ^ 23 + x) && decide (s * 2 ^ 23 + x < lo + len)
    { w with scratch := w.scratch.filter fun y => !inR y.1, scrPois := w.scrPois.filter fun u => !inR (u * 16) }) d

/-- Clear the region registers given to a Pilot slot: Quay carve-out region 3 + slot, and its scratch region (R435, R438). -/
def Dev.clearRegions (d : Dev) (slot : Nat) : Dev :=
  let mine := fun (x : Nat × BitVec 128) =>
    decide (x.1 = 16 + 3 + slot) || (decide (x.1 / 16 = 3) && decide (rgnPmod x.2 = slot) && decide (bits x.2.toNat 66 2 ≠ 0))
  { d with rgn := d.rgn.filter fun x => !mine x }

/-- The module of a slot stops: no callback, no wait; its Barge channels stop at their boundaries and are released (R438, R439). -/
def Dev.stopModule (d : Dev) (slot : Nat) : Dev :=
  let mine := (List.range 64).filter fun c => decide ((d.bg c).slot = some slot)
  let d := mine.foldl (fun d c => d.modBg c fun b => b.stopNow.release) d
  d.modPilot slot fun p => { p with run := none, cb := none, wait := none, events := [] }

/-- Causes of a sandbox fault as records name them (R438): 1 denied access, 2 undefined instruction, 3 callback duration, 4 Ferryman time,
5 API rate, 6 Barge bus error. -/
def Dev.sandbox (d : Dev) (slot cause : Nat) : Dev :=
  let p := d.pilot slot
  match p.run with
  | none => d
  | some k =>
    let recent := p.faults.filter fun t => decide (d.time ≤ t + 3600000000000)
    let d := d.stopModule slot
    let d := if 0 < p.scrLen then d.zeroScratch p.scrBase p.scrLen else d
    let d := (d.clearRegions slot).modPilot slot fun q =>
      { q with faults := recent ++ [d.time], held := !recent.isEmpty, scrBase := 0, scrLen := 0 }
    let d := d.evPool .sandbox [slot, k.modid.toNat, cause] 1
    { d with plog := d.plog.add 2 none [slot, k.modid.toNat, cause] 32 }

/-- A denied access as its agent sees it (R418): at the Pilot level a sandbox fault, otherwise only the abort. -/
def Dev.denied (d : Dev) (ag : Agent) : Dev :=
  match ag with
  | .qp s => d.sandbox s 1
  | _ => d

end Sys2Proof.Machine
end

