-- ==== Sys2Proof/Machine/Barge.lean ====
section
/-! DEFINITION. The Barge: who drives a channel, its ring, validation and range checks of a descriptor, one line read or written, pre-emption, completion, stop and halt (R321 to R336, R342 to R350). -/
namespace Sys2Proof.Machine

/-- Drivers of a channel that decide what it may reach (R321). -/
inductive Driver where
  | host (ld : Nat) | syust | pilot (slot : Nat) | ballast
  deriving DecidableEq, Repr

/-- Driver of channel `n`. -/
def Dev.driver (d : Dev) (n : Nat) : Driver :=
  match (d.bg n).owner with
  | .host => .host n
  | .syust => .syust
  | .pilot => .pilot ((d.bg n).slot.getD 0)
  | .ballast => .ballast

/-- Service class of a channel's accesses (R305, R346, R350). -/
def Dev.bgCls (d : Dev) (n : Nat) : Nat :=
  match (d.bg n).owner with
  | .host => (tget {} (d.ld n).acc.lbl (d.p (0x1D0 + n))).sc.toNat
  | .ballast => d.p 0x1B1
  | _ => (d.bg n).cls

/-- Priority level of a channel (Table 11.1). -/
def Dev.bgPri (d : Dev) (n : Nat) : Nat :=
  match (d.bg n).owner with
  | .host => d.p (0x1C0 + n)
  | .ballast => 3
  | _ => (d.bg n).pri

/-- The agent as which a channel's internal accesses are checked (Table 14.3). -/
def Dev.bgAgent (d : Dev) (n : Nat) : Agent :=
  match d.driver n with
  | .pilot s => .bp s
  | _ => .bs

/-- Descriptors a channel's ring holds (R324). -/
def BrgCh.ringSize (b : BrgCh) : Nat := 2 ^ (b.ringlog2 + 3)

/-- Address space of SRC or DST (R331). -/
def spaceOf (a : Nat) : Nat := bits a 62 2

/-- Address within its space. -/
def addrIn (a : Nat) : Nat := a % 2 ^ 62

/-- The bits between the space code and the address are zero, and the space is not the reserved one (R331). -/
def addrOk (a : Nat) : Bool :=
  match spaceOf a with
  | 0 => decide (addrIn a < 2 ^ 45)
  | 1 => decide (addrIn a < 2 ^ 32)
  | 2 => decide (addrIn a < 2 ^ 62)
  | _ => false

/-- Parse the 64 bytes of a descriptor (Table 11.2): OWN, and the rest. -/
def parseDesc (l : Line) : Bool × Desc :=
  let v := l.toNat
  (bits v 0 1 = 1,
   { op := bits v 1 4, irq := bits v 8 1 = 1, retire := bits v 9 1 = 1, tcond := bits v 10 1 = 1, dcrc := bits v 11 1 = 1
     tag := bits v 16 16, len := bits v 32 32, src := bits v 64 64, dst := bits v 128 64, arg := bits v 192 64, w0 := bits v 0 64
     bad := decide (bits v 5 3 ≠ 0) || decide (bits v 12 4 ≠ 0) || decide (bits v 256 128 ≠ 0) })

/-- Operation codes of byte and dictionary operations (Table 11.5). -/
def isByteOp (op : Nat) : Bool := decide (op ∈ [1, 2, 3, 0xA, 0xB])

/-- The driver may issue the operation (Table 11.5). -/
def mayIssue (w : Driver) (x : Desc) : Bool :=
  match w with
  | .host _ => decide (x.op ∈ [1, 2, 3])
  | .syust => true
  | .pilot _ => decide (x.op ∈ [1, 2, 3, 4, 5, 6, 7, 9]) && !(decide (x.op = 7) && x.retire)
  | .ballast => decide (x.op ∈ [4, 6])

/-- ARG carries only the operand of its operation (Tables 11.2 and 11.5). -/
def argOk (d : Dev) (x : Desc) : Bool :=
  match x.op with
  | 3 => true
  | 4 => decide (x.arg = bits x.arg 32 8 * 2 ^ 32)
  | 6 => decide (x.arg = bits x.arg 32 8 * 2 ^ 32)
  | 7 => decide (x.arg = bits x.arg 32 8 * 2 ^ 32 + bits x.arg 0 7) && decide (bits x.arg 5 2 ≠ 3) &&
      (decide (bits x.arg 4 1 = 1) || d.on (bits x.arg 0 4))
  | 8 => decide (x.arg < 2 ^ 14)
  | 0xA => decide (x.arg < 2 ^ 32)
  | 0xB => decide (x.arg < 2 ^ 32)
  | _ => decide (x.arg = 0)

/-- The descriptor is valid for its driver: every Reserved field zero, every field in range, the operation allowed (R327, R330, R331). -/
def Dev.descOk (d : Dev) (w : Driver) (x : Desc) : Bool :=
  !x.bad && decide (1 ≤ x.op) && decide (x.op ≤ 0xB) && mayIssue w x && argOk d x && addrOk x.src && addrOk x.dst &&
    (if isByteOp x.op then decide (1 ≤ x.len) && (decide (x.op = 1) || decide (0xA ≤ x.op) || decide (x.dst = 0))
     else decide (1 ≤ x.len) && decide (x.len ≤ 4096) && decide (spaceOf x.src = 0) && decide (x.src % 4096 = 0) && decide (x.dst = 0))

/-- Blocks a DPA byte range touches. -/
def rangeBlocks (a len : Nat) : List Nat := (List.range ((a + len - 1) / 2 ^ 28 + 1 - a / 2 ^ 28)).map fun i => a / 2 ^ 28 + i

/-- Pages a byte range touches. -/
def rangePages (a len : Nat) : List Nat := (List.range ((a + len - 1) / 4096 + 1 - a / 4096)).map fun i => a / 4096 + i

/-- A landing holds a Granted record of a block, not RDONLY when it is to be written (R347). -/
def Dev.hostHas (d : Dev) (ld blk : Nat) (write : Bool) : Bool :=
  d.ext.recs.any fun r => decide (r.2.ld = ld) && decide (r.2.st = .granted) && r.2.covers blk && !(write && r.2.rdonly)

/-- A block lies in a record that is Offered or Granted: not Free, Releasing or Reclaiming (R335). -/
def Dev.blockLive (d : Dev) (blk : Nat) : Bool :=
  d.ext.recs.any fun r => (decide (r.2.st = .granted) || decide (r.2.st = .offered)) && r.2.covers blk

/-- The driver may reach a block (R335, R347). -/
def Dev.reaches (d : Dev) (w : Driver) (blk : Nat) (write : Bool) : Bool :=
  match w with
  | .host n => d.hostHas n blk write
  | _ => d.blockLive blk

/-- Table 8.10 lets a byte operation of the driver touch a page as its source or destination. -/
def Dev.ctxAllows (d : Dev) (w : Driver) (page : Nat) (write : Bool) : Bool :=
  let e := d.ent page
  if !e.sld && !(tget {} d.ctx e.ctx).nodma then true
  else if !write then false
  else match w with
    | .host n => d.hostHas n (pageBlock page) false
    | _ => false

/-- The whole-range check of R335 on one range of a byte operation: none, or the code it ends with. -/
def Dev.rangeCode (d : Dev) (n : Nat) (x : Desc) (a len : Nat) (write : Bool) : Option Nat :=
  let w := d.driver n
  match spaceOf a with
  | 0 =>
    (match w with
     | .pilot _ => some 0x14
     | _ =>
       if 2 ^ 45 < a + len then some 0x14
       else if (rangeBlocks a len).any fun b => !d.reaches w b write then some 0x14
       else if (rangePages a len).any fun p => !d.ctxAllows w p write then some 0x13
       else none)
  | 1 =>
    (match w with
     | .host _ => some 0x14
     | _ =>
       let b := addrIn a
       if 2 ^ 32 < b + len then some 0x14
       else if (rangePages b len).any fun p => !d.allowed (d.bgAgent n) (max b (p * 4096)) 1 write then some 0x14
       else none)
  | 2 =>
    if !write && decide (w = .syust) && (decide (x.op = 1) || decide (x.op = 0xA)) && decide (addrIn a + len ≤ 2 ^ 27) then none
    else some 0x14
  | _ => some 0x17

/-- Ranges a byte operation names: address, length, whether it is written. A dictionary output is as long as its limit allows. -/
def Desc.ranges (x : Desc) : List (Nat × Nat × Bool) :=
  match x.op with
  | 1 => [(x.src, x.len, false), (x.dst, x.len, true)]
  | 2 => [(x.src, x.len, true)]
  | 3 => [(x.src, x.len, true)]
  | _ => [(x.src, x.len, false), (x.dst, max 1 x.arg, true)]

/-- R335 on every range of a byte operation. -/
def Dev.rangesCode (d : Dev) (n : Nat) (x : Desc) : Option Nat := x.ranges.findSome? fun r => d.rangeCode n x r.1 r.2.1 r.2.2

/-- One line access by the Barge. -/
inductive Got where
  | ok (l : Line) (pois : Bool)
  | wait
  | code (c : Nat)
  | bus
  deriving DecidableEq, Repr

/-- Some record of a line's block is shared (R206). -/
def Dev.sharedLine (d : Dev) (line : Nat) : Bool := d.recList.any fun r => r.2.shared && r.2.covers (line / 2 ^ 22)

/-- A Barge access to a line is still settling its coherence (R334). -/
def Dev.brgOut (d : Dev) (sl line : Nat) : Bool :=
  let s := d.ms sl
  let mine := fun w : Work => decide (w.ld = none) && decide (w.line = line)
  s.waitq.any mine || (s.filt.colls.any fun c => match c.act with
    | .serve w => mine w
    | _ => false) || s.filt.fwds.any fun f => decide (f.ld = none) && decide (f.sector * 4 + f.line = line)

/-- The access as the home slice orders it. -/
def Dev.brgWork (d : Dev) (line cls : Nat) (req : Req) : Work :=
  { ld := none, req, line, cls, shared := d.sharedLine line, rdonly := false, near := d.blockNear (line / 2 ^ 22) }

/-- The line is Adrift. -/
def Dev.isAdrift (d : Dev) (sl line : Nat) : Bool :=
  match d.fent sl (line / 4) with
  | some (_, e) => decide (e.ls (line % 4) = 3)
  | none => false

/-- Settle the coherence of a shared line for an access (R334, Table 7.2): true when it is settled. -/
def Dev.brgCoh (d : Dev) (sl : Nat) (w : Work) (ph : Phys) : Bool × Dev :=
  let done := fun (d : Dev) => (d.modF sl fun f => { f with settled := f.settled.erase w.line })
  if !w.shared then (true, d)
  else if w.line ∈ (d.ms sl).filt.settled then (true, done d)
  else if d.brgOut sl w.line then (false, d)
  else
    let d := d.submit sl w ph
    if w.line ∈ (d.ms sl).filt.settled then (true, done d) else (!d.brgOut sl w.line, d)

/-- A write to the line is ordered before this access and not yet applied (R35, R334). -/
def Dev.behindWrite (d : Dev) (sl line : Nat) : Bool :=
  let wr := fun w : Work => decide (w.line = line) && w.req.kind.writes
  ((d.ms sl).waitq.any wr) || (d.ms sl).misses.any fun m => m.ws.any wr

/-- Read a DPA line through its home slice (R334): from the Wharf on a hit, else fetched and not installed; not counted in the tally. -/
def Dev.brgRead (d : Dev) (line cls : Nat) (ph : Phys) : Got × Dev :=
  let sl := d.homeOf (line / 64)
  if d.isAdrift sl line then
    (.ok (Config.poisonLine d.draws) true, { d with draws := d.draws + 1 })
  else
    match d.brgCoh sl (d.brgWork line cls { kind := .rd .cur }) ph with
    | (false, d) => (.wait, d)
    | (true, d) =>
      if d.behindWrite sl line then (.wait, d)
      else
        let d := d.tagCheck sl line ph
        let fetch := fun (d : Dev) =>
          let ((oe, _), d) := d.pmLookup sl (line / 64) ph (some cls)
          if oe.isNone then
            let (q, d) := d.poisoned
            (Got.ok (Quad.line q.data (line % 4)) true, d)
          else
            let (q, d) := d.fetchQuad sl (line / 4) ph (some cls)
            (Got.ok (Quad.line q.data (line % 4)) q.pois, d)
        match (d.ms sl).wharf.find line with
        | some k =>
          let (there, d) := d.parityRead sl k ph
          if there then (.ok ((d.ms sl).wharf.get k).data ((d.ms sl).wharf.get k).pois, d) else fetch d
        | none =>
          match (d.ms sl).wharf.bufLine line with
          | some x => (.ok x.1 x.2, d)
          | none => fetch d

/-- Write a DPA line, or the enabled bytes of one, through its home slice (R332 to R334, R336): false while it must wait. -/
def Dev.brgWrite (d : Dev) (line cls : Nat) (data : Line) (be : BitVec 64) (pois : Bool) (ph : Phys) : Bool × Dev :=
  let sl := d.homeOf (line / 64)
  let full := decide (be = BitVec.allOnes 64)
  let old := match (d.ms sl).wharf.find line with
    | some k => ((d.ms sl).wharf.get k).data
    | none => 0#512
  let req : Req := if full then { kind := .wr .i, data, poison := pois }
    else if pois then { kind := .wr .i, data := mergeLine old data be, poison := true }
    else { kind := .wrPtl .i, data, be }
  if d.isAdrift sl line && !(full && !pois) then (true, d)
  else
    let w := d.brgWork line cls req
    match d.brgCoh sl w ph with
    | (false, d) => (false, d)
    | (true, d) =>
      if d.behindWrite sl line then (false, d)
      else
        match (d.tagCheck sl line ph).serveWrite sl { w with grant := some .noOp } ph with
        | (none, d) => (true, d)
        | (some _, _) => (false, d)

/-- Read a line of any space (R331, R334, R335, R344). The address is that of the line, its space in bits 63:62. -/
def Dev.srcLine (d : Dev) (n a : Nat) (ph : Phys) : Got × Dev :=
  match spaceOf a with
  | 0 =>
    if !d.ctxAllows (d.driver n) (a / 4096) false then (.code 0x13, d) else d.brgRead (a / 64) (d.bgCls n) ph
  | 1 =>
    match d.intRead (d.bgAgent n) (addrIn a) 64 ph.ecc with
    | (some (bs, false), d) => (.ok (ofBytes 512 bs) false, d)
    | (_, d) => (.bus, d)
  | _ => if ph.ecc = .ok then (.ok (ofBytes 512 ((List.range 64).map fun i => tget 0xFF#8 d.flash.bytes (addrIn a + i))) false, d) else (.bus, d)

/-- Byte enables of bytes `lo` to `hi − 1` of a line. -/
def enables (lo hi : Nat) : BitVec 64 := BitVec.ofNat 64 (2 ^ hi - 2 ^ lo)

/-- Write bytes `lo` to `hi − 1` of a line of any space (R332, R335, R336, R344). -/
def Dev.dstLine (d : Dev) (n a lo hi : Nat) (data : Line) (pois : Bool) (ph : Phys) : Got × Dev :=
  match spaceOf a with
  | 0 =>
    if !d.ctxAllows (d.driver n) (a / 4096) true then (.code 0x13, d)
    else
      match d.brgWrite (a / 64) (d.bgCls n) data (enables lo hi) pois ph with
      | (true, d) => (.ok data pois, d)
      | (false, d) => (.wait, d)
  | _ =>
    let bs := if pois then List.replicate (hi - lo) 0#8 else ((bytesOf 64 data).drop lo).take (hi - lo)
    match d.intWrite (d.bgAgent n) (addrIn a + lo) bs with
    | (true, d) => (.ok data pois, d)
    | (false, d) => (.bus, d)

/-- Raise a channel's interrupt: to its host's MSI-X vector, to Syust, or as a Barge event of the module (Table 13.7, R437). -/
def Dev.bgIrq (d : Dev) (n vec : Nat) : Dev :=
  match d.driver n with
  | .host ld => d.modLd ld (·.msi vec)
  | .pilot s => d.modPilot s fun p => p.push 4 n
  | _ => d

/-- Location of a fault of the Barge, the channel in ARRAY (R344, Table 15.7). -/
def bgPath (unit n : Nat) : Path := { mkPath 0 4 34 unit with array := n }

/-- An address of the internal map lies outside every region of a module: none that names its slot and grants it anything holds the address (R438). -/
def Dev.outsideModule (d : Dev) (slot a : Nat) : Bool :=
  decide (spaceOf a = 1) && (match memoryOf (addrIn a) with
    | none => true
    | some (m, o) =>
      !((List.range 16).any fun k =>
        let r := d.region m k
        let own := decide (rgnPmod r = slot) && (decide (bits r.toNat 66 2 ≠ 0) || decide (bits r.toNat 78 2 ≠ 0))
        rgnValid r && own && decide (rgnBase r ≤ o / 4096) && decide (o / 4096 ≤ rgnLimit r)))

/-- A channel halts (R324, R344, R347): HALTIRQ, LASTCODE, and for a bus error at `at_` a fault record, and a sandbox fault of the module that holds
the channel when the address lies outside its regions (R438). -/
def Dev.halt (d : Dev) (n code : Nat) (at_ : Nat := 0) : Dev :=
  let slot := (d.bg n).slot
  let d := d.modBg n fun b => { b with st := .halted, haltirq := true, lastcode := code, cur := none, prog := {} }
  let d := d.bgIrq n 7
  if code ≠ 0x20 then d
  else
    let d := d.report { src := 0x6C0, path := some (bgPath 0 n) }
    match slot with
    | some s => if d.outsideModule s at_ then d.sandbox s 6 else d
    | none => d

/-- State at a descriptor boundary: STOP, ENABLE, then what the ring holds (R343, R345). -/
def BrgCh.boundary (b : BrgCh) : BrgCh :=
  if !b.enable then { b with st := .disabled, stop := false }
  else if b.stop then { b with st := .stopped, stop := false }
  else if b.head = b.tail then { b with st := .idle }
  else { b with st := .running }

/-- The next descriptor's address in its space, space code included (R324). -/
def BrgCh.slotAddr (b : BrgCh) : Nat := b.space * 2 ^ 62 + b.base + b.head.toNat % b.ringSize * 64

/-- The ring of a host channel lies in the landing's own Granted records that are not RDONLY (R347). -/
def Dev.ringOk (d : Dev) (n : Nat) : Bool :=
  match d.driver n with
  | .host ld => decide ((d.bg n).space = 0) && (rangeBlocks (d.bg n).base ((d.bg n).ringSize * 64)).all fun b => d.hostHas ld b true
  | .pilot _ => decide ((d.bg n).space ≠ 0)
  | _ => if (d.bg n).space = 0 then (rangeBlocks (d.bg n).base ((d.bg n).ringSize * 64)).all fun b => d.blockLive b else true

/-- Some channel is in Ebb or Ballast, so that BG63 runs (R350). -/
def Dev.lowTide (d : Dev) : Bool := d.units.any fun c => d.chOk c && decide ((d.ch c).tide.rank ≤ 1)

/-- A beat met a bus error: the channel keeps its place until BUS_ERROR_RETRY settles it (R344). -/
def Dev.busError (d : Dev) (n a : Nat) : Dev := d.modBg n fun b => { b with prog := { b.prog with err := some a } }

/-- The descriptor is complete but for its status. -/
def Dev.finish (d : Dev) (n code fault : Nat) : Dev :=
  d.modBg n fun b => { b with prog := { b.prog with fin := true, code, fault, place := none } }

/-- Code of a descriptor that ends before its first beat. -/
def Dev.earlyCode (d : Dev) (n : Nat) (x : Desc) : Option Nat :=
  let noLabel := match d.driver n with
    | .host ld =>
      let lb : Lbl := tget {} (d.ld ld).acc.lbl (d.p (0x1D0 + ld))
      !lb.valid
    | _ => false
  if noLabel then some 0x14
  else if !d.descOk (d.driver n) x then some 0x17
  else if isByteOp x.op then d.rangesCode n x
  else none

/-- The Barge reads the descriptor at HEAD (R325, R347, R350): OWN clear leaves the channel Idle, OWN set starts the descriptor, which ends at
once when it is invalid or its ranges fail R335. -/
def Dev.bgFetch (d : Dev) (n : Nat) (ph : Phys) : Dev :=
  let b := d.bg n
  if b.cur.isSome || b.prog.err.isSome || !(decide (b.st = .running) || decide (b.st = .waiting)) then d
  else if b.stop || !b.enable then d.modBg n BrgCh.boundary
  else if b.head = b.tail then d.modBg n fun b => { b with st := .idle }
  else if b.owner = .ballast && !d.lowTide then d.modBg n fun b => { b with st := .waiting }
  else if !d.ringOk n then d.halt n 0x14
  else
    let a := b.slotAddr
    let (g, d) := if b.space = 0 then d.brgRead (a / 64) (d.bgCls n) ph else d.srcLine n a ph
    match g with
    | .wait => d
    | .code c => d.halt n c
    | .bus => d.busError n a
    | .ok l pois =>
      if pois then d.busError n a
      else
        let (own, x) := parseDesc l
        if !own then d.modBg n fun b => { b with st := .idle }
        else
          let d := d.modBg n fun b => { b with st := .running, cur := some x, prog := {} }
          match d.earlyCode n x with
          | some c => d.finish n c x.src
          | none => d

/-- Status and result words (Tables 11.3 and 11.4). -/
def BProg.words (p : BProg) (byteOp : Bool) : List Byte :=
  let status := p.code + p.derr * 2 ^ 8 + p.retry * 2 ^ 16 + p.done * 2 ^ 32
  let result := if byteOp then p.fault else p.pskip + p.pref * 2 ^ 16 + p.ppois * 2 ^ 32
  bytesOf 8 (BitVec.ofNat 64 status) ++ bytesOf 8 (BitVec.ofNat 64 result)

/-- Completion of a descriptor whose writes are all accepted (R326, R343, R344, R347): status and result, OWN clear, HEAD, the interrupt, and the
state at the boundary. While a ring write must wait nothing changes. -/
def Dev.bgComplete (d : Dev) (n : Nat) (ph : Phys) : Dev :=
  let b := d.bg n
  match b.cur with
  | none => d
  | some x =>
    if !b.prog.fin || b.prog.err.isSome then d
    else if !d.ringOk n then d.halt n 0x14
    else
      let a := b.slotAddr
      let put := fun (d : Dev) (lo : Nat) (bs : List Byte) =>
        let data := ofBytes 512 (List.replicate lo 0#8 ++ bs)
        if b.space = 0 then
          (match d.brgWrite (a / 64) (d.bgCls n) data (enables lo (lo + bs.length)) false ph with
           | (true, d) => (Got.ok data false, d)
           | (false, d) => (Got.wait, d))
        else
          match d.intWrite (d.bgAgent n) (addrIn a + lo) bs with
          | (true, d) => (Got.ok data false, d)
          | (false, d) => (Got.bus, d)
      match put d 48 (b.prog.words (isByteOp x.op)) with
      | (.wait, d) => d
      | (.bus, d) => d.busError n a
      | (.code c, d) => d.halt n c
      | (.ok _ _, d) =>
        match put d 0 (bytesOf 8 (BitVec.ofNat 64 (x.w0 / 2 * 2))) with
        | (.ok _ _, d) =>
          let code := b.prog.code
          let upd := fun (b : BrgCh) =>
            { b with cur := none, prog := {}, head := b.head + 1#17, lastcode := code, descs := b.descs + 1#16, doneirq := b.doneirq || (x.irq && b.irqen) }
          let d := d.modBg n upd
          let d := if x.irq && b.irqen then d.bgIrq n 6 else d
          if code = 0x20 then d.halt n 0x20 b.prog.fault else d.modBg n BrgCh.boundary
        | (.wait, d) => d
        | (.bus, d) => d.busError n a
        | (.code c, d) => d.halt n c

/-- A doorbell (R324, R343): TAIL kept, a count above the ring size halting the channel; an Idle channel runs. -/
def Dev.doorbell (d : Dev) (n : Nat) (tail : BitVec 17) : Dev :=
  let b := d.bg n
  if decide (b.ringSize < (tail - b.head).toNat) && decide (b.st ≠ .disabled) then d.halt n 0x17
  else
    d.modBg n fun b =>
      let b := { b with tail }
      if b.st = .idle && decide (b.head ≠ b.tail) then { b with st := .running } else b

/-- Setting STOP (R343). -/
def Dev.bgStop (d : Dev) (n : Nat) : Dev :=
  d.modBg n fun b => if b.st = .disabled then b else if b.st = .halted then { b with stop := true } else b.stopNow

/-- Writing RUN (R343, R344): leaves Stopped or Halted. -/
def Dev.bgRun (d : Dev) (n : Nat) : Dev :=
  d.modBg n fun b => if b.st = .stopped || b.st = .halted then b.boundary else b

/-- A CFG write that sets ENABLE on a Disabled channel applies RINGLOG2 and IRQEN too (R404). ENABLE itself is ignored without HOSTOK on a host
channel (R346), on a channel whose staging buffer failed its self-test (Table 19.4), with a reserved RINGLOG2, and on the odd channel of a merged
pair or of a fused-off landing (R321). -/
def Dev.bgEnable (d : Dev) (n ringlog2 : Nat) (irqen : Bool) : Dev :=
  let b := d.bg n
  let hostOff := decide (b.owner = .host) && (!b.hostok || !d.on n || (decide (n % 2 = 1) && (d.ld (n - 1)).link.merged))
  if b.st ≠ .disabled then d
  else
    let on := !(b.bad || hostOff || decide (13 < ringlog2))
    d.modBg n fun b =>
      ({ b with enable := on, irqen, ringlog2 := if ringlog2 ≤ 13 then ringlog2 else b.ringlog2 } : BrgCh).boundary

/-- Clearing ENABLE (R345). -/
def Dev.bgDisable (d : Dev) (n : Nat) : Dev :=
  d.modBg n fun b => if b.st = .disabled then { b with enable := false } else b.disable

/-- A retry of a beat that met a bus error, p01B2 after it (R344): on success the operation goes on; when p01B0 retries have failed the descriptor
completes with 20h and the channel halts. -/
def Dev.busRetry (d : Dev) (n : Nat) (ok : Bool) : Dev :=
  let b := d.bg n
  match b.prog.err with
  | none => d
  | some a =>
    let good := ok && (match spaceOf a with
      | 1 => (match (d.intRead (d.bgAgent n) (addrIn a / 64 * 64) 64 .ok).1 with
          | some (_, false) => true
          | _ => false)
      | _ => true)
    if good && decide (b.prog.retry < d.p 0x1B0) then
      let upd := fun (b : BrgCh) =>
        { b with retries := satAdd 0xFFFF b.retries 1, prog := { b.prog with err := none, retry := b.prog.retry + 1 } }
      d.modBg n upd
    else if b.prog.retry + 1 < d.p 0x1B0 then
      d.modBg n fun b => { b with prog := { b.prog with retry := b.prog.retry + 1 } }
    else if b.cur.isSome && !b.prog.fin then
      let d := d.modBg n fun b => { b with prog := { b.prog with err := none, retry := min 15 (d.p 0x1B0) } }
      d.finish n 0x20 a
    else d.halt n 0x20 a

/-- Some channel of a higher level has a beat ready (R322). -/
def Dev.outranked (d : Dev) (n : Nat) : Bool :=
  (List.range 64).any fun k =>
    let b := d.bg k
    decide (d.bgPri n < d.bgPri k) && b.cur.isSome && !b.prog.fin && b.prog.err.isNone && (decide (b.st = .running) || decide (b.st = .preempted))

end Sys2Proof.Machine
end

