-- ==== Sys2Proof/Machine/BargeOps.lean ====
section
/-! DEFINITION. Byte and dictionary operations of the Barge: COPY, FILL, ZERO, DICT-UNPACK, DICT-PACK (R160 to R166, R328, R332, R333, R336, R337, R342, R351). -/
namespace Sys2Proof.Machine

/-- Lines a byte range touches, space code included. -/
def lineCount (a len : Nat) : Nat := (a + len - 1) / 64 + 1 - a / 64

/-- Destination of a byte operation (Table 11.5). -/
def Desc.target (x : Desc) : Nat := if x.op = 2 ∨ x.op = 3 then x.src else x.dst

/-- The copy works from the high end (R333). -/
def Desc.down (x : Desc) : Bool :=
  decide (x.op = 1) && decide (spaceOf x.src = spaceOf x.dst) && decide (x.src < x.dst) && decide (x.dst < x.src + x.len)

/-- A staged source line. -/
def BProg.staged (p : BProg) (k : Nat) : Option (Line × Bool) := (p.buf.find? fun b => decide (b.1 = k)).map (·.2)

/-- Read source lines into the staging buffer from line `k` on, up to 64 lines (R323): the first result that is not a line ends the piece. -/
def Dev.stage (d : Dev) (n : Nat) (x : Desc) (ph : Phys) : Nat → Nat → Option Got × Dev
  | 0, _ => (none, d)
  | fuel + 1, k =>
    let first := x.src / 64
    let last := (x.src + x.len - 1) / 64
    if k < first ∨ last < k ∨ 64 ≤ (d.bg n).prog.buf.length then (none, d)
    else
      match d.srcLine n (k * 64) ph with
      | (.ok l p, d) =>
        let d := d.modBg n fun b => { b with prog := { b.prog with buf := b.prog.buf ++ [(k, l, p)] } }
        if x.down then (if k = 0 then (none, d) else d.stage n x ph fuel (k - 1)) else d.stage n x ph fuel (k + 1)
      | (g, d) => (some g, d)

/-- Address after the last source line (Table 11.4, code 00h). -/
def Desc.endLine (x : Desc) : Nat := (x.src + x.len + 63) / 64 * 64

/-- End a byte operation that has written everything (R336, Table 11.4). -/
def Dev.byteDone (d : Dev) (n : Nat) (x : Desc) : Dev :=
  let p := (d.bg n).prog
  if p.code = 1 then d.finish n 1 p.fault else d.finish n 0 x.endLine

/-- What an access that is no line does to a byte operation (R328, R335, R344): true never. -/
def Dev.byteStop (d : Dev) (n a : Nat) : Got → Dev
  | .code c => d.finish n c a
  | .bus => d.busError n a
  | _ => d

/-- The first poisoned source line of a descriptor (R336). -/
def BProg.notePoison (p : BProg) (a : Nat) : BProg := if p.code = 0 then { p with code := 1, fault := a } else p

/-- Count a destination line as written. -/
def Dev.wrote (d : Dev) (n lines bytes : Nat) : Dev :=
  d.modBg n fun b => { b with prog := { b.prog with pos := b.prog.pos + lines, done := b.prog.done + bytes } }

/-- Sectors of a page some landing holds a line of. -/
def Dev.heldIn (d : Dev) (sl page : Nat) : List (Nat × FEnt) :=
  (List.range 16).filterMap fun i =>
    match d.fent sl (page * 16 + i) with
    | some (_, e) => if (e.linesIn 1 ++ e.linesIn 2).isEmpty then none else some (page * 16 + i, e)
    | none => none

/-- A page wholly inside a ZERO range becomes form Z (R337, R106, R109, R248): its holders are asked first, its Wharf lines discarded, its storage
freed, its Sealed quads given kind 00h, its QPOIS bits and Adrift lines cleared. -/
def Dev.zeroPage (d : Dev) (page cls : Nat) (ph : Phys) : Got × Dev :=
  let sl := d.homeOf page
  let s := d.ms sl
  let onPage := fun w : Work => decide (w.line / 64 = page)
  let inPage := fun (q : Nat) => decide (q / 16 = page)
  let busy := s.waitq.any onPage || s.misses.any (fun m => inPage m.quad && m.ws.any fun w => w.req.kind.writes) ||
    (s.filt.colls.any fun c => inPage c.sector) || s.filt.fwds.any fun f => inPage f.sector
  if busy then (.wait, d)
  else
    let held := d.heldIn sl page
    if !held.isEmpty then
      (.wait, held.foldl (fun d x =>
        let e : FEnt := x.2
        let lds := e.shs ++ (if e.owned && !e.sharers.getLsbD e.owner then [e.owner.val] else [])
        d.collect sl x.1 none .inv lds .drain) d)
    else
      match d.pmLookup sl page ph (some cls) with
      | ((none, _), d) => (.ok 0#512 false, d)
      | ((some e, _), d) =>
        if e.pin then (.code 0x10, d)
        else
          let lines := (d.ms sl).wharf.lines.filter fun x => decide (x.2.st ≠ .invalid) && decide (x.2.addr / 64 = page)
          let d := lines.foldl (fun d x => d.invalidate sl x.1) d
          let upd := fun s : Slice =>
            { s with held := s.held.filter fun h => !decide (h.page = page)
                     misses := s.misses.map fun m => if inPage m.quad then { m with doomed := true } else m
                     wharf := { s.wharf with qbuf := s.wharf.qbuf.filter fun b => !inPage b.quad } }
          let d := d.modMs sl upd
          let d := (List.range 16).foldl (fun d i => match d.fent sl (page * 16 + i) with
            | some (loc, e) => d.putFent sl loc ((e.linesIn 3).foldl (fun e j => e.setLs j 0) e)
            | none => d) d
          let e := d.ent page
          let d := if e.sld && d.hasArea sl (pageBlock page) then
              (List.range 16).foldl (fun d q => (d.sealUnit sl e (page * 16 + q) 0 [] ph (some cls)).2) d
            else d
          (.ok 0#512 false, (d.setEnt page ((d.ent page).toZ 0#16)).freeStorage e)

/-- The source bytes of a destination line from the staged lines, with whether one is poisoned, and its address. -/
def BProg.gathered (p : BProg) (s0 s1 : Nat) : Option (List Byte × Option Nat) :=
  match p.staged s0, p.staged s1 with
  | some a, some b =>
    let bad := if a.2 then some (s0 * 64) else if b.2 then some (s1 * 64) else none
    some (if s0 = s1 then bytesOf 64 a.1 else bytesOf 64 a.1 ++ bytesOf 64 b.1, bad)
  | _, _ => none

/-- The data of FILL and ZERO at byte address `a`, `n` bytes (R337). -/
def fillBytes (x : Desc) (a n : Nat) : List Byte :=
  (List.range n).map fun i => if x.op = 3 then BitVec.ofNat 8 (bits x.arg (8 * ((a + i) % 8)) 8) else 0#8

/-- One destination line, or one whole page of ZERO, of a COPY, FILL or ZERO: true when the operation can go on. -/
def Dev.byteLine (d : Dev) (n : Nat) (x : Desc) (ph : Phys) : Bool × Dev :=
  let p := (d.bg n).prog
  let t := x.target
  let total := lineCount t x.len
  if total ≤ p.pos then (false, d.byteDone n x)
  else
    let line := t / 64 + (if x.down then total - 1 - p.pos else p.pos)
    let a := line * 64
    let lo := max t a
    let hi := min (t + x.len) (a + 64)
    let after := fun (r : Got × Dev) (lines bytes : Nat) => match r with
      | (.ok _ _, d) => (true, d.wrote n lines bytes)
      | (g, d) => (false, d.byteStop n a g)
    if x.op = 2 ∧ spaceOf t = 0 ∧ a % 4096 = 0 ∧ t ≤ a ∧ a + 4096 ≤ t + x.len then
      if !d.ctxAllows (d.driver n) (a / 4096) true then (false, d.finish n 0x13 a)
      else after (d.zeroPage (a / 4096) (d.bgCls n) ph) 64 4096
    else if x.op = 1 then
      let s0 := (lo - t + x.src) / 64
      let s1 := (hi - 1 - t + x.src) / 64
      let next := if x.down then (if (p.staged s1).isSome then s0 else s1) else (if (p.staged s0).isSome then s1 else s0)
      let (g, d) := if (p.gathered s0 s1).isSome then (none, d) else d.stage n x ph 64 next
      match (d.bg n).prog.gathered s0 s1 with
      | none => (false, d.byteStop n (next * 64) (g.getD .wait))
      | some (bs, bad) =>
        let own := (bs.drop (lo - t + x.src - s0 * 64)).take (hi - lo)
        let data := ofBytes 512 (List.replicate (lo - a) 0#8 ++ own)
        let d := match bad with
          | some f => d.modBg n fun b => { b with prog := b.prog.notePoison f }
          | none => d
        match d.dstLine n a (lo - a) (hi - a) data bad.isSome ph with
        | (.ok _ _, d) =>
          let keep := fun (b : Nat × Line × Bool) => if x.down then decide (b.1 ≤ s0) else decide (s1 ≤ b.1)
          (true, (d.wrote n 1 (hi - lo)).modBg n fun b => { b with prog := { b.prog with buf := b.prog.buf.filter keep } })
        | (g, d) => (false, d.byteStop n a g)
    else
      after (d.dstLine n a (lo - a) (hi - a) (ofBytes 512 (List.replicate (lo - a) 0#8 ++ fillBytes x lo (hi - lo))) false ph) 1 (hi - lo)

/-- Channels that hold a dictionary engine, `n` apart (R160, R351). -/
def Dev.dictBusy (d : Dev) (n : Nat) : Nat :=
  ((List.range 64).filter fun k => decide (k ≠ n) &&
    (match (d.bg k).cur with
     | some x => decide (x.op = 0xA ∨ x.op = 0xB) && (d.bg k).prog.begun && !(d.bg k).prog.fin
     | none => false)).length

/-- Encode or decode the staged input of a dictionary operation (R161 to R166, R351). -/
def Dev.dictRun (d : Dev) (n : Nat) (x : Desc) (ph : Phys) : Dev :=
  let p := (d.bg n).prog
  let inp := ((p.buf.flatMap fun b => bytesOf 64 b.2.1).drop (x.src % 64)).take x.len
  let bad := (p.buf.find? fun b => b.2.2).map fun b => b.1 * 64
  let (out, e) := if x.op = 0xA then dictUnpack inp x.arg else dictPack inp x.dcrc x.arg
  let (c, inj, d) := d.check [0x6C3] (if ph.dict then .transient else .ok)
  let p := match bad with
    | some f => p.notePoison f
    | none => p
  if c = .ok then d.modBg n fun b => { b with prog := { p with out := some out, derr := e, pos := 0 } }
  else (d.report { src := 0x6C3, inj }).finish n 0x21 (x.dst / 64 * 64)

/-- One line of a dictionary operation: input lines first, then output lines. -/
def Dev.dictLine (d : Dev) (n : Nat) (x : Desc) (ph : Phys) : Bool × Dev :=
  let p := (d.bg n).prog
  match p.out with
  | none =>
    if lineCount x.src x.len ≤ p.pos then
      let d := d.dictRun n x ph
      (!(d.bg n).prog.fin, d)
    else
      let k := x.src / 64 + p.pos
      match d.srcLine n (k * 64) ph with
      | (.ok l b, d) =>
        (true, d.modBg n fun c => { c with prog := { c.prog with buf := c.prog.buf ++ [(k, l, b)], pos := c.prog.pos + 1 } })
      | (g, d) => (false, d.byteStop n (k * 64) g)
  | some out =>
    let total := if out.isEmpty then 0 else lineCount x.dst out.length
    if total ≤ p.pos then
      (false, if p.derr ≠ 0 then d.finish n 0x21 ((x.dst + out.length + 63) / 64 * 64) else d.byteDone n x)
    else
      let a := (x.dst / 64 + p.pos) * 64
      let lo := max x.dst a
      let hi := min (x.dst + out.length) (a + 64)
      let own := (out.drop (lo - x.dst)).take (hi - lo)
      match d.dstLine n a (lo - a) (hi - a) (ofBytes 512 (List.replicate (lo - a) 0#8 ++ own)) (decide (p.code = 1)) ph with
      | (.ok _ _, d) => (true, d.wrote n 1 (hi - lo))
      | (g, d) => (false, d.byteStop n a g)

/-- Lines of a byte or dictionary operation one after another, at most `fuel`. -/
def Dev.byteRun (d : Dev) (n : Nat) (x : Desc) (ph : Phys) : Nat → Dev
  | 0 => d
  | fuel + 1 =>
    let (go, d) := if x.op = 0xA ∨ x.op = 0xB then d.dictLine n x ph else d.byteLine n x ph
    if go then d.byteRun n x ph fuel else d

/-- A descriptor in progress gets on unless a higher level has a beat ready (R322, R342), a bus error is not settled, or it is complete:
`run` moves it. -/
def Dev.bgProgress (d : Dev) (n : Nat) (want : Desc → Bool) (run : Desc → Dev → Dev) : Dev :=
  let b := d.bg n
  match b.cur with
  | none => d
  | some x =>
    if !want x || b.prog.fin || b.prog.err.isSome then d
    else if d.outranked n then d.modBg n fun b => { b with st := .preempted }
    else run x (d.modBg n fun b => { b with st := .running })

/-- The staging buffer's parity (Table 15.5): a lasting error ends the descriptor with 20h. -/
def Dev.stageCheck (d : Dev) (n : Nat) (ph : Phys) (run : Dev → Dev) : Dev :=
  let (c, inj, d) := d.check [0x6C1, 0x6C2] ph.stg
  match c with
  | .ok => run d
  | .transient => run (d.report { src := 0x6C1, path := some (bgPath 0x54 n), inj })
  | .lasting => (d.report { src := 0x6C2, path := some (bgPath 0x54 n), inj }).finish n 0x20 ((d.bg n).cur.getD { op := 0 }).src

/-- COPY, FILL or ZERO: up to `lines` lines (R328, R332 to R337). -/
def Dev.byteOp (d : Dev) (n op lines : Nat) (ph : Phys) : Dev :=
  d.bgProgress n (fun x => decide (x.op = op)) fun x d =>
    (d.modBg n fun b => { b with prog := { b.prog with begun := true } }).stageCheck n ph fun d => d.byteRun n x ph lines

/-- DICT-UNPACK or DICT-PACK: up to `lines` lines (R351); it waits while both engines are taken. -/
def Dev.dictOp (d : Dev) (n op lines : Nat) (ph : Phys) : Dev :=
  d.bgProgress n (fun x => decide (x.op = op)) fun x d =>
    if !(d.bg n).prog.begun && decide (2 ≤ d.dictBusy n) then d.modBg n fun b => { b with st := .waiting }
    else (d.modBg n fun b => { b with prog := { b.prog with begun := true } }).stageCheck n ph fun d => d.byteRun n x ph lines

end Sys2Proof.Machine
end

