-- ==== Sys2Proof/Machine/PageOps.lean ====
section
/-! DEFINITION. Page operations of the Barge in the home slice: PACK, UNPACK, REPACK, MIGRATE, page retirement, REKEY, SCRUB (R132, R154, R267, R330, R338 to R341). -/
namespace Sys2Proof.Machine

/-- Outcome of a page operation on one page. -/
inductive POut where
  | code (c : Nat)
  | wait
  deriving DecidableEq, Repr

/-- Granules an entry holds. -/
def PEnt.held (e : PEnt) : Nat :=
  match e.form with
  | .z => 0
  | _ => e.gm1 + 1

/-- A page operation that finds no storage (R339). -/
def Dev.noRoom (d : Dev) (sl : Nat) : Nat := if (d.ch sl).tide = .ballast then 0x11 else 0x18

/-- The channel new storage of a page operation goes to (R124, R132, R339): a shrinking one is never refused for the BALLAST mark. -/
def Dev.room (d : Dev) (sl held : Nat) (need : Need) (fixed : Option Nat) : (POut ⊕ Nat) × Dev :=
  let bal := decide (need.granules < held)
  let c := match fixed with
    | some f => if d.placeable need bal f then some f else none
    | none => d.choose sl need bal
  match c with
  | none => (.inl (.code (d.noRoom sl)), d)
  | some c =>
    if held < need.granules && decide ((d.ch c).tide = .ballast) then (.inl (.code 0x11), d)
    else if held < need.granules && decide ((d.ch c).tide = .ebb) then
      if (d.ch c).tokens = 0 then (.inl .wait, d) else (.inr c, d.modCh c fun x => { x with tokens := x.tokens - 1 })
    else (.inr c, d)

/-- Outcome 00h, or 01h when a quad became poisoned during the operation (Table 11.6). -/
def Dev.pageEnd (d : Dev) (page : Nat) (pre : BitVec 16) : POut × Dev :=
  (.code (if (d.ent page).qpois &&& ~~~pre = 0#16 then 0 else 1), d)

/-- A page laid out anew: Z, a K layout of some codes, or P (R108, R154, R338): new storage, both entry copies, then the old storage freed. -/
def Dev.relayout (d : Dev) (sl page : Nat) (pre : BitVec 16) (form : Form) (codes : List Nat) (fixed : Option Nat)
    (data : List (Nat × Quad)) (ph : Phys) (cls : Option Nat) : POut × Dev :=
  let old := d.ent page
  let plain := fun q => match data.find? fun x => x.1 = q with
    | some x => x.2
    | none => 0#2048
  match form with
  | .z =>
    let d := if old.sld && d.hasArea sl (pageBlock page) then
        (List.range 16).foldl (fun d q => (d.sealUnit sl old (page * 16 + q) 0 [] ph cls).2) d
      else d
    ((d.setEnt page ((d.ent page).toZ (d.ent page).qpois)).freeStorage old).pageEnd page pre
  | _ =>
    let g := granulesFor codes
    let need := if form = .p then Need.berth else Need.gran g
    match d.needArea sl page old false with
    | none => (.code (d.noRoom sl), d)
    | some d =>
      match d.room sl old.held need fixed with
      | (.inl o, d) => (o, d)
      | (.inr c, d) =>
        let ((f, o), d) := d.take c need
        let d :=
          if form = .p then
            let d := d.layoutRaw sl page (old.moved .p c f 0 7) plain ph cls
            d.setEnt page ((d.ent page).moved .p c f 0 7)
          else
            let d := d.layout sl page (old.moved .k c f o (g - 1)) codes plain (List.range 16) ph cls
            d.setEnt page ((d.ent page).moved .k c f o (g - 1))
        (d.freeStorage old).pageEnd page pre

/-- Quads of a page with a byte in burst `b` of its storage, whose bytes are `bs` (R138, R291). -/
def PEnt.quadsIn (e : PEnt) (page b : Nat) (bs : List Byte) : List Nat :=
  match e.form with
  | .z => []
  | .p => [b / 4]
  | .k =>
    match Stow.parse bs page e.gm1 with
    | none => []
    | some h => (List.range 16).filter fun q =>
        decide (h.codes.getD q 0 ≠ 0) && decide (slotOff h.codes q < 64 * b + 64) && decide (64 * b < slotOff h.codes q + slotSize (h.codes.getD q 0))

/-- A page's stored bytes moved unchanged (R269, R341): a burst that cannot be read is written as stored poison, the quads in it poisoned (R293);
where it holds the stow header, the header is lost and no storage remains to move (Table 9.5, R141). -/
def Dev.movePage (d : Dev) (sl page : Nat) (pre : BitVec 16) (c : Nat) (ph : Phys) (cls : Option Nat) : POut × Dev :=
  let old := d.ent page
  let n := old.held * 512
  let (bs, d) := d.rd old.chan old.base n cls
  let off := burstOff old.base n ph.burst
  let b := (off - old.base) / 64
  let d := if 0 < ph.fixed then d.corrected old.chan off (page * 4096) false else d
  let (k, inj, d) := d.check [sliceSrc old.chan 0x02, sliceSrc old.chan 0x01] ph.ecc
  if k = .lasting ∧ old.form = .k ∧ b = 0 then (d.loseHeader sl page true inj).pageEnd page pre
  else
    let d := match k with
      | .ok => d
      | .transient => d.uet old.chan off (page * 4096) inj
      | .lasting => ((old.quadsIn page b bs).foldl (fun (d : Dev) q => d.loseQuad sl (page * 16 + q)) d).uel old.chan off page inj
    let ((f, o), d) := d.take c (if old.form = .p then .berth else .gran old.held)
    let d := d.wr c (f * 4096 + o * 512) bs cls
    ((d.setEnt page ((d.ent page).moved old.form c f o old.gm1)).freeStorage old).pageEnd page pre

/-- Plaintext of a page's quads as the home slice reads them, poisoned ones as zeros, and the needed codes of a tight layout (R154, R156). -/
def Dev.readPage (d : Dev) (sl page : Nat) (ph : Phys) (cls : Option Nat) : (List (Nat × Quad) × List Nat) × Dev :=
  let (data, d) := d.readOthers sl page [] ph cls
  let (raw, d) := d.cmpVerify sl page (data.any fun x => decide (x.2 ≠ 0#2048)) ph
  ((data, data.map fun x => if x.2 = 0#2048 then 0 else (d.ms sl).need raw x.2), d)

/-- One quad of a REKEY (R267): verified and decrypted under the old context, encrypted under the new one, its slot written in place. -/
def Dev.rekeyQuad (d : Dev) (sl page : Nat) (codes : List Nat) (new : PEnt) (ph : Phys) (cls : Option Nat) (q : Nat) : Dev :=
  let e := d.ent page
  let quad := page * 16 + q
  let code := match e.form with
    | .z => 0
    | .p => 8
    | .k => codes.getD q 0
  let off := match e.form with
    | .k => e.base + slotOff codes q
    | _ => e.frame * 4096 + q * 256
  let area := d.hasArea sl (pageBlock page)
  let leave := fun (d : Dev) => if e.sld && !new.sld && area then (d.sealUnit sl e quad 0 [] ph cls).2 else d
  if e.qpois.getLsbD q then leave d
  else if code = 0 then
    (match e.sld && decide (e.form = .k) with
     | true =>
       (match d.openUnit sl quad e 0 [] ph cls with
        | (none, d) => leave d
        | (some _, d) => if new.sld && area then (d.sealUnit sl new quad 0 [] ph cls).2 else leave d)
     | false => if new.sld && area then (d.sealUnit sl new quad 0 [] ph cls).2 else leave d)
  else
    match d.readUnit sl quad e.chan off (slotSize code) ph cls with
    | (none, d) => leave d
    | (some ct, d) =>
      match d.openUnit sl quad e code ct ph cls with
      | (none, d) => leave d
      | (some pt, d) => (leave d).storeUnit sl new quad code e.chan off pt ph cls

/-- A REKEY of one page (R240, R254, R267). -/
def Dev.rekeyPage (d : Dev) (sl page ctx : Nat) (pre : BitVec 16) (ph : Phys) (cls : Option Nat) : POut × Dev :=
  let blk := pageBlock page
  let sld := (tget {} d.ctx ctx).sld
  if sld && !decide (blk ∈ d.sealedBlocks) && decide (8192 ≤ d.sealedBlocks.length) then (.code 0x15, d)
  else
    let d := if sld then d.makeRoots blk (d.blockLd blk) (d.blockNear blk) else d
    match (if (d.ent page).form = .z then some d else d.needArea sl page { d.ent page with sld } false) with
    | none => (.code (d.noRoom sl), d)
    | some d =>
      let (codes, d) := match (d.ent page).form with
        | .k =>
          (match d.header sl page ph cls with
           | (some h, d) => (h.codes, d)
           | (none, d) => (List.replicate 16 0, d))
        | _ => (List.replicate 16 8, d)
      let d := (List.range 16).foldl (fun (d : Dev) q => d.rekeyQuad sl page codes { d.ent page with ctx, sld } ph cls q) d
      (d.setEnt page { d.ent page with ctx, sld }).pageEnd page pre

/-- MIGRATE of one page whose checks have passed (Table 11.5, R341). -/
def Dev.migratePage (d : Dev) (sl page : Nat) (x : Desc) (pre : BitVec 16) (ph : Phys) (cls : Option Nat) : POut × Dev :=
  let e := d.ent page
  let form := bits x.arg 5 2
  let chan := bits x.arg 0 4
  let fixed := if bits x.arg 4 1 = 1 then none else some chan
  let need := if e.form = .p then Need.berth else Need.gran e.held
  if x.retire then
    let c := if d.placeable need true chan then some chan else d.choose sl need true
    match c with
    | none => (.code 0x18, d)
    | some c => d.movePage sl page pre c ph cls
  else if (match fixed with | some f => !d.chOk f | none => false) then (.code 0x16, d)
  else
    let same := fun (d : Dev) => match d.room sl e.held need fixed with
      | (.inl o, d) => (o, d)
      | (.inr c, d) => d.movePage sl page pre c ph cls
    if form = 0 ∨ (form = 1 ∧ e.form = .p) then same d
    else
      let ((data, codes), d) := d.readPage sl page ph cls
      if form = 1 then d.relayout sl page pre .p codes fixed data ph cls
      else if codes.all (· = 0) then d.relayout sl page pre .k codes fixed data ph cls
      else if granulesFor codes ≤ 8 then d.relayout sl page pre .k codes fixed data ph cls
      else if e.form = .p then same d
      else d.relayout sl page pre .p codes fixed data ph cls

/-- Form a page operation does not act on (Table 11.5). -/
def skipsForm (op : Nat) (f : Form) : Bool :=
  match op, f with
  | 4, .p => false
  | 4, _ => true
  | 5, .k => false
  | 5, _ => true
  | 6, .z => true
  | 7, .z => true
  | _, _ => false

/-- One page of a page operation, as its home slice orders it (R338 to R341; the order of the checks is DEDUCED, log 20). -/
def Dev.pageDo (d : Dev) (n : Nat) (x : Desc) (page : Nat) (ph : Phys) : POut × Dev :=
  let w := d.driver n
  let sl := d.homeOf page
  let e := d.ent page
  let retire := x.retire && decide (x.op = 7)
  let s := d.ms sl
  let tally := if (d.entNow sl page).tepoch = s.epoch then (d.entNow sl page).tally.toNat else 0
  let noDec := s.dec0F && s.dec1F
  let ctx := bits x.arg 0 14
  let tight := decide (x.op = 4) || decide (x.op = 6)
  let decodes := decide (x.op = 5) || (decide (x.op = 7) && !retire && decide (bits x.arg 5 2 ≠ 0) && decide (e.form = .k))
  if !d.reaches w (pageBlock page) false then (.code 0x14, d)
  else if x.op = 8 ∧ (tget {} d.ctx ctx).st ≠ .enabled then (.code 0x13, d)
  else if e.pin && !retire && decide (x.op ∈ [4, 5, 6, 7]) then (.code 0x10, d)
  else if skipsForm x.op e.form then (.code 0x02, d)
  else if w = .ballast && !(d.chOk e.chan && decide ((d.ch e.chan).tide.rank ≤ 1)) then (.code 0x02, d)
  else if x.tcond && !retire && decide (x.op ∈ [4, 6, 7]) && decide (bits x.arg 32 8 < tally) then (.code 0x02, d)
  else if (tight && s.noCmp) || (decodes && noDec) then (.code 0x12, d)
  else if e.form ≠ .z ∧ !d.chOk e.chan then (.code 0x16, d)
  else
    let c := some (d.bgCls n)
    match d.pmLookup sl page ph c with
    | ((none, _), d) => (.code 0x14, d)
    | ((some _, _), d) =>
      let pre := e.qpois
      if skipsForm x.op (d.ent page).form then (.code 0x02, d)
      else if x.op = 8 then d.rekeyPage sl page ctx pre ph c
      else
        let lost := match (d.ent page).form with
          | .k => d.header sl page ph c
          | _ => (some { codes := [], gm1 := 0, page, restows := 0 }, d)
        match lost with
        | (none, d) => if x.op = 9 then d.pageEnd page pre else (.code 0x02, d)
        | (some _, d) =>
          match x.op with
          | 9 => (d.readOthers sl page [] ph c).2.pageEnd page pre
          | 7 => d.migratePage sl page x pre ph c
          | 5 =>
            let (data, d) := d.readOthers sl page [] ph c
            d.relayout sl page pre .p [] none data ph c
          | _ =>
            let ((data, codes), d) := d.readPage sl page ph c
            if codes.all (· = 0) then d.relayout sl page pre .z codes none data ph c
            else if granulesFor codes ≤ 8 then d.relayout sl page pre .k codes none data ph c
            else if x.op = 4 then (.code 0x02, d)
            else if (d.ent page).form = .p then d.pageEnd page pre
            else d.relayout sl page pre .p codes none data ph c

/-- A page operation has room at its home slice and on the device (R323). -/
def Dev.placeFree (d : Dev) (n sl : Nat) : Bool :=
  let held := (List.range 64).filterMap fun k => if k = n then none else (d.bg k).prog.place
  decide ((held.filter (· = sl)).length < 16) && decide (held.length < 256)

/-- Count the outcome of one page (R328, Tables 11.3 and 11.4). -/
def BProg.pageDone (p : BProg) (c : Nat) : BProg :=
  { p with
    pos := p.pos + 1
    place := none
    code := if p.code = 0 then c else p.code
    done := p.done + (if c ≤ 1 then 1 else 0)
    ppois := p.ppois + (if c = 1 then 1 else 0)
    pskip := p.pskip + (if c = 2 then 1 else 0)
    pref := p.pref + (if 0x10 ≤ c ∧ c ≤ 0x18 then 1 else 0) }

/-- Pages of a page operation one after another, at most `fuel` (R323, R328, R342). -/
def Dev.pageRun (d : Dev) (n : Nat) (x : Desc) (ph : Phys) : Nat → Dev
  | 0 => d
  | fuel + 1 =>
    let p := (d.bg n).prog
    if x.len ≤ p.pos then d.modBg n fun b => { b with prog := { b.prog with fin := true } }
    else
      let page := x.src / 4096 + p.pos
      let sl := d.homeOf page
      if !d.placeFree n sl then d.modBg n fun b => { b with st := .waiting }
      else
        match d.pageDo n x page ph with
        | (.wait, d) => d.modBg n fun b => { b with st := .waiting, prog := { b.prog with place := some sl } }
        | (.code c, d) =>
          let last := decide (c = 0x16) || decide (c = 0x17) || decide (c = 0x20)
          let d := d.modBg n fun b => { b with prog := b.prog.pageDone c }
          if last || decide (x.len ≤ p.pos + 1) then d.modBg n fun b => { b with prog := { b.prog with fin := true } }
          else d.pageRun n x ph fuel

/-- A page operation: up to `pages` pages. -/
def Dev.pageOp (d : Dev) (n : Nat) (want : Desc → Bool) (pages : Nat) (ph : Phys) : Dev :=
  d.bgProgress n want fun x d => (d.modBg n fun b => { b with prog := { b.prog with begun := true } }).pageRun n x ph pages

end Sys2Proof.Machine
end

