-- ==== Sys2Proof/Machine/Reset.lean ====
section
/-! DEFINITION. What each start keeps (Table 19.6), the preparation of Laid-up and of a warm reset (R234, R255, R486, R526), and wakes (R488 to R490). -/
namespace Sys2Proof.Machine

/-- One sector of a filter before Laid-up or a warm reset (R234): holders that are Up are back-invalidated, lines whose owner cannot answer become Adrift. -/
def Dev.drainSector (d : Dev) (fs : Nat) (e : FEnt) : Dev :=
  let home := entHome fs e
  if (d.ms home).filt.busy e.sector then d
  else
    let up := fun (n : Nat) => decide ((d.ld n).link.st = .up)
    let d :=
      if e.owned && !up e.owner.val then
        (match d.fent home e.sector with
         | some (loc, x) => d.makeAdrift home loc x (x.linesIn 2) x.owner.val
         | none => d)
      else d
    match d.fent home e.sector with
    | none => d
    | some (loc, x) =>
      let live := x.linesIn 1 ++ x.linesIn 2
      let lds := (x.shs ++ if x.owned then [x.owner.val] else []).eraseDups.filter up
      if live.isEmpty then d
      else if lds.isEmpty then d.putFent home loc { (x.linesIn 1).foldl (fun y j => y.setLs j 0) x with sharers := 0#16 }
      else d.collect home x.sector none .inv lds .drain

/-- Tracked sectors of every filter that still hold a line in S or A. -/
def Dev.tracked (d : Dev) : List (Nat × FEnt) :=
  d.slc.flatMap fun s => ((s.2.filt.ents.map (·.2)).filter fun e => e.valid && !(e.linesIn 1 ++ e.linesIn 2).isEmpty).map fun e => (s.1, e)

/-- The quads of every Adrift line are poisoned as the filter is about to be lost (R234). -/
def Dev.poisonAdrift (d : Dev) : Dev :=
  let all := d.slc.flatMap fun s => ((s.2.filt.ents.map (·.2)).filter fun e => e.valid && e.adrift) ++ s.2.filt.store
  all.foldl (fun d e => d.setQpois (d.homeOf (e.sector / 16)) (e.sector / 16) (BitVec.ofNat 16 (2 ^ (e.sector % 16)))) d

/-- Clean a slice's seal cache from L0 upward (R255, R257). -/
def Dev.cleanSeals (d : Dev) (sl : Nat) : Dev :=
  (List.range 7).foldl (fun d lvl =>
    ((d.ms sl).sl.cache.filter fun l => l.dirty && decide (l.lvl = lvl)).foldl (fun d l => d.cleanNode sl l.blk l.lvl l.idx none) d) d

/-- Save root stores and HW of every slice under an advanced save count (R255). -/
def Dev.saveRoots (d : Dev) : Dev :=
  let n := d.moor.saveCount + 1
  let sv : SealSave := { count := n, roots := d.slc.map fun s => (s.1, s.2.sl.roots), hws := d.slc.map fun s => (s.1, s.2.sl.hw) }
  { d with save := some sv, moor := { d.moor with saveCount := n } }

/-- The Wharf and the filters are emptied as far as they can be now (R486 steps 1 and 2, R526): true when the Wharf is empty and no sector is tracked. -/
def Dev.empty (d : Dev) : Bool × Dev :=
  let d := d.tracked.foldl (fun d x => d.drainSector x.1 x.2) d
  if !d.tracked.isEmpty || d.slc.any fun s => s.2.filt.colls.any fun c => decide (c.act = .drain) then (false, d)
  else
    let (id, d) := match d.mg.emptying with
      | some id => (id, d)
      | none =>
        let (id, d) := d.startRange .invalidate 0 (d.regionBlocks * 2 ^ 22 - 1) false {}
        (id, { d with mg := { d.mg with emptying := some id } })
    let d := d.units.foldl (fun d s => d.rangeDone s id) d
    if d.rangeActive id then (false, d)
    else if d.slc.any fun s => !(s.2.wharf.lines.all fun l => decide (l.2.st = .invalid)) || !s.2.wharf.qbuf.isEmpty || !s.2.held.isEmpty then
      (false, { d with mg := { d.mg with emptying := none } })
    else (true, d)

/-- The whole preparation (R486 steps 1 to 4, R526): true once the Wharf is empty, Adrift quads are poisoned, tallies are written back, seal
caches cleaned and the root stores saved. -/
def Dev.prepare (d : Dev) : Bool × Dev :=
  let (ok, d) := d.empty
  if ok then (true, (d.units.foldl (fun d s => (d.flushTallies s).cleanSeals s) d.poisonAdrift).saveRoots) else (false, d)

/-- A landing after its core island was reset or powered off (Tables 2.8, 19.6); fences stay over Laid-up. -/
def Landing.cold (l : Landing) (laid : Bool) : Landing :=
  { acc := { lbl := l.acc.lbl }
    viral := laid && l.viral
    pool := { mins := l.pool.mins, low := if laid && l.link.merged then 8192 else 4096 }
    link :=
      { st := if laid && (l.link.fenced || decide (l.link.st = .disabled)) then .disabled else if laid && decide (l.link.st = .absorbed) then .absorbed else .reset
        downcnt := l.link.downcnt, fenced := laid && l.link.fenced, perst := l.link.perst, lanes := if laid then l.link.lanes else 0#16
        merged := laid && l.link.merged, latOpt := l.link.latOpt, maxSpeed := l.link.maxSpeed } }

/-- A slice after its core island was reset or powered off (Table 19.6): counts since cold reset and disabled locations stay, fences stay over Laid-up. -/
def Slice.cold (s : Slice) (laid : Bool) (m : Nat) : Slice :=
  { wharf := { m, f := s.wharf.f, disabled := s.wharf.disabled, fenced := laid && s.wharf.fenced }
    filt := { moved := laid && s.filt.moved, hosting := laid && s.filt.hosting, noGrant := laid && s.filt.noGrant, evicts := s.filt.evicts }
    sl := { lost := s.sl.lost, macfail := s.sl.macfail }
    cappois := s.cappois
    tallyLoss := s.tallyLoss
    transients := s.transients
    restows := s.restows
    promotes := s.promotes
    decerr := s.decerr
    cmpF := laid && s.cmpF
    dec0F := laid && s.dec0F
    dec1F := laid && s.dec1F
    epoch := s.epoch }

/-- A channel in self-refresh, to be trained again (R303, Table 19.6). -/
def Chan.asleep (c : Chan) (laid : Bool) : Chan :=
  { pop := c.pop
    st := if laid && decide (c.st = .fenced) then .fenced else if c.st = .absent then .absent else .training
    fcause := if laid then c.fcause else 0#4
    spA := c.spA
    spB := c.spB
    ce := c.ce
    uet := c.uet
    uel := c.uel
    retired := c.retired
    retEvt := c.retEvt
    sppr := c.sppr
    hppr := c.hppr
    unrep := c.unrep
    noRepair := c.noRepair
    spprUsed := c.spprUsed
    retList := c.retList
    retQ := c.retQ
    wcrc := c.wcrc
    rfmEn := c.rfmEn
    selfRef := c.usable || c.selfRef }

/-- What a warm reset or Laid-up entry leaves of the device once every core island is reset or powered off (R526, R486, R487, Table 19.6). -/
def Dev.coreOff (d : Dev) (laid : Bool) : Dev :=
  let recs := d.qos.pend.foldl (fun t x => tput none t x.1 x.2) d.qos.recs
  { d with
    lnd := d.lnd.map fun x => (x.1, x.2.cold laid)
    slc := d.slc.map fun x => (x.1, x.2.cold laid (d.p 0x171))
    chn := d.chn.map fun x => (x.1, x.2.asleep laid)
    pm := { d.pm with latched := [] }
    ext := if laid then d.ext else { d.ext with staged := [] }
    lko := { src := (d.lko.src.map fun x => (x.1, ({ count := x.2.count } : Src))), next := d.lko.next, fatal := laid && d.lko.fatal
             links := if laid then d.lko.links else [] }
    fatalN := laid && d.fatalN
    pinLoss := 0
    qos := { d.qos with recs, pend := [], slots := [], deps := [] }
    ctr := []
    sel := []
    std := false
    active := false
    fmnBusy := true
    tlhBusy := true
    brg := []
    fmn := { restarts := d.fmn.restarts }
    tlh := { log := d.tlh.log, floors := d.tlh.floors, wrapped := d.tlh.wrapped, restarts := d.tlh.restarts, unlock := d.tlh.unlock
             nextTicket := d.tlh.nextTicket, nextSpdm := d.tlh.nextSpdm, fw := d.tlh.fw }
    plt := d.plt.map fun x => (x.1, ({ inst := x.2.inst, held := laid && x.2.held, faults := if laid then x.2.faults else [] } : Pilot))
    mg := { d.mg with paths := (d.mg.paths.map fun x => (x.1, ({ ans := x.2.ans } : CPath))).filter fun x => x.2 != {}, entry := none, emptying := none, warm := none, convTo := none }
    tele := { epoch := d.tele.epoch + 1, winlen := d.tele.winlen }
    rgn := []
    sram := []
    pwr := { st := if laid then .leaveLaidUp else .underway, code := d.pwr.code, inst := d.pwr.inst, reason := d.pwr.reason, abort := d.pwr.abort
             req := d.pwr.req, total := d.pwr.total, refcnt := d.pwr.refcnt, wake := d.pwr.wake, wakeLd := d.pwr.wakeLd, trip := d.pwr.trip }
    moor := { d.moor with linkUp := false } }

/-- Next record sequence number after a cold reset: it continues from the persistent log (Table 15.6). -/
def PLogs.nextSeq (l : PLogs) : Nat :=
  l.ents.foldl (fun n e => match e.frec with
    | some r => max n (r.seq + 1)
    | none => n) 1

/-- What a cold reset leaves (R511, R528, Table 19.6): flash, fuses and the Mooring island's own state; DRAM is abandoned, the nonce cleared. -/
def Dev.coldOff (d : Dev) : Dev :=
  let own := fun (x : Nat × Option Nat) => decide (0xC0 ≤ x.1) && decide (x.1 ≤ 0xFF)
  { codeH := d.codeH
    sealEn := d.sealEn
    sealSh := d.sealSh
    plog := d.plog
    flash := d.flash
    gwy := d.gwy
    moor := { d.moor with linkUp := false }
    boot := d.boot
    draws := d.draws
    pwr := { trip := d.pwr.trip }
    prm := d.prm.filter own
    lnd := (d.lnd.map fun x => (x.1, ({ link := { perst := x.2.link.perst } } : Landing)))
    lko := { next := d.plog.nextSeq }
    plt := d.plt.map fun x => (x.1, ({ inst := x.2.inst } : Pilot))
    mg := { store := d.mg.store, bankEvt := d.mg.bankEvt } }

/-- A start begins (R511): what the sequence of Table 19.2 has still to do, and its reset marker (R533). -/
def Dev.beginStart (d : Dev) (kind : Start) (phase : Phase) (cause arg : Nat) : Dev :=
  let cold := !decide (kind = .warm) && !decide (kind = .laidUp)
  { d with pwr := { d.pwr with trip := !cold && d.pwr.trip }, fatalN := false
           boot := { d.boot with phase, kind, t0 := d.time, pgFell := false, released := false, chDone := [], sramDone := false, laneDone := false
                                 arbDone := false, railFail := false, railLost := false, marks := d.boot.marks ++ [(cause, arg, d.time)] } }

/-- Every channel in use changes to a timing set (R289, R290): set B in Moored, set A otherwise. -/
def Dev.timingSet (d : Dev) (b : Bool) : Dev :=
  d.units.foldl (fun d c => if d.chOk c then d.modCh c fun x => { x with tset := b, speed := if b then x.spB else x.spA } else d) d

/-- The device leaves Moored (Table 17.3): set A, D_Q restored, landings in their own requested state. -/
def Dev.leaveMoored (d : Dev) : Dev := ({ d.timingSet false with pwr := { d.pwr with st := .underway } } : Dev).recompute

end Sys2Proof.Machine
end

