-- ==== Sys2Proof/Machine/Encode.lean ====
section
/-! DEFINITION. Registers, records and log entries as the bit and byte layouts the spec prints them in. -/
namespace Sys2Proof.Machine

/-- A number as `n` bytes, least significant first (R8). -/
def le (n v : Nat) : List Byte := bytesOf n (BitVec.ofNat (8 * n) v)

/-- A Bool as a bit. -/
def bit (b : Bool) : Nat := if b then 1 else 0

/-- `n` zero bytes. -/
def zeros (n : Nat) : List Byte := List.replicate n 0#8

/-- Sum of `v · 2^p` over fields (p, v): a register from its fields. -/
def word (fs : List (Nat × Nat)) : Nat := fs.foldl (fun s f => s + f.2 * 2 ^ f.1) 0

/-- STATE of Table 2.7. -/
def LinkSt.code : LinkSt → Nat
  | .disabled => 0
  | .reset => 1
  | .training => 2
  | .up => 3
  | .recovering => 4
  | .down => 5
  | .absorbed => 6

/-- IDE of Table 2.7. -/
def modeCode : IdeMode → Nat
  | .off => 0
  | .containment => 1
  | .skid => 2
  | .insecure => 3

/-- LND[nn].LNKSTAT (Table 2.7). -/
def Dev.lnkstat (d : Dev) (n : Nat) : Nat :=
  let k := (d.ld n).link
  let st := if d.on n then k.st.code else 0
  word [(0, k.speed.toNat), (3, k.width.toNat), (6, bit k.reversed), (7, k.flit.toNat), (9, st), (12, bit k.memen),
        (13, modeCode (d.ld n).ideMem.mode), (24, k.downcnt.toNat)]

/-- LND[nn].CRDPOOL (Table 2.4). -/
def Dev.crdpool (d : Dev) (n : Nat) : Nat :=
  let l := d.ld n
  word [(0, l.free), (14, l.pool.low), (29, bit l.pool.dropped)]

/-- One label entry (Table 3.2). -/
def Lbl.byte (l : Lbl) : Nat := l.sc.toNat + bit l.valid * 128

/-- LND[nn].LBLMAP0 to LBLMAP3, entry k in byte k (Table 3.2). -/
def Dev.lblmap (d : Dev) (n : Nat) : List Byte := (List.range 16).flatMap fun k => le 1 (tget ({} : Lbl) (d.ld n).acc.lbl k).byte

/-- LND[nn].QOSI (Table 10.8). -/
def Dev.qosi (d : Dev) (n : Nat) : Nat :=
  let s := d.sumG d.qos.cls .i n
  let c := d.ceiling d.qos.cls .i n
  word [(0, d.deliv .i n), (16, s), (27, bit (decide (d.deliv .i n < c + s)))]

/-- STATE of Table 3.3. -/
def ExtSt.code : ExtSt → Nat
  | .free => 0
  | .offered => 1
  | .granted => 2
  | .releasing => 3
  | .reclaiming => 4

/-- An extent record (Table 3.3), 32 B. -/
def ExtRec.enc (r : ExtRec) : List Byte :=
  le 8 (word [(0, r.base), (17, r.nblk1), (34, r.ld), (38, bit r.shared), (39, bit r.near), (40, bit r.rdonly), (41, r.st.code), (44, r.ctx)])
    ++ le 8 (word [(0, r.share), (16, r.seq.toNat)]) ++ bytesOf 16 r.tag

/-- STATE of Table 4.7. -/
def Tide.code : Tide → Nat
  | .high => 0
  | .low => 1
  | .ebb => 2
  | .ballast => 3

/-- The TIDE byte: STATE, RSV, HELD, FENCED (Tables 4.7 and 12.15); a channel that is fenced, empty or untrained has no tide state (R130). -/
def Dev.tideByte (d : Dev) (c : Nat) : Nat :=
  let x := d.ch c
  let on := d.chOk c && d.active
  word [(0, if on then x.tide.code else 0), (2, bit (on && decide (x.free < d.mark c 0x164))), (3, bit (!(d.ms c).held.isEmpty)), (4, bit (decide (x.st = .fenced)))]

/-- PGM[nn].TIDE (Table 4.7). -/
def Dev.tideReg (d : Dev) (c : Nat) : Nat :=
  word [(0, if (d.ch c).st = .fenced then 0 else (d.ch c).free), (32, d.tideByte c), (48, (d.ms c).cappois.toNat)]

/-- STW[nn].STAT (Table 5.11). -/
def Slice.stw (s : Slice) : Nat :=
  word [(0, bit s.cmpF), (1, bit s.dec0F), (2, bit s.dec1F), (8, s.restows.toNat), (32, s.promotes.toNat), (56, s.decerr.toNat)]

/-- WHF[nn].WAYS (Table 6.7). -/
def Wharf.waysReg (w : Wharf) : Nat := word [(0, w.m), (4, w.f), (7, w.nWays), (12, w.pinMax)]

/-- WHF[nn].STAT (Table 6.8). -/
def Wharf.statReg (w : Wharf) : Nat :=
  let live := w.lines.filter fun x => decide (x.2.st ≠ .invalid)
  word [(0, bit w.fenced), (1, bit w.conv), (2, w.disabled.length), (16, (live.filter fun x => x.2.pin).length),
        (37, (live.filter fun x => decide (x.2.st ≠ .clean)).length)]

/-- Adrift lines of some entries. -/
def adriftIn (es : List FEnt) : Nat := es.foldl (fun s e => s + (e.linesIn 3).length) 0

/-- WHF[nn].SFSTAT (Table 7.5). -/
def Filter.sfstat (f : Filter) : Nat :=
  let es := (f.ents.map (·.2)).filter (·.valid)
  word [(0, es.length), (20, adriftIn es), (42, bit f.moved), (43, bit f.hosting), (48, f.evicts.toNat)]

/-- Adrift lines device-wide, those of the hold stores included. -/
def Dev.adriftAll (d : Dev) : Nat := d.slc.foldl (fun s x => s + adriftIn ((x.2.filt.ents.map (·.2)).filter (·.valid)) + adriftIn x.2.filt.store) 0

/-- CRY[nn].SEAL (Table 8.11). -/
def SealSt.reg (s : SealSt) : Nat :=
  word [(0, (s.roots.filter fun r => r.2.st == 1#2 || r.2.st == 2#2).length), (16, s.lost.toNat), (32, s.macfail.toNat), (48, s.spare)]

/-- STATE of Table 8.1. -/
def CtxSt.code : CtxSt → Nat
  | .disabled => 0
  | .awaiting => 1
  | .enabled => 2

/-- KEYLD of a context: its working keys lie in the key table of every enabled slice (Table 8.1). -/
def Dev.keyLd (d : Dev) (c : Nat) : Bool := d.units.all fun n => (tget none (d.ms n).sl.keys c).isSome

/-- A context record (Table 8.1), 16 B. -/
def Dev.ctxEnc (d : Dev) (c : Nat) : List Byte :=
  let r : CtxRec := tget {} d.ctx c
  le 8 (word [(0, r.st.code), (2, bit r.sld), (3, bit r.nodma), (4, bit r.imported), (5, bit (d.keyLd c)), (8, r.gen.toNat), (16, r.mask.toNat),
              (32, d.ctxBlocks c)]) ++ le 8 (d.ctxPages c)

/-- STATE of Table 9.7. -/
def ChSt.code : ChSt → Nat
  | .absent => 0
  | .training => 1
  | .active => 2
  | .paused => 3
  | .switching => 4
  | .maintenance => 5
  | .fenced => 6
  | .disabled => 7

/-- DRC[nn].STAT (Table 9.7). -/
def Dev.drcStat (d : Dev) (c : Nat) : Nat :=
  let x := d.ch c
  word [(0, if d.on c then x.st.code else 7), (3, bit x.tset), (4, x.speed / 100), (12, x.pop.dpc), (14, bit (decide (x.pop.type = .mrdimm))),
        (15, bit x.pop.x4), (16, x.fcause.toNat), (20, bit x.drain), (24, x.temp)]

/-- DRC[nn].ERR (Table 9.8). -/
def Chan.errReg (x : Chan) : Nat := word [(0, x.ce), (24, x.uet), (36, x.uel), (48, x.retired)]

/-- DRC[nn].REPAIR (Table 9.9). -/
def Chan.repairReg (x : Chan) : Nat := word [(0, x.sppr), (8, x.hppr), (16, min 255 x.queue.length), (24, x.unrep)]

/-- Granules of a channel's berth pool. -/
def Dev.poolGran (d : Dev) (c : Nat) : Nat := if d.chOk c then d.frames c * 8 else 0

/-- A class record (Table 10.2), 16 B. -/
def ClassRec.enc (r : ClassRec) : List Byte :=
  le 8 (word [(0, r.gw), (16, r.xw), (32, r.gq), (48, r.xq)]) ++ le 8 (word [(0, r.gi), (16, r.xi)])

/-- A resource's guarantees are scaled (R318, Table 10.7). -/
def Dev.scaled (d : Dev) (r : Res) : Bool := decide (d.deliv r 0 < d.ceiling d.qos.cls r 0 + d.sumG d.qos.cls r 0)

/-- QOS[cc].EFF (Table 10.7). -/
def Dev.effReg (d : Dev) (c : Nat) : Nat :=
  word [(0, d.ge .w 0 c), (11, d.ge .q 0 c), (22, bit (d.scaled .w)), (23, bit (d.scaled .q))]

/-- Landings whose VALID label entries name a class (Table 12.15). -/
def Dev.landMask (d : Dev) (c : Nat) : Nat := d.units.foldl (fun s n => if c ∈ (d.ld n).classes then s + 2 ^ n else s) 0

/-- A class item of the Manifest (Table 12.15), 32 B. -/
def Dev.classItem (d : Dev) (c : Nat) : List Byte := (d.qos.cls c).enc ++ le 4 (d.effReg c) ++ le 2 (d.landMask c) ++ zeros 10

/-- A context item of the Manifest (Table 12.15), 32 B. -/
def Dev.ctxItem (d : Dev) (c : Nat) : List Byte := d.ctxEnc c ++ le 2 c ++ zeros 14

/-- STATE of Table 11.11. -/
def BSt.code : BSt → Nat
  | .disabled => 0
  | .idle => 1
  | .running => 2
  | .preempted => 3
  | .waiting => 4
  | .stopped => 5
  | .halted => 6

/-- OWNER of Table 11.8. -/
def BOwner.code : BOwner → Nat
  | .syust => 0
  | .pilot => 1
  | .host => 2
  | .ballast => 3

/-- A location path (Table 15.7). -/
def Path.enc (p : Path) : Nat :=
  word [(2, p.die), (3, p.quad), (6, p.slice), (12, p.unit), (20, p.array), (32, p.bit), (48, p.depth)]

/-- Class codes of Table 15.6. -/
def FCls.n : FCls → Nat
  | .corrected => 1
  | .deferred => 2
  | .contained => 3
  | .fatal => 4

/-- A fault record (Table 15.6), 64 B; `over` is the overflow count, shown in the newest record alone. -/
def FRec.enc (r : FRec) (ovr : Nat) : List Byte :=
  let flags := word [(0, bit r.esc), (1, bit r.wire), (2, bit r.inj), (3, bit r.ack), (4, bit r.echoed), (5, bit r.fenced), (6, bit r.viral), (7, bit r.dnc)]
  let body := le 4 r.seq ++ le 2 r.src ++ le 1 (r.arr.n + r.fin.n * 8) ++ le 1 flags ++ le 8 r.time ++ le 8 r.path.enc
    ++ le 8 ((r.path2.map Path.enc).getD 0) ++ le 4 r.echo ++ le 4 ovr ++ le 8 r.det0 ++ le 8 r.det1 ++ le 4 (r.cause.getD 0xFFFFFFFF)
  body ++ le 4 (crc32c body)

/-- A persistent-log entry (Table 15.13). -/
def PLog.enc (e : PLog) : List Byte :=
  let body := match e.kind with
    | 1 => (e.frec.map fun r => r.enc (e.args.getD 0 0)).getD []
    | 4 => (e.frec.map fun r => r.enc (e.args.getD 0 0)).getD []
    | 2 => le 1 (e.args.getD 0 0) ++ zeros 7 ++ le 8 (e.args.getD 1 0) ++ le 8 (e.args.getD 2 0)
    | 3 => le 8 (e.args.getD 0 0) ++ le 8 (e.args.getD 1 0)
    | _ => le 1 (e.args.getD 0 0) ++ le 1 (e.args.getD 1 0) ++ zeros 6 ++ le 8 (e.args.getD 2 0)
  le 4 e.lseq ++ le 1 e.kind ++ le 1 (1 + body.length / 8) ++ zeros 2 ++ body

/-- PGM.TEPOCH: E, and SWEEP (R127, R129). -/
def Dev.tepochReg (d : Dev) : Nat := d.pm.epoch.toNat + bit d.pm.sweep * 16

end Sys2Proof.Machine
end

