-- ==== Sys2Proof/Machine/Gangway.lean ====
section
/-! DEFINITION. The Gangway: states, breaker, FET model, retries, power-good, board fuses; retention records of the Mooring island
(R395, R464, R494 to R510). -/
namespace Sys2Proof.Machine

/-- Codes of Table 18.1. -/
def GSt.code : GSt → Nat
  | .standby => 0
  | .ramping => 1
  | .qualifying => 2
  | .on => 3
  | .limiting => 4
  | .cooling => 5
  | .latched => 6
  | .shorted => 7
  | .inputFault => 8

/-- The gate is commanded on (Table 18.1). -/
def GSt.gate : GSt → Bool
  | .ramping => true
  | .qualifying => true
  | .on => true
  | .limiting => true
  | _ => false

/-- Change the Gangway. -/
def Dev.modG (d : Dev) (f : Gwy → Gwy) : Dev := { d with gwy := f d.gwy }

/-- A parameter value of format S (R388). -/
def sInt (v : Nat) : Int := (BitVec.ofNat 64 v).toInt

/-- The reference of the FET model, tref (R501). -/
def Dev.tref (d : Dev) : Int :=
  let s := tget (0, false) d.tele.sens 21
  if s.2 then max (sInt (d.p 0xDA)) s.1 else sInt (d.p 0xDA)

/-- TFET k: tj[k], or 0 for a FET at or above p00C4 (R502). -/
def Dev.fetTemp (d : Dev) (k : Nat) : Rat := if d.gwy.n ≤ k then 0 else (tget none d.gwy.tj k).getD (d.tref : Rat)

/-- A retention fault record of the Mooring island: of more than 16 the newest is replaced and its ECHO incremented (R464). -/
def Dev.retain (d : Dev) (src array : Nat) : Dev :=
  let r : Reten := { src, time := d.time, array }
  let l := d.moor.ret
  let out := if l.length < 16 then l ++ [r] else l.dropLast ++ [{ r with echo := (l.getLast?.map (·.echo)).getD 0 + 1 }]
  { d with moor := { d.moor with ret := out } }

/-- PG falls: every rail behind it is lost, the nonce is cleared and the next start is cold (R507, R511). -/
def Dev.pgDrop (d : Dev) : Dev :=
  let d := d.modG fun g => { g with pg := false }
  if d.boot.phase = .aux then { d with boot := { d.boot with pgFell := true, railFail := false } }
  else
    let d := d.coldOff
    { d with boot := { d.boot with phase := .aux, pgFell := true } }

/-- The gate turns off: a PG that was asserted falls. -/
def Dev.gateOff (d : Dev) (st : GSt) : Dev :=
  let was := d.gwy.pg
  let d := d.modG fun g => { g with st, atLimit := false, brk := 0 }
  if was then d.pgDrop else d

/-- A trip (R504, R508): retention record, gate off, FLT_N, LASTFAULT, then Cooling or Latched by p00C7. -/
def Dev.trip (d : Dev) (code src array : Nat) : Dev :=
  let st := if d.p 0xC7 = 1 ∧ 0 < d.gwy.retries then GSt.cooling else .latched
  let d := (d.retain src array).gateOff st
  d.modG fun g => { g with flt := true, lastfault := code, interval := false }

/-- Every junction estimate is at or below p00C6 (R504). -/
def Dev.fetsCool (d : Dev) : Bool := (List.range d.gwy.n).all fun k => decide (d.fetTemp k ≤ (sInt (d.p 0xC6) : Rat))

/-- Standby leaves for Ramping once presence, VIN, the retry interval and the thermal model allow; p00C4 takes effect (R504 to R506). -/
def Dev.tryRamp (d : Dev) : Dev :=
  let g := d.gwy
  if g.st = .standby && g.present && g.vinOk && g.interval && d.fetsCool then d.modG fun g => { g with st := .ramping, n := d.p 0xC4 } else d

/-- Presence has been asserted for 20 ms, with VIN as measured (R505). -/
def Dev.presenceOn (d : Dev) (vin : Nat) : Dev :=
  if d.boot.phase = .off then d
  else (d.modG fun g => { g with present := true, vin, vinOk := g.vinOk || (decide (10200 < vin) && decide (vin < 14000)) }).tryRamp

/-- A board pull (R505). -/
def Dev.boardPull (d : Dev) : Dev :=
  if d.boot.phase = .off then d
  else
    let d := d.modG fun g => { g with present := false, retries := d.p 0xC8 }
    if d.gwy.st = .shorted then d
    else (d.gateOff .standby).modG fun g => { g with flt := false, lastfault := 7 }

/-- VIN leaves its range, in mV (R497). -/
def Dev.vinFault (d : Dev) (vin : Nat) : Dev :=
  if d.boot.phase = .off ∨ (9600 ≤ vin ∧ vin ≤ 14500) then d
  else
    let d := d.modG fun g => { g with vin, vinOk := false }
    if d.gwy.st = .shorted then d
    else (d.gateOff .inputFault).modG fun g => { g with lastfault := if vin < 9600 then 5 else 6 }

/-- VIN has been within range for 20 ms (R497, Table 18.1). -/
def Dev.vinBack (d : Dev) (vin : Nat) : Dev :=
  if d.boot.phase = .off ∨ vin ≤ 10200 ∨ 14000 ≤ vin then d
  else (d.modG fun g => { g with vin, vinOk := true, st := if g.st = .inputFault then .standby else g.st }).tryRamp

/-- VOUT reaches VIN − 0.5 V in Ramping (R498). -/
def Dev.rampDone (d : Dev) (vin vout : Nat) : Dev :=
  if d.gwy.st = .ramping ∧ vin ≤ vout + 500 then d.modG fun g => { g with st := .qualifying, vin, vout } else d

/-- The current reaches the limit, in mA (R499). -/
def Dev.limitOn (d : Dev) (i : Nat) : Dev :=
  if d.gwy.st.gate && decide (d.p 0xC1 ≤ i) then d.modG fun g => { g with st := .limiting, atLimit := true, iin := d.p 0xC1 } else d

/-- The current falls below the limit after some time at it, in ns; `clear`: it then stayed below 95 % for 1 ms (R499). -/
def Dev.limitOff (d : Dev) (held : Nat) (clear : Bool) : Dev :=
  let d := d.modG fun g =>
    if g.st = .limiting then { g with st := if g.pg then .on else .qualifying, atLimit := false, brk := g.brk + held } else g
  if clear then d.modG fun g => { g with brk := 0 } else d

/-- The breaker timer after more time at the limit, in ns: reaching p00C2 it trips (R499). -/
def Dev.breaker (d : Dev) (held : Nat) : Dev :=
  if d.gwy.st ≠ .limiting then d
  else
    let d := d.modG fun g => { g with brk := g.brk + held }
    if d.p 0xC2 ≤ d.gwy.brk then d.trip 1 0x780 0 else d

/-- The current exceeds p00C3 / 10 × p00C1 for 200 ns (R500). -/
def Dev.fastTrip (d : Dev) (i : Nat) : Dev := if d.gwy.st.gate && decide (d.p 0xC3 * d.p 0xC1 < 10 * i) then d.trip 2 0x781 0 else d

/-- One pole of the model over 1 µs (R501): rth in 0.001 °C/W, tau in ns, temperatures in 0.1 °C. -/
def poleStep (th p : Rat) (rth tau : Nat) : Rat := th + (p * (rth : Rat) / 100 - th) * 1000 / (tau : Rat)

/-- The FET model over 1 µs from VIN, VOUT in mV, the current in mA and the diode in 0.1 °C (R501), and the thermal trip (R502). -/
def Dev.fetModel (d : Dev) (vin vout i : Nat) (diode : Int) : Dev :=
  if d.boot.phase = .off then d
  else
    let n := d.gwy.n
    let vds : Rat := (vin : Rat) - (vout : Rat) - (i : Rat) * (d.p 0xC0 : Rat) / 1000000
    let w := (List.range n).foldl (fun s k => s + d.p (0xD6 + k)) 0
    let th := (List.range n).foldl (fun t k =>
      let p : Rat := vds * (i : Rat) / 1000000 * (d.p (0xD6 + k) : Rat) / (w : Rat)
      [0, 1, 2].foldl (fun t j => tmod (0 : Rat) t (3 * k + j) fun x => poleStep x p (d.p (0xD0 + j)) (d.p (0xD3 + j))) t) d.gwy.th
    let tj := (List.range n).foldl (fun t k =>
      let x : Rat := (d.tref : Rat) + tget 0 th (3 * k) + tget 0 th (3 * k + 1) + tget 0 th (3 * k + 2)
      let x := if k = 0 ∧ d.p 0xDB = 1 then max x ((diode + sInt (d.p 0xDC) : Int) : Rat) else x
      tput none t k (some x)) d.gwy.tj
    let d := d.modG fun g => { g with th, tj, vin, vout, iin := i }
    match (List.range n).find? fun k => decide ((sInt (d.p 0xC5) : Rat) ≤ d.fetTemp k) with
    | some k => if d.gwy.st.gate then d.trip 3 0x782 k else d
    | none => d

/-- VOUT has stayed above 1.0 V for 5 ms with the gate off, in mV (R503). -/
def Dev.fetShort (d : Dev) (vout : Nat) : Dev :=
  let g := d.gwy
  if d.boot.phase = .off ∨ g.st.gate ∨ g.st = .shorted ∨ vout ≤ 1000 then d
  else (d.retain 0x783 0).modG fun g => { g with st := .shorted, flt := true, disc := true, lastfault := 4, vout }

/-- The retry interval is over (R504): a retry from Cooling, or the ramp that Standby waited with. -/
def Dev.retryStart (d : Dev) : Dev :=
  let d := d.modG fun g => { g with interval := true }
  if d.gwy.st = .cooling then
    (if d.fetsCool then d.modG fun g => { g with st := .ramping, retries := g.retries - 1, flt := false } else d)
  else d.tryRamp

/-- PG has stayed asserted for 60 s (R504). -/
def Dev.retryReload (d : Dev) : Dev := if d.gwy.pg then d.modG fun g => { g with retries := d.p 0xC8 } else d

/-- The qualification window completes with no fault timer running, VIN in mV (R507). -/
def Dev.pgAssert (d : Dev) (vin : Nat) : Dev :=
  if d.gwy.st = .qualifying ∧ !d.gwy.atLimit then d.modG fun g => { g with st := .on, pg := true, pgTh := vin * 9 / 10, vin } else d

/-- VOUT drops below the PG-fall threshold, in mV (R507, Table 18.3). -/
def Dev.pgFall (d : Dev) (vout : Nat) : Dev :=
  if d.gwy.pg && decide (vout < d.gwy.pgTh) then (d.modG fun g => { g with lastfault := 8, vout }).pgDrop else d

/-- The value a board fuse field gives a Gangway parameter, none when it is unprogrammed (Table 18.5). -/
def boardFuse (b : Nat) (id : Nat) : Option Nat :=
  let f := fun lo len unit => if bits b lo len = 0 then none else some (bits b lo len * unit)
  match id with
  | 0xC0 => f 0 11 1
  | 0xC1 => f 11 10 100
  | 0xC2 => f 21 9 100000
  | 0xC3 => f 30 5 1
  | 0xC4 => f 35 3 1
  | 0xC5 => f 38 11 1
  | 0xC6 => f 49 10 1
  | 0xC7 => if bits b 59 2 = 1 then some 0 else if bits b 59 2 = 2 then some 1 else none
  | 0xC8 => f 61 8 1
  | 0xC9 => f 69 10 100000000
  | 0xD0 => f 80 16 1
  | 0xD1 => f 96 16 1
  | 0xD2 => f 112 16 1
  | 0xD3 => f 128 16 50000
  | 0xD4 => f 144 16 50000
  | 0xD5 => f 160 16 50000
  | 0xD6 => f 176 16 1
  | 0xD7 => f 192 16 1
  | 0xD8 => f 208 16 1
  | 0xD9 => f 224 16 1
  | 0xDA => f 240 16 1
  | 0xDB => if bits b 256 2 = 1 then some 0 else if bits b 256 2 = 2 then some 1 else none
  | 0xDC => if bits b 264 16 = 0 then none else some (BitVec.ofInt 64 (BitVec.ofNat 16 (bits b 264 16)).toInt).toNat
  | _ => none

/-- The Gangway parameters at power-on (R395). -/
def boardParams (b : Nat) : Tbl (Option Nat) :=
  (List.range 64).foldl (fun t i => tput none t (0xC0 + i) (boardFuse b (0xC0 + i))) []

/-- 3.3 V auxiliary power reaches its threshold (Table 19.2): Mooring power-on reset, Gangway parameters from the board fuses, retention
registers cleared. The balls of the reference clocks keep what they carry. -/
def Dev.auxOn (d : Dev) (board : Nat) : Dev :=
  if d.boot.phase ≠ .off then d
  else
    let e := d.coldOff
    let e := { e with prm := boardParams board, pwr := {}, gwy := {}, moor := { clk := d.moor.clk }, boot := { marks := d.boot.marks ++ [(1, 0, 0)] } }
    e.modG fun g => { g with retries := e.p 0xC8 }

/-- 3.3 V auxiliary power is lost: the device is Off (R480, R497). -/
def Dev.auxOff (d : Dev) : Dev :=
  if d.boot.phase = .off then d
  else
    let e := d.coldOff
    { e with prm := [], pwr := {}, gwy := {}, moor := { clk := d.moor.clk }, boot := { phase := .off, marks := d.boot.marks } }

end Sys2Proof.Machine
end

