-- ==== Sys2Proof/Machine/Mail.lean ====
section
/-! DEFINITION. Accepting a command: paths, roles, the order of the checks, answers, detail records, background commands, refused and aborted power
entries, wakes (R353 to R364, R383, R485, R488 to R491). -/
namespace Sys2Proof.Machine

/-- Path number: 0 to 15 primary, 16 to 31 secondary, 32 I3C, 33 to 48 VDM, 49 to 56 Pilot slots. -/
def pathNo : CmdPath → Nat
  | .primary n => n.val
  | .secondary n => 16 + n.val
  | .i3c => 32
  | .vdm n => 33 + n.val
  | .pilot s => 49 + s.val

/-- Roles (Table 12.1). -/
inductive Role where
  | owner | tenant (ld : Nat) | operator
  deriving DecidableEq, Repr

/-- Role of a path (R353, R354). -/
def Dev.role (d : Dev) (pn : Nat) : Role :=
  if pn < 16 then .tenant pn
  else if pn < 32 then (if d.mg.pold = pn - 16 then .owner else .tenant (pn - 16))
  else if pn < 49 then .owner
  else .operator

/-- Landing a path runs over. -/
def pathLd (pn : Nat) : Option Nat :=
  if pn < 16 then some pn else if pn < 32 then some (pn - 16) else if pn = 32 then none else if pn < 49 then some (pn - 33) else none

/-- A command can reach the device on the path: its landing's link is in use and is no absorbed half of a merged pair (R48, R353). -/
def Dev.pathLive (d : Dev) (pn : Nat) : Bool :=
  match pathLd pn with
  | some n => d.on n && (decide ((d.ld n).link.st = .up) || decide ((d.ld n).link.st = .recovering))
  | none =>
    if pn = 32 then d.moor.i3c.isSome && decide (d.boot.phase ∈ [.trust, .starting, .active])
    else (tget ({} : Pilot) d.plt (pn - 49)).run.isSome

/-- State of path `pn`. -/
def Dev.path (d : Dev) (pn : Nat) : CPath := tget {} d.mg.paths pn

/-- Change path `pn`. -/
def Dev.modPath (d : Dev) (pn : Nat) (f : CPath → CPath) : Dev := { d with mg := { d.mg with paths := tmod {} d.mg.paths pn f } }

/-- Response limit of a path in bytes (Table 12.1, R383; log 12). -/
def Dev.limitOf (d : Dev) (pn : Nat) : Nat := (d.path pn).limit.getD (if 32 ≤ pn ∧ pn ≤ 48 then 256 else 65536)

/-- Success. -/
def Ans.good (out : List Byte := []) (vals : List Nat := []) : Ans := { rc := .success, out, vals }

/-- A failed command with its detail record (Table 12.3). -/
def Ans.bad (rc : RC) (dcode : Nat := 0) (cur need obj arg : Nat := 0) : Ans :=
  { rc, dcode, out := if dcode = 0 then [] else le 2 dcode ++ le 1 cur ++ le 1 need ++ le 4 obj ++ le 8 arg }

/-- Invalid Input with DCODE 0000h. -/
def Ans.invalid : Ans := .bad .invalidInput

/-- What the command set says of one command (Tables 12.5 and 12.7). -/
structure CSpec where
  opcode : Nat
  /-- roles that may issue it: Pool owner, Tenant host, Operator -/
  p : Bool := false
  t : Bool := false
  o : Bool := false
  /-- CCI only -/
  cci : Bool := false
  /-- length of the input payload, none when it varies -/
  len : Option Nat := none
  /-- needs Active -/
  active : Bool := false
  /-- a success is a side effect that STATESEQ counts -/
  effect : Bool := false
  deriving DecidableEq, Repr

/-- The role may issue the command on the path (R358 check 2). -/
def CSpec.permits (c : CSpec) (r : Role) (pn : Nat) : Bool :=
  (match r with
   | .owner => c.p
   | .tenant _ => c.t
   | .operator => c.o) && (!c.cci || (decide (32 ≤ pn) && decide (pn ≤ 48)))

/-- Device state code (R360). -/
def Dev.stateCode (d : Dev) : Nat :=
  if d.mg.warm.isSome then 4
  else if !d.active then 0
  else match d.pwr.st with
    | .enterLaidUp => 3
    | .moored => 2
    | _ => 1

/-- Rhaboind commands return the detail record, standard ones the DCODE alone (R359). -/
def CSpec.trim (c : CSpec) (a : Ans) : Ans := if c.opcode < 0xC000 ∧ a.dcode ≠ 0 then { a with out := [] } else a

/-- Give a path the answer to its command (R359, Table 13.7). -/
def Dev.answerPath (d : Dev) (pn : Nat) (a : Ans) : Dev :=
  let d := d.modPath pn fun x => { x with ans := a }
  if pn < 32 then (match pathLd pn with
    | some n => d.modLd n (·.msi 0)
    | none => d) else d

/-- Count a refusal or an abort against its refuser (R491, Tables 17.9 and 17.10). -/
def Dev.refuse (d : Dev) (code inst reason req : Nat) (abort : Bool) : Dev :=
  let cnt := tmod 0 d.pwr.refcnt code fun n => satAdd (2 ^ 32 - 1) n 1
  { d with pwr := { d.pwr with code, inst, reason, abort, req, total := (d.pwr.total + 1) % 2 ^ 32, refcnt := cnt } }

/-- The answer to a refused or aborted C800h (R491). -/
def Dev.refusal (d : Dev) (code inst reason req target ld : Nat) (abort : Bool) : Ans :=
  .bad .unsupported 0x000C d.stateCode 1 (code + inst * 2 ^ 8 + reason * 2 ^ 16 + bit abort * 2 ^ 24) (req + target * 8 + ld * 16)

/-- A range operation stops in every slice (R485). -/
def Dev.stopRange (d : Dev) (id : Nat) : Dev :=
  let off := fun (r : RangeOp) => decide (r.id ≠ id)
  d.units.foldl (fun d s => d.modW s fun w => { w with ranges := w.ranges.filter off, rangeQ := w.rangeQ.filter off }) d

/-- A power entry in preparation is aborted (R485): what it started stops, the refuser is counted, C800h answers. -/
def Dev.abortEntry (d : Dev) (code inst reason : Nat) : Dev :=
  match d.mg.entry with
  | none => d
  | some e =>
    let d := d.refuse code inst reason e.req true
    let a := d.refusal code inst reason e.req 0 0 true
    let d := if e.req = 2 then d.stopRange e.op else d
    let d := match d.mg.emptying with
      | some id => d.stopRange id
      | none => d
    { d with pwr := { d.pwr with st := if e.moored then .moored else .underway }, mg := { d.mg with entry := none, emptying := none } }.answerPath e.path a

/-- An event that aborts a preparation for Laid-up alone (R485). -/
def Dev.abortLaidUp (d : Dev) (code inst reason : Nat) : Dev :=
  match d.mg.entry with
  | some e => if e.req = 3 then d.abortEntry code inst reason else d
  | none => d

/-- A wake latches its cause and brings the device up (R488, R490): from Moored at once, from Laid-up by the exit of Table 17.4; it aborts
the preparation of Laid-up (R485). Bits in the order of p0080; 5 is link activity, with its landing. -/
def Dev.wakeUp (d : Dev) (b ld : Nat) : Dev :=
  if bits (d.p 0x80) b 1 = 0 then d
  else
    let latch := fun (d : Dev) =>
      { d with pwr := { d.pwr with wake := setBit d.pwr.wake b true, wakeLd := if b = 5 then ld else d.pwr.wakeLd } }
    if d.boot.phase = .laidUp then (if b = 5 then d else (latch d).beginStart .laidUp .trust 0x20 0)
    else if d.pwr.st = .moored then (latch d).leaveMoored
    else if b = 5 then d
    else d.abortLaidUp 8 b 0

/-- A private write reaches the I3C target (R488, R489, R541). -/
def Dev.i3cMatch (d : Dev) : Dev := if d.moor.i3c.isSome then d.wakeUp 0 0 else d

/-- The return codes that carry out a command. -/
def RC.did : RC → Bool
  | .success => true
  | .bgStarted => true
  | _ => false

/-- The Ferryman accepts commands (R358 check 1, R364). -/
def Dev.fmnUp (d : Dev) : Bool := !d.fmnBusy && decide (d.fmn.st = .running)

/-- Checks 1 to 4 of R358 and the device state of check 5: the device with the refusal given, or the role to execute under. A path whose
landing is not in use delivers nothing; a path still waiting for its C800h takes no further command (R357); a VDM message without its enable is
discarded and counted. -/
def Dev.gate (d : Dev) (pn : Nat) (c : CSpec) (n : Nat) (fields : Role → Option Ans) : Dev ⊕ Role :=
  if !d.pathLive pn || (match d.mg.entry with | some e => decide (e.path = pn) | none => false) then .inl d
  else if 33 ≤ pn ∧ pn ≤ 48 ∧ bits (d.p 0x1E1) (pn - 33) 1 = 0 then .inl { d with mg := { d.mg with vdmDrop := d.mg.vdmDrop + 1 } }
  else
    let r := d.role pn
    if !d.fmnUp then .inl ((if c.opcode = 0xC800 then d.refuse 6 0xFF 0 0 false else d).answerPath pn (c.trim (.bad .busy 0x0001)))
    else if !c.permits r pn then .inl (d.answerPath pn (c.trim (.bad .unsupported 0x000A 0 0 c.opcode)))
    else if (match c.len with | some l => decide (n ≠ l) | none => false) then .inl (d.answerPath pn (.bad .invalidLength))
    else
      match fields r with
      | some a => .inl (d.answerPath pn (c.trim a))
      | none =>
        if c.active && (!d.active || d.mg.warm.isSome) then .inl (d.answerPath pn (c.trim (.bad .busy 0x0030 d.stateCode 1)))
        else .inr r

/-- Give the answer of an executed command; a side effect counts in STATESEQ (R358, R359, Table 12.14). -/
def Dev.close (d : Dev) (pn : Nat) (c : CSpec) (a : Ans) : Dev :=
  let d := if a.rc.did && c.effect then { d with mg := { d.mg with stateseq := (d.mg.stateseq + 1) % 2 ^ 32 } } else d
  d.answerPath pn (c.trim a)

/-- One command, checked in the order of R358: Ferryman, opcode and role, length, fields, device state, then the objects' states with the
command's effect, which `act` computes from the device. A refused command has no side effect but its own accounting. -/
def Dev.command (d : Dev) (pn : Nat) (c : CSpec) (n : Nat) (fields : Role → Option Ans) (act : Role → Ans × Dev) : Dev :=
  match d.gate pn c n fields with
  | .inl d' => d'
  | .inr r =>
    let (a, d') := act r
    d'.close pn c a

/-- Every command that comes over I3C is a private write first (R488): in Laid-up it is answered NACK and wakes alone (R489). -/
def Dev.onPath (d : Dev) (pn : Nat) (f : Dev → Dev) : Dev :=
  if pn ≠ 32 then f d else if d.boot.phase = .laidUp then d.i3cMatch else f d.i3cMatch

/-- Field of a payload: `n` bytes from offset `o`. -/
def fld (p : List Byte) (o n : Nat) : Nat := natOfBytes ((p.drop o).take n)

/-- Bytes `o` to `o + n − 1` are zero. -/
def rsvd (p : List Byte) (o n : Nat) : Bool := decide (fld p o n = 0)

/-- Refuse unless every condition holds (R358 check 4). -/
def need (b : Bool) : Option Ans := if b then none else some .invalid

/-- Start a background command on a path (R361): a second one on the path is answered Busy with DCODE 0009h. -/
def Dev.startBg (d : Dev) (pn opcode : Nat) (op : BgOp) : Dev := d.modPath pn fun x => { x with bg := some { opcode, op } }

/-- The background command running on the path, or another that the marks of Table 12.5 make conflict. -/
def Dev.bgConflict (d : Dev) (pn : Nat) (clash : Bg → Bool) : Option Nat :=
  match (d.path pn).bg with
  | some b => some b.opcode
  | none => (d.mg.paths.findSome? fun x => match x.2.bg with
    | some b => if clash b then some b.opcode else none
    | none => none)

/-- A background command in the form of R361. -/
def Dev.background (d : Dev) (pn opcode : Nat) (clash : Bg → Bool) (op : BgOp) (go : Dev → Dev) : Ans × Dev :=
  match d.bgConflict pn clash with
  | some o => (.bad .busy 0x0009 0 0 o, d)
  | none => ({ rc := .bgStarted }, (go d).startBg pn opcode op)

/-- A background command ends with its final return code (R361). -/
def Dev.endBg (d : Dev) (pn : Nat) (rc : RC) : Dev :=
  let d := d.modPath pn fun x => { x with bg := none, last := x.bg.map fun b => (b.opcode, rc) }
  if pn < 32 then (match pathLd pn with
    | some n => d.modLd n (·.msi 0)
    | none => d) else d

/-- As many whole items as fit the response limit after 8 bytes of header, at most `most` (R383). -/
def Dev.fit (d : Dev) (pn size most : Nat) : Nat := min most ((d.limitOf pn - 8) / size)

/-- A block that is not Free: some record not Free covers it. -/
def Dev.blockUsed (d : Dev) (blk : Nat) : Bool := d.recList.any fun r => r.2.covers blk

/-- A DPA byte range within the region whose blocks all pass a test. -/
def Dev.rangeIn (d : Dev) (a len : Nat) (ok : Nat → Bool) : Bool :=
  decide (a + len ≤ d.regionBlocks * 2 ^ 28) && (rangeBlocks a len).all ok

end Sys2Proof.Machine
end

