-- ==== Sys2Proof/Machine/CmdCap.lean ====
section
/-! DEFINITION. Set C4h: capacity and tiering commands (R128, R187, R198, R230, R346, R370 to R374, R475). -/
namespace Sys2Proof.Machine

/-- C400h Stage Extent Attributes (R371). -/
def Dev.stageAttrs (d : Dev) (pn : Nat) (p : List Byte) : Dev :=
  let base := fld p 0 4
  let nblk := fld p 4 4 + 1
  let ctx := fld p 8 2
  let fl := fld p 10 1
  let ld := fld p 11 1
  let s : Staged := { ld, base, nblk, near := bits fl 0 1 = 1, rdonly := bits fl 1 1 = 1, ctx }
  let same := fun (x : Staged) => decide (x.ld = ld) && decide (x.base = base) && decide (x.nblk = nblk)
  let laps := fun (x : Staged) => decide (x.ld = ld) && decide (x.base < base + nblk) && decide (base < x.base + x.nblk) && !same x
  let rest := d.ext.staged.filter fun x => !same x
  d.command pn { opcode := 0xC400, p := true, len := some 16, effect := true } p.length
    (fun _ => need (decide (base + nblk ≤ d.regionBlocks) && decide (ctx < 16384) && decide (fl < 8) && decide (ld < 16) && d.on ld && rsvd p 12 4
      && !(decide (fl < 4) && d.ext.staged.any laps)))
    fun _ =>
      if 4 ≤ fl then (.good, { d with ext := { d.ext with staged := rest } })
      else if 64 ≤ rest.length then (.bad .unsupported 0x0040, d)
      else (.good, { d with ext := { d.ext with staged := rest ++ [s] } })

/-- Record numbers of C401h from `first` on that pass the filters, in order. -/
def Dev.recNumbers (d : Dev) (first : Nat) (skip : Bool) (ld : Option Nat) : List Nat :=
  let live := (d.recList.filter fun r => decide (first ≤ r.1) && (match ld with
    | some n => decide (r.2.ld = n)
    | none => true)).map (·.1)
  if skip || ld.isSome then live else (List.range (32768 - first)).map fun i => first + i

/-- C401h Get Extent Records (Table 12.8, R355, R383). -/
def Dev.getExtents (d : Dev) (pn : Nat) (p : List Byte) : Dev :=
  let first := fld p 0 2
  let most := fld p 2 2
  let ld := fld p 5 1
  d.command pn { opcode := 0xC401, p := true, t := true, o := true, len := some 8 } p.length
    (fun r => need (decide (first < 32768) && decide (1 ≤ most) && decide (most ≤ 2047) && decide (fld p 4 1 < 2) && rsvd p 6 2
      && (match r with
          | .tenant _ => true
          | _ => decide (ld < 16) || decide (ld = 0xFF))))
    fun r =>
      let who := match r with
        | .tenant n => some n
        | _ => if ld = 0xFF then none else some ld
      let ns := d.recNumbers first (fld p 4 1 = 1) who
      let k := d.fit pn 32 most
      let got := ns.take k
      let next := match ns[k]? with
        | some n => n
        | none => 0x8000
      (.good (le 2 got.length ++ le 2 next ++ zeros 4 ++ got.flatMap fun n => (d.xrec n).enc), d)

/-- C402h Withdraw Offer (R372). -/
def Dev.withdraw (d : Dev) (pn : Nat) (p : List Byte) : Dev :=
  let n := fld p 0 2
  let r := d.xrec n
  d.command pn { opcode := 0xC402, p := true, len := some 8, effect := true } p.length
    (fun _ => need (decide (n < 32768) && rsvd p 4 4 && decide (fld p 2 2 = r.seq.toNat)))
    fun _ =>
      if r.st = .offered then (.good, (d.freeRecord n).evHost r.ld .dcRelease [n, r.base, r.nblk1 + 1] 4)
      else (.bad .unsupported 0x0004 r.st.code 1 n r.seq.toNat, d)

/-- A page-map entry as Get Page-Map Entries shows it: TALLY as R127 reads it under the present epoch. -/
def Dev.shownEnt (d : Dev) (page : Nat) : PEnt :=
  let e := d.entNow (d.homeOf page) page
  { e with tally := if e.tepoch = d.pm.epoch then e.tally else 0#8 }

/-- C403h Get Page-Map Entries (R373, R475, R127). -/
def Dev.getEntries (d : Dev) (pn : Nat) (p : List Byte) : Dev :=
  let a := fld p 0 8
  let n := fld p 8 4
  d.command pn { opcode := 0xC403, p := true, o := true, len := some 16, active := true } p.length
    (fun _ => need (decide (a % 4096 = 0) && decide (1 ≤ n) && decide (n ≤ 4095) && rsvd p 12 4 && d.rangeIn a (n * 4096) d.blockUsed))
    fun _ =>
      let k := d.fit pn 16 n
      (.good (le 4 k ++ le 1 d.pm.epoch.toNat ++ zeros 3 ++ (List.range k).flatMap fun i => bytesOf 16 (d.shownEnt (a / 4096 + i)).encode), d)

/-- C404h Advance Tally Epoch (R128, R129). -/
def Dev.advanceEpoch (d : Dev) (pn : Nat) (p : List Byte) : Dev :=
  d.command pn { opcode := 0xC404, p := true, o := true, len := some 0, active := true, effect := true } p.length
    (fun _ => none)
    fun _ =>
      if d.pm.sweep then (.bad .busy 0x0002, d)
      else
        let e := d.pm.epoch + 1#4
        let d := d.units.foldl (fun d s => d.modMs s fun x => { x with epoch := e }) d
        (.good (le 1 e.toNat ++ zeros 7), { d with pm := { d.pm with epoch := e, sweep := true } }.tellPilots 3 e.toNat)

/-- The sweep after an advance (R129): TALLY of every entry whose TEPOCH is (E + 1) mod 16 becomes 0, in the map and in the page-map cache; it is
the first access to a page stored on a fenced channel that had none before it (R119). -/
def Dev.sweepDone (d : Dev) : Dev :=
  if !d.pm.sweep then d
  else
    let old := d.pm.epoch + 1#4
    let pages := (d.pm.ents.map (·.1)).filter fun p => (d.ent p).tepoch = old && decide ((d.ent p).tally ≠ 0#8)
    let d := pages.foldl (fun d p => d.setEnt p { d.ent p with tally := 0#8 }) d
    let upd := fun (x : PmSlot) => if x.valid && decide (x.tepoch = old) then { x with tally := 0#8 } else x
    let d := d.units.foldl (fun d s => d.modMs s fun x => { x with pmc := x.pmc.map fun y => (y.1, upd y.2) }) d
    let stray := (d.pm.ents.map (·.1)).filter fun p => (d.ent p).form ≠ .z && !d.chOk (d.ent p).chan
    let d := stray.foldl (fun d p => d.touchFenced (d.homeOf p) p) d
    { d with pm := { d.pm with sweep := false } }

/-- C405h Set Page Pin (R109, R373). -/
def Dev.setPagePin (d : Dev) (pn : Nat) (p : List Byte) : Dev :=
  let a := fld p 0 8
  let n := fld p 8 4
  let v := fld p 12 1
  d.command pn { opcode := 0xC405, p := true, o := true, len := some 16, active := true, effect := true } p.length
    (fun _ => need (decide (a % 4096 = 0) && decide (1 ≤ n) && decide (n ≤ 65536) && decide (v < 2) && rsvd p 13 3 && d.rangeIn a (n * 4096) d.blockUsed))
    fun _ =>
      let pages := ((List.range n).map fun i => a / 4096 + i).filter fun q => (d.ent q).pin != decide (v = 1)
      (.good (le 4 pages.length ++ zeros 4), pages.foldl (fun d q => d.setEnt q { d.ent q with pin := decide (v = 1) }) d)

/-- A record that is not Granted at the first block of a range no Granted record covers, as the refusal with DCODE 0004h names it (R187, R373). -/
def Dev.notGranted (d : Dev) (a len : Nat) : Option Ans :=
  match (rangeBlocks a len).find? fun b => !(d.ext.recs.any fun r => decide (r.2.st = .granted) && r.2.covers b) with
  | none => none
  | some b =>
    match d.recList.find? fun r => r.2.covers b with
    | some (n, r) => some (.bad .unsupported 0x0004 r.st.code 2 n r.seq.toNat)
    | none => some .invalid

/-- C406h Wharf Pin (R187, R373). -/
def Dev.wharfPin (d : Dev) (pn : Nat) (p : List Byte) : Dev :=
  let a := fld p 0 8
  let len := fld p 8 4
  let op := fld p 12 1
  d.command pn { opcode := 0xC406, p := true, o := true, len := some 16, active := true, effect := true } p.length
    (fun _ => need (decide (a % 64 = 0) && decide (len % 64 = 0) && decide (1 ≤ len) && decide (len ≤ 2 ^ 24) && decide (op < 2) && rsvd p 13 3
      && d.rangeIn a len d.blockUsed))
    fun _ =>
      match d.notGranted a len with
      | some e => (e, d)
      | none =>
      let lines := (List.range (len / 64)).map fun i => a / 64 + i
      let (done, bad, d) := lines.foldl (fun (acc : Nat × Option Nat × Dev) l =>
        let (ok, d) := if op = 1 then acc.2.2.pin l else acc.2.2.unpin l
        (acc.1 + bit ok, if ok || decide (op = 0) || acc.2.1.isSome then acc.2.1 else some l, d)) (0, none, d)
      (.good (le 4 done ++ zeros 4 ++ le 8 ((bad.map (· * 64)).getD 0xFFFFFFFFFFFFFFFF)), d)

/-- C407h Wharf Maintenance (R198 to R202, R373): a background command. -/
def Dev.wharfMaint (d : Dev) (pn : Nat) (p : List Byte) : Dev :=
  let a := fld p 0 8
  let len := fld p 8 8
  let op := fld p 16 1
  d.command pn { opcode := 0xC407, p := true, o := true, len := some 24, active := true, effect := true } p.length
    (fun _ => need (decide (a % 64 = 0) && decide (len % 64 = 0) && decide (1 ≤ len) && (decide (op = 1) || decide (op = 2)) && rsvd p 17 7
      && d.rangeIn a len d.blockUsed))
    fun _ =>
      match d.notGranted a len with
      | some e => (e, d)
      | none =>
      let (id, d') := d.startRange (if op = 1 then .clean else .invalidate) (a / 64) ((a + len) / 64 - 1) true {}
      d.background pn 0xC407 (fun _ => false) (.maint id) fun _ => d'

/-- C408h Clear Adrift (R230, R373). -/
def Dev.clearAdriftCmd (d : Dev) (pn : Nat) (p : List Byte) : Dev :=
  let a := fld p 0 8
  let len := fld p 8 8
  let mode := fld p 16 1
  d.command pn { opcode := 0xC408, p := true, len := some 24, active := true, effect := true } p.length
    (fun _ => need (decide (a % 64 = 0) && decide (len % 64 = 0) && decide (1 ≤ len) && decide (mode < 2) && rsvd p 17 7 && d.rangeIn a len d.blockUsed))
    fun _ =>
      let inR := fun (l : Nat) => decide (a / 64 ≤ l) && decide (l < (a + len) / 64)
      let adrift := fun (es : List FEnt) => es.flatMap fun e => (e.linesIn 3).map fun j => e.sector * 4 + j
      let lines := (d.slc.flatMap fun s => adrift ((s.2.filt.ents.map (·.2)).filter (·.valid)) ++ adrift s.2.filt.store).filter inR
      let (n, d) := lines.foldl (fun (acc : Nat × Dev) l =>
        let (ok, d) := acc.2.clearAdrift l (decide (mode = 0))
        (acc.1 + bit ok, d)) (0, d)
      (.good (le 4 n ++ zeros 4), d)

/-- Granules of a channel that some entry, tree area or retired berth accounts for, as used bits of a frame (R374). -/
def Dev.referenced (d : Dev) (c frame : Nat) : BitVec 8 :=
  let pages := d.pm.ents.foldl (fun (m : BitVec 8) x =>
    let e := d.ent x.1
    if e.form ≠ .z ∧ e.chan = c ∧ e.frame = frame then m ||| granMask e.goff (e.gm1 + 1) else m) 0#8
  let area := d.slc.any fun s => s.2.sl.roots.any fun r =>
    let n := d.sealArea (d.blockNear r.1)
    r.2.st == 2#2 && ((decide (r.2.chA = c) && decide (r.2.frA ≤ frame) && decide (frame < r.2.frA + n)) ||
      (decide (r.2.chB = c) && decide (r.2.frB ≤ frame) && decide (frame < r.2.frB + n)))
  if area then 0xFF#8 else pages

/-- The audit of some channels (R374): unreferenced granules counted, and freed when asked, those of retired berths apart. -/
def Dev.audit (d : Dev) (chans : List Nat) (free : Bool) : Nat × Dev :=
  chans.foldl (fun (acc : Nat × Dev) c =>
    (acc.2.usedFrames c).foldl (fun (acc : Nat × Dev) f =>
      let d := acc.2
      let lost := d.used c f &&& ~~~(d.referenced c f)
      (acc.1 + popcount lost, if free then d.setUsed c f lost false else d)) acc) (0, d)

/-- C409h Page-Map Audit (R374): a background command, exclusive device-wide. -/
def Dev.pageAudit (d : Dev) (pn : Nat) (p : List Byte) : Dev :=
  let c := fld p 0 1
  let fl := fld p 1 1
  let clash := fun (b : Bg) => match b.op with
    | .audit _ _ => true
    | _ => false
  d.command pn { opcode := 0xC409, p := true, len := some 8, active := true, effect := true } p.length
    (fun _ => need ((decide (c = 0xFF) || (decide (c < 16) && d.on c)) && decide (fl < 2) && rsvd p 2 6))
    fun _ => d.background pn 0xC409 clash (.audit (if c = 0xFF then d.units else [c]) (fl = 1)) id

/-- C40Ah Set Host Queue Permission (R346, R373). -/
def Dev.hostQueue (d : Dev) (pn : Nat) (p : List Byte) : Dev :=
  let n := fld p 0 1
  let v := fld p 1 1
  d.command pn { opcode := 0xC40A, p := true, len := some 8, effect := true } p.length
    (fun _ => need (decide (n < 16) && d.on n && decide (v < 2) && rsvd p 2 6))
    fun _ => (.good, d.modBg n fun b =>
      let b := { b with hostok := decide (v = 1) }
      if v = 0 ∧ b.enable then b.disable else b)

/-- Entries whose other copy is lost to a channel's fence or absence (R118, Table 12.15). -/
def Dev.singles (d : Dev) (c : Nat) : Nat :=
  if d.chOk c then 0 else (d.pm.blocks.filter fun b => b.2.seg.isSome).length * 2 * (65536 / d.units.length)

/-- A channel item of Get Capacity Status (Table 12.8). -/
def Dev.chanItem (d : Dev) (c : Nat) : List Byte :=
  let here := (d.pm.ents.map (·.1)).filter fun p => (d.ent p).form ≠ .z && decide ((d.ent p).chan = c)
  let of := fun (f : Form) => (here.filter fun p => decide ((d.ent p).form = f)).length
  le 4 (if (d.ch c).st = .fenced then 0 else (d.ch c).free) ++ le 4 (d.poolGran c) ++ le 1 (d.tideByte c) ++ zeros 3 ++ le 4 (d.ch c).retired
    ++ le 4 (here.filter fun p => d.homeOf p ≠ c).length ++ le 4 (d.singles c) ++ le 4 (of .k) ++ le 4 (of .p)

/-- Bytes stored for a record's blocks (Table 12.8, section 1). -/
def Dev.recBytes (d : Dev) (r : ExtRec) : Nat :=
  let pages := (d.pm.ents.map (·.1)).filter fun p => r.covers (pageBlock p)
  let gran := pages.foldl (fun s p => s + (d.ent p).held) 0
  let areas := d.slc.foldl (fun s x => s + (x.2.sl.roots.filter fun y => y.2.st == 2#2 && r.covers y.1).foldl
    (fun t y => t + 2 * d.sealArea (d.blockNear y.1)) 0) 0
  gran * 512 + areas * 4096

/-- C40Bh Get Capacity Status (Table 12.8, R383). -/
def Dev.capacityStatus (d : Dev) (pn : Nat) (p : List Byte) : Dev :=
  let sec := fld p 0 1
  let first := fld p 2 2
  d.command pn { opcode := 0xC40B, p := true, o := true, len := some 8, active := true } p.length
    (fun _ => need (decide (sec < 2) && rsvd p 1 1 && rsvd p 4 4 && (if sec = 0 then decide (first < 16) else decide (first < 32768))))
    fun _ =>
      let ns := if sec = 0 then (List.range (16 - first)).map fun i => first + i else ((d.recList.map (·.1)).filter fun n => decide (first ≤ n))
      let k := d.fit pn (if sec = 0 then 32 else 16) (if sec = 0 then 16 else 4095)
      let got := ns.take k
      let next := (ns[k]?).getD 0x8000
      let item := fun n => if sec = 0 then d.chanItem n else le 2 n ++ zeros 6 ++ le 8 (d.recBytes (d.xrec n))
      (.good (le 2 got.length ++ le 2 next ++ zeros 4 ++ got.flatMap item), d)

end Sys2Proof.Machine
end

