-- ==== Sys2Proof/Machine/CmdCtx.lean ====
section
/-! DEFINITION. Set C5h: contexts, their keys, Rekey Extent, Reseal Subtree (R236 to R243, R265, R268, R375, R376). -/
namespace Sys2Proof.Machine

/-- Context `c`. -/
def Dev.ctxOf (d : Dev) (c : Nat) : CtxRec := tget {} d.ctx c

/-- Change context `c`. -/
def Dev.modCtx (d : Dev) (c : Nat) (f : CtxRec → CtxRec) : Dev := { d with ctx := tmod {} d.ctx c f }

/-- Working keys of a context from its base keys and the boot nonce (R241): labels 0 data, 1 tweak, 2 Sealed, of the model's own naming. -/
def Dev.working (d : Dev) (c : Nat) (base : BitVec 256 × BitVec 256) : BitVec 256 × BitVec 256 :=
  if (d.ctxOf c).sld then (Config.workKey base.1 d.nonce c 2, 0#256)
  else (Config.workKey base.1 d.nonce c 0, Config.workKey base.2 d.nonce c 1)

/-- Load the working keys of a context into the key table of every enabled slice (R243). -/
def Dev.loadKeys (d : Dev) (c : Nat) : Dev :=
  match tget none d.tlh.wrapped c with
  | none => d
  | some base => d.units.foldl (fun d n => d.modSeal n fun s => { s with keys := tput none s.keys c (some (d.working c base)) }) d

/-- The Tollhouse takes base keys for a context, wraps and keeps them, and loads the working keys: the context is Enabled (R238, R242, R243). -/
def Dev.keyArrives (d : Dev) (c : Nat) (base : BitVec 256 × BitVec 256) : Dev :=
  let d := { d with tlh := { d.tlh with wrapped := tput none d.tlh.wrapped c (some base) } }
  (d.modCtx c fun r => { r with st := .enabled, gen := r.gen + 1#8 }).loadKeys c

/-- Base keys drawn from the Tollhouse's DRBG (R238, R241): two for an Open context, one for a Sealed one. -/
def Dev.drawKeys (d : Dev) (sld : Bool) : (BitVec 256 × BitVec 256) × Dev :=
  let (a, d) := d.draw
  if sld then ((Config.drbg a, 0#256), d)
  else
    let (b, d) := d.draw
    ((Config.drbg a, Config.drbg b), d)

/-- Enable a Disabled context (R238). -/
def Dev.enableCtx (d : Dev) (c : Nat) (sld nodma imp : Bool) (mask : BitVec 16) : Dev :=
  let d := d.modCtx c fun r => { r with st := .awaiting, sld, nodma, imported := imp, mask }
  if imp then d
  else
    let (base, d) := d.drawKeys sld
    d.keyArrives c base

/-- Erase a context's keys from the Tollhouse and every key table: the context is Disabled (R239, R243). -/
def Dev.disableCtx (d : Dev) (c : Nat) : Dev :=
  let d := { d with tlh := { d.tlh with wrapped := tput none d.tlh.wrapped c none } }
  let d := d.units.foldl (fun d n => d.modSeal n fun s =>
    { s with keys := tput none s.keys c none, remap := s.remap.filter (· ≠ c), reload := s.reload.filter (· ≠ c) }) d
  d.modCtx c fun r => { gen := r.gen }

/-- The Tollhouse cannot load or erase keys now (R375, R427). -/
def Dev.tlhWait : Ans := .bad .busy 0x000F

/-- C500h Enable Context (R238, R240, R375). -/
def Dev.enableCmd (d : Dev) (pn : Nat) (p : List Byte) : Dev :=
  let c := fld p 0 2
  let fl := fld p 2 1
  let mask := fld p 4 2
  let imp := decide (4 ≤ fl)
  d.command pn { opcode := 0xC500, p := true, len := some 8, active := true, effect := true } p.length
    (fun _ => need (decide (1 ≤ c) && decide (c < 16384) && decide (fl < 8) && rsvd p 3 1 && rsvd p 6 2 && (imp == decide (mask ≠ 0))))
    fun _ =>
      let r := d.ctxOf c
      let sld := decide (bits fl 0 1 = 1)
      if r.st ≠ .disabled then (.bad .unsupported 0x0050 r.st.code 0 c, d)
      else if sld && !d.sealEn then (.bad .unsupported 0x0051 0 0 c (bit d.sealEn + 2 * bit d.sealSh), d)
      else if !imp && d.tlhBusy then (Dev.tlhWait, d)
      else
        let d := d.enableCtx c sld (decide (bits fl 1 1 = 1)) imp (BitVec.ofNat 16 mask)
        (.good (d.ctxEnc c), d)

/-- C501h Disable Context (R239, R375). -/
def Dev.disableCmd (d : Dev) (pn : Nat) (p : List Byte) : Dev :=
  let c := fld p 0 2
  d.command pn { opcode := 0xC501, p := true, len := some 8, active := true, effect := decide ((d.ctxOf c).st ≠ .disabled) } p.length
    (fun _ => need (decide (1 ≤ c) && decide (c < 16384) && rsvd p 2 6))
    fun _ =>
      let b := d.ctxBlocks c
      let g := d.ctxPages c
      if (d.ctxOf c).st = .disabled then (.good, d)
      else if b ≠ 0 ∨ g ≠ 0 then (.bad .unsupported 0x0005 0 0 c (b + g * 2 ^ 18), d)
      else if d.tlhBusy && decide ((d.ctxOf c).st = .enabled) then (Dev.tlhWait, d)
      else (.good, d.disableCtx c)

/-- Contexts not Disabled that a role sees, in order (R376, R385, R386). -/
def Dev.ctxSeen (d : Dev) (r : Role) : List Nat :=
  let live := (d.ctx.filter fun x => decide (x.2.st ≠ .disabled)).map (·.1)
  match r with
  | .tenant n => live.filter fun c => d.recList.any fun x => decide (x.2.ld = n) && decide (x.2.ctx = c)
  | _ => live

/-- C502h Get Context Records (R376, R383). -/
def Dev.ctxRecords (d : Dev) (pn : Nat) (p : List Byte) : Dev :=
  let first := fld p 0 2
  let most := fld p 2 2
  d.command pn { opcode := 0xC502, p := true, t := true, o := true, len := some 8 } p.length
    (fun _ => need (decide (first < 16384) && decide (1 ≤ most) && decide (most ≤ 2047) && rsvd p 4 4))
    fun r =>
      let ns := (d.ctxSeen r).filter fun c => decide (first ≤ c)
      let k := d.fit pn 32 most
      let got := ns.take k
      (.good (le 2 got.length ++ le 2 ((ns[k]?).getD 0xFFFF) ++ zeros 4 ++ got.flatMap d.ctxItem), d)

/-- Records of the extent of a record: its share group, or itself (R268). -/
def Dev.extentOf (d : Dev) (n : Nat) : List Nat :=
  let r := d.xrec n
  if r.shared then (d.recList.filter fun (x : Nat × ExtRec) => x.2.shared && decide (x.2.share = r.share)).map (·.1) else [n]

/-- C503h Rekey Extent (R268, R376): a background command, exclusive per share group. The records take the new context at once. -/
def Dev.rekeyExtent (d : Dev) (pn : Nat) (p : List Byte) : Dev :=
  let n := fld p 0 2
  let c := fld p 2 2
  let r := d.xrec n
  let group := d.extentOf n
  let blocks := (group.flatMap fun k => (d.xrec k).blocks).eraseDups
  let sb := d.sealedBlocks
  let more := (blocks.filter fun b => !decide (b ∈ sb)).length
  let clash := fun (b : Bg) => match b.op with
    | .rekey k _ _ _ => decide (k ∈ group)
    | _ => false
  d.command pn { opcode := 0xC503, p := true, len := some 8, active := true, effect := true } p.length
    (fun _ => need (decide (n < 32768) && decide (c < 16384) && rsvd p 4 4))
    fun _ =>
      if r.st ≠ .granted then (.bad .unsupported 0x0004 r.st.code 2 n r.seq.toNat, d)
      else if (d.ctxOf c).st ≠ .enabled then (.bad .unsupported 0x0050 (d.ctxOf c).st.code 2 c, d)
      else if (d.ctxOf c).sld && r.shared && !(d.sealEn && d.sealSh) then (.bad .unsupported 0x0051 0 0 c (bit d.sealEn + 2 * bit d.sealSh), d)
      else if (d.ctxOf c).sld && decide (8192 < sb.length + more) then (.bad .unsupported 0x0053 0 0 0 sb.length, d)
      else d.background pn 0xC503 clash (.rekey n r.ctx c blocks) fun d => group.foldl (fun d k => d.modRec k fun x => { x with ctx := c }) d

/-- Pages of a block whose entry names a context, by a listed entry, or all others of the block as well when they are asked for. -/
def Dev.pagesNaming (d : Dev) (blk c : Nat) (whole : Bool) : List Nat :=
  let listed := (d.pm.ents.map (·.1)).filter fun p => decide (pageBlock p = blk) && decide ((d.ent p).ctx = c)
  if whole && decide ((tget {} d.pm.blocks blk).ctx = c) then
    ((List.range 65536).map fun i => blk * 65536 + i).filter fun p => decide ((d.ent p).ctx = c)
  else listed

/-- REKEY every page of a block that names the old context (R267, R268). Pages never written, of a block without a counter tree, hold nothing:
their entries take the new context together. -/
def Dev.rekeyBlock (d : Dev) (old c : Nat) (ph : Phys) (blk : Nat) : Dev :=
  let b : Block := tget {} d.pm.blocks blk
  let sld := (d.ctxOf c).sld
  let tree := d.slc.any fun s => decide ((d.root s.1 blk).st ≠ 0#2)
  let d := (d.pagesNaming blk old (tree || sld)).foldl (fun d p => (d.rekeyPage (d.homeOf p) p c (d.ent p).qpois ph (some 63)).2) d
  if b.ctx ≠ old ∨ b.seg.isNone then d
  else if (tree || sld) && !(d.pagesNaming blk old true).isEmpty then d
  else
    let b' : Block := { b with ctx := c, sld }
    let ents := d.pm.ents.filter fun e => !(decide (pageBlock e.1 = blk) && decide (e.2 = some b'.bound))
    { d with pm := { d.pm with blocks := tput {} d.pm.blocks blk b', ents } }

/-- Work of a Rekey Extent (R268): over when no page of the extent names the old context. -/
def Dev.rekeyRest (d : Dev) (old c : Nat) (blocks : List Nat) (ph : Phys) : Bool × Dev :=
  if old = c then (true, d)
  else
    let d := blocks.foldl (fun d b => d.rekeyBlock old c ph b) d
    (blocks.all fun b => (d.pagesNaming b old true).isEmpty, d)

/-- Reseal one page (R265): Z, storage freed, QPOIS cleared, its Wharf lines discarded. -/
def Dev.resealPage (d : Dev) (sl page : Nat) : Dev :=
  let old := d.ent page
  let d := (d.setEnt page (old.toZ 0#16)).freeStorage old
  let inP := fun (q : Nat) => decide (q / 16 = page)
  let doom := fun (m : Miss) => if inP m.quad then { m with doomed := true } else m
  let d := d.modMs sl fun s =>
    { s with held := s.held.filter fun h => !decide (h.page = page)
             misses := s.misses.map doom
             wharf := { s.wharf with qbuf := s.wharf.qbuf.filter fun b => !inP b.quad } }
  ((d.ms sl).wharf.lines.filter fun x => decide (x.2.st ≠ .invalid) && decide (x.2.addr / 64 = page)).foldl (fun d x => d.invalidate sl x.1) d

/-- C504h Reseal Subtree (R265, R376). -/
def Dev.resealCmd (d : Dev) (pn : Nat) (p : List Byte) : Dev :=
  let sl := fld p 0 1
  let lvl := fld p 1 1
  let blk := fld p 4 4
  let idx := fld p 8 4
  let near := d.blockNear blk
  d.command pn { opcode := 0xC504, p := true, len := some 16, active := true, effect := true } p.length
    (fun _ => need (decide (sl < 16) && d.on sl && rsvd p 2 2 && decide (blk < d.regionBlocks) && rsvd p 12 4 && decide (lvl ≤ d.sealTop near)
      && decide (idx < (d.sealLevels near).getD lvl 0)))
    fun _ =>
      let r := d.root sl blk
      if r.st ≠ 2#2 then (.bad .unsupported 0x0052 0 0 blk sl, d)
      else
        let d := if lvl < r.top then (d.loadChain sl blk {} (some 63) (idx * 8 ^ lvl) (r.top - (lvl + 1)) r.top r.ctr r.mac).2 else d
        let pages := d.pagesUnder sl blk lvl idx
        let d := pages.foldl (fun d q => d.resealPage sl q) d
        let d := (d.modSeal sl (·.dropUnder blk lvl idx)).setParent sl blk lvl idx 0#64 0#64
        let d := d.modSeal sl fun s => { s with roots := tmod {} s.roots blk fun x => { x with floor := s.hw + 1#64 } }
        (.good (le 4 pages.length ++ zeros 4), (d.grantees blk).foldl (fun d n => d.evHost n .resealed pages 1) d)

end Sys2Proof.Machine
end

