-- ==== Sys2Proof/Machine/CmdQos.lean ====
section
/-! DEFINITION. Set C6h: class records, label tables, occupancy (R306, R309, R315, R316, R377). -/
namespace Sys2Proof.Machine

/-- A class record from its 16 bytes (Table 10.2). -/
def ClassRec.dec (p : List Byte) : ClassRec :=
  let f := fun (o : Nat) => fld p o 2 % 2048
  { gw := f 0, xw := f 2, gq := f 4, xq := f 6, gi := f 8, xi := f 10 }

/-- The record keeps the limits of R309, for class `c`. -/
def ClassRec.ok (r : ClassRec) (c : Nat) : Bool :=
  [(r.gw, r.xw), (r.gq, r.xq), (r.gi, r.xi)].all fun x =>
    decide (x.1 ≤ x.2) && decide (x.2 ≤ 1024) && (if c = 0 then decide (x.1 ≤ 512) && decide (x.2 = x.1) else decide (8 ≤ x.2))

/-- The deliverable size of a resource at the moment, as the power manager last computed it (R315, R316). -/
def Dev.delivNow (d : Dev) (r : Res) (ld : Nat) : Nat :=
  match r with
  | .w => d.qos.dwNext
  | .q => d.qos.dqNext
  | .i => tget 1024 d.qos.diNext ld

/-- Admission (R315): the first resource, with its landing for I, whose SC00 ceiling and guarantees pass D, with D and the sum. -/
def Dev.inadmissible (d : Dev) (rc : Nat → ClassRec) : Option (Nat × Nat × Nat × Nat) :=
  let test := fun (r : Res) (ld : Nat) =>
    let s := d.ceiling rc r ld + d.sumG rc r ld
    if d.delivNow r ld < s then some (r.code, ld, d.delivNow r ld, s) else none
  match test .w 0 with
  | some x => some x
  | none =>
    match test .q 0 with
    | some x => some x
    | none => d.units.findSome? fun n => test .i n

/-- Refusal by admission: DCODE 0006h with the resource, the landing, D and the sum (Table 12.4). -/
def admission (x : Nat × Nat × Nat × Nat) : Ans := .bad .unsupported 0x0006 0 0 (x.1 + (if x.1 = 2 then x.2.1 * 2 ^ 8 else 0)) (x.2.2.1 + x.2.2.2 * 2 ^ 16)

/-- C600h Set Class Record (R309, R315, R377): an admitted record applies at the next window boundary. -/
def Dev.setClass (d : Dev) (pn : Nat) (p : List Byte) : Dev :=
  let c := fld p 0 1
  let r := ClassRec.dec (p.drop 8)
  d.command pn { opcode := 0xC600, p := true, len := some 24, effect := true } p.length
    (fun _ => need (decide (c < 64) && rsvd p 1 7 && decide ((p.drop 8).take 16 = r.enc) && r.ok c))
    fun _ =>
      match d.inadmissible fun k => if k = c then r else d.qos.next k with
      | some x => (admission x, d)
      | none => (.good, { d with qos := { d.qos with pend := tput none d.qos.pend c (some r) } })

/-- C601h Get Class Records (R383). -/
def Dev.getClasses (d : Dev) (pn : Nat) (p : List Byte) : Dev :=
  let first := fld p 0 1
  let n := fld p 1 1
  d.command pn { opcode := 0xC601, p := true, t := true, o := true, len := some 8 } p.length
    (fun _ => need (decide (first < 64) && decide (1 ≤ n) && decide (first + n ≤ 64) && rsvd p 2 6))
    fun r =>
      let seen := fun (c : Nat) => match r with
        | .tenant k => decide (c ∈ (d.ld k).classes)
        | _ => true
      let k := min n (d.limitOf pn / 32)
      (.good ((List.range k).flatMap fun i => if seen (first + i) then d.classItem (first + i) else zeros 32), d)

/-- C602h Set Label Table (R83, R306, R315, R377). -/
def Dev.setLabels (d : Dev) (pn : Nat) (p : List Byte) : Dev :=
  let n := fld p 0 1
  let mask := fld p 2 2
  let sel := (List.range 16).filter fun k => decide (bits mask k 1 = 1)
  let e := fun (k : Nat) => fld p (8 + k) 1
  d.command pn { opcode := 0xC602, p := true, len := some 24, effect := true } p.length
    (fun _ => need (decide (n < 16) && d.on n && rsvd p 1 1 && rsvd p 4 4 && (List.range 16).all fun k => decide (bits (e k) 6 1 = 0)))
    fun _ =>
      let zero := sel.any fun k => decide (bits (e k) 7 1 = 1) && decide (bits (e k) 0 6 = 0)
      let c0 := d.qos.next 0
      let none0 := if c0.gw = 0 then some 0 else if c0.gq = 0 then some 1 else if c0.gi = 0 then some 2 else (none : Option Nat)
      let upd := fun (l : Landing) =>
        { l with acc := { l.acc with lbl := sel.foldl (fun t k => tput {} t k { sc := BitVec.ofNat 6 (e k), valid := decide (bits (e k) 7 1 = 1) }) l.acc.lbl } }
      let d' := d.modLd n upd
      match (if zero then none0 else none) with
      | some r => (.bad .unsupported 0x0008 0 0 n r, d)
      | none =>
        match d'.inadmissible d'.qos.next with
        | some x => (if zero && decide (x.1 = 2) && decide (x.2.1 = n) then .bad .unsupported 0x0008 0 0 n 2 else admission x, d)
        | none => (.good, d')

/-- Receive-pool slots a class holds at a landing (Table 12.11): its messages, and its requests that wait for a tracker entry (R36). -/
def Landing.slotsOf (l : Landing) (c : Nat) : Nat :=
  let queued := (l.pool.msgs.filter fun m => decide (m.cls = c) && decide (msgClass m.msg < 2)).foldl (fun s m => s + msgSlots m.msg) 0
  (l.wait.filter fun x => decide (x.2.cls = c)).foldl (fun s x => s + x.2.slots) queued

/-- C603h Get Class Occupancy (Table 12.11). -/
def Dev.occupancy (d : Dev) (pn : Nat) (p : List Byte) : Dev :=
  let c := fld p 0 1
  d.command pn { opcode := 0xC603, p := true, o := true, len := some 8, active := true } p.length
    (fun _ => need (decide (c < 64) && rsvd p 1 7))
    fun _ =>
      let slice := fun (n : Nat) => le 4 ((d.ms n).wharf.occ c) ++ le 2 ((d.ch n).sched.filter fun e => decide (e.cls = c)).length ++ zeros 2
      (.good ((List.range 16).flatMap slice ++ (List.range 16).flatMap fun n => le 4 ((d.ld n).slotsOf c)), d)

end Sys2Proof.Machine
end

