-- ==== Sys2Proof/Machine/CmdDiag.lean ====
section
/-! DEFINITION. Set C7h: fault records, acknowledgement, injection, fences, retraining (R378 to R380, R457, R459, R465, R466). -/
namespace Sys2Proof.Machine

/-- C700h Get Fault Records (Table 12.10, R383, R445). -/
def Dev.getFaults (d : Dev) (pn : Nat) (p : List Byte) : Dev :=
  let first := fld p 0 4
  let most := fld p 4 2
  d.command pn { opcode := 0xC700, p := true, len := some 8 } p.length
    (fun _ => need (decide (1 ≤ most) && decide (most ≤ 1023) && rsvd p 6 2))
    fun _ =>
      let got := (d.lko.recs.filter fun r => decide (first ≤ r.seq)).take (d.fit pn 64 most)
      let newest := (d.lko.recs.map (·.seq)).foldl max 0
      let next := match got.getLast? with
        | some r => r.seq + 1
        | none => first
      (.good (le 2 got.length ++ zeros 2 ++ le 4 next ++ got.flatMap fun r => r.enc (if r.seq = newest then d.lko.overflow else 0)), d)

/-- Acknowledge a record (R459). -/
def Dev.ackFault (d : Dev) (seq : Nat) : Dev := { d with lko := { d.lko with recs := Sys2Proof.Machine.modRec d.lko.recs seq fun r => { r with ack := true } } }

/-- A record with this number was made: held in the Lookout, or in the persistent log (R461, R463). -/
def Dev.recKnown (d : Dev) (seq : Nat) : Bool :=
  (d.lko.recs.any fun r => decide (r.seq = seq)) || d.plog.ents.any fun e => match e.frec with
    | some r => decide (r.seq = seq)
    | none => false

/-- C701h Acknowledge Fault (R378, R459). -/
def Dev.ackCmd (d : Dev) (pn : Nat) (p : List Byte) : Dev :=
  let seq := fld p 0 4
  let fresh := d.lko.recs.any fun r => decide (r.seq = seq) && !r.ack
  d.command pn { opcode := 0xC701, p := true, len := some 8, effect := fresh } p.length
    (fun _ => need (rsvd p 4 4 && d.recKnown seq))
    fun _ => (.good, d.ackFault seq)

/-- A source that is taken as asserting through its force bit reports with INJ and DNC (R465). -/
def Dev.forced (d : Dev) (s : Nat) : Dev := d.report { src := s, inj := true, dnc := true }

/-- Write a source's force bit (R465, Table 15.14): setting it makes the report while p01E2 is 1. -/
def Dev.setForce (d : Dev) (s : Nat) (b : Bool) : Dev :=
  if (sourceInfo s).isNone then d
  else
    let was := (tget {} d.lko.src s).force
    let d := { d with lko := { d.lko with src := tmod {} d.lko.src s fun x => { x with force := b } } }
    if b && !was && decide (d.p 0x1E2 = 1) then d.forced s else d

/-- A source has a checker that inverted checks can reach (R466). -/
def hasChecker (s : Nat) : Bool :=
  match sourceInfo s with
  | some i => i.checker
  | none => false

/-- C702h Inject Fault (R378, R465, R466). -/
def Dev.injectFault (d : Dev) (pn : Nat) (p : List Byte) : Dev :=
  let s := fld p 0 2
  let means := fld p 2 1
  let n := fld p 3 1
  let action := fld p 4 1
  d.command pn { opcode := 0xC702, p := true, len := some 8, effect := true } p.length
    (fun _ => need (decide (s < 2048) && (sourceInfo s).isSome && (decide (means = 1) || decide (means = 2))
      && (if means = 1 then decide (n = 0) else decide (1 ≤ n) && hasChecker s) && decide (action < 2) && rsvd p 5 3))
    fun _ =>
      if d.p 0x1E2 = 0 then (.bad .unsupported 0x0070 0 0 s, d)
      else if means = 1 then (.good, d.setForce s (decide (action = 0)))
      else (.good, { d with lko := { d.lko with src := tmod {} d.lko.src s fun x => { x with inj := if action = 0 then n else 0 } } })

/-- A unit that C703h and C704h name is well formed (Table 12.10). -/
def Dev.unitOk (d : Dev) (kind idx lane : Nat) : Bool :=
  decide (1 ≤ kind) && decide (kind ≤ 5) && (if kind = 1 then decide (lane < 16) else decide (lane = 0))
    && (if kind = 4 then decide (idx < 16) && decide (idx / 4 < idx % 4) else decide (idx < 16) && d.on idx)

/-- The unit is fenced. -/
def Dev.unitFenced (d : Dev) (kind idx lane : Nat) : Bool :=
  match kind with
  | 1 => (d.ld idx).link.lanes.getLsbD lane
  | 2 => (d.ms idx).wharf.fenced || (d.ms idx).wharf.draining
  | 3 => (d.ld idx).link.fenced
  | 4 => decide ((idx / 4, idx % 4) ∈ d.lko.links)
  | _ => decide ((d.ch idx).st = .fenced)

/-- C703h Fence Unit (R379): the unit's own fence with cause "command". -/
def Dev.fenceUnit (d : Dev) (pn : Nat) (p : List Byte) : Dev :=
  let kind := fld p 0 1
  let idx := fld p 1 1
  let lane := fld p 2 1
  d.command pn { opcode := 0xC703, p := true, len := some 8, active := true, effect := !d.unitFenced kind idx lane } p.length
    (fun _ => need (d.unitOk kind idx lane && rsvd p 3 5 && !(decide (kind = 4) && d.linkCuts (idx / 4) (idx % 4))))
    fun _ =>
      if kind = 5 ∧ !d.chOk (partner idx) then (.bad .unsupported 0x0071 0 0 idx (partner idx), d)
      else if d.unitFenced kind idx lane then (.good, d)
      else (.good, match kind with
        | 1 => d.fenceLane idx lane
        | 2 => d.fenceWharf idx false
        | 3 => d.fenceLanding idx
        | 4 => d.fenceLink (idx / 4) (idx % 4)
        | _ => d.fenceChannel idx 7)

/-- C704h Restore Unit (R67, R379): a fenced landing leaves Disabled and enters Reset. -/
def Dev.restoreUnit (d : Dev) (pn : Nat) (p : List Byte) : Dev :=
  let kind := fld p 0 1
  let idx := fld p 1 1
  let lane := fld p 2 1
  let obj := kind + idx * 2 ^ 8 + lane * 2 ^ 16
  d.command pn { opcode := 0xC704, p := true, len := some 8, active := true, effect := true } p.length
    (fun _ => need (d.unitOk kind idx lane && rsvd p 3 5))
    fun _ =>
      if !d.unitFenced kind idx lane then (.bad .unsupported 0x000E 0 0 obj, d)
      else if kind ≠ 3 then (.bad .unsupported 0x000D 0 0 obj, d)
      else (.good, d.modLd idx fun l => { l with link := { l.link with st := .reset, fenced := false } })

/-- C705h Retrain Channel (R380): a background command, exclusive per channel. -/
def Dev.retrainCmd (d : Dev) (pn : Nat) (p : List Byte) : Dev :=
  let c := fld p 0 1
  let clash := fun (b : Bg) => match b.op with
    | .retrain k => decide (k = c)
    | _ => false
  d.command pn { opcode := 0xC705, p := true, len := some 8, active := true, effect := true } p.length
    (fun _ => need (decide (c < 16) && d.on c && rsvd p 1 7 && decide ((d.ch c).st ≠ .absent)))
    fun _ =>
      if (d.ch c).st = .fenced then (.bad .unsupported 0x0072 0 0 c, d)
      else d.background pn 0xC705 clash (.retrain c) id

end Sys2Proof.Machine
end

