-- ==== Sys2Proof/Machine/CmdPower.lean ====
section
/-! DEFINITION. Set C8h: power states, warm device reset, Gangway status (R381, R479 to R491, R526, R527). -/
namespace Sys2Proof.Machine

/-- The device holds every Up landing Moored (R480, Table 17.3). -/
def Dev.deviceMoored (d : Dev) : Bool :=
  decide (d.pwr.st = .moored) || (match d.mg.entry with
    | some e => e.moored
    | none => false)

/-- A landing is Moored, by its own request or with the device (R480, R483). -/
def Dev.ldMoored (d : Dev) (n : Nat) : Bool :=
  d.on n && ((d.ld n).moored || (d.deviceMoored && decide ((d.ld n).link.st = .up)))

/-- Highest valid junction reading, in 0.1 °C (R479): sensors of fused-off slices and readings under an unacknowledged 743h are not valid. -/
def Dev.tjMax (d : Dev) : Option Int :=
  let bad := d.lko.recs.any fun r => decide (r.src = 0x743) && !r.ack
  ((List.range 22).filterMap fun k =>
    let s := tget (0, false) d.tele.sens k
    if s.2 && !bad && (decide (16 ≤ k) || d.on k) then some s.1 else none).foldl (fun m t => match m with
      | some x => some (max x t)
      | none => some t) none

/-- A Barge channel keeps the device from Moored (Table 17.2): active, but for BG63 while no channel is in Ebb or Ballast. -/
def Dev.bargeBlocks (d : Dev) (n : Nat) : Bool :=
  let act := decide ((d.bg n).st ∈ [.running, .preempted, .waiting])
  let low := d.units.any fun c => d.chOk c && decide ((d.ch c).tide.rank ≤ 1)
  act && (decide (n ≠ 63) || low)

/-- First precondition of a device entry that fails (Table 17.2), as refuser code, instance and reason (Table 17.6). -/
def Dev.entryFail (d : Dev) (req : Nat) : Option (Nat × Nat × Nat) :=
  if !d.fmnUp then some (6, 0xFF, 0)
  else if d.lko.recs.any fun r => decide (r.src = 0x741) && !r.ack then some (7, 0xFF, 0)
  else
    match d.units.find? fun n => decide ((d.ld n).link.st = .up) && !(d.ld n).aspm with
    | some n => some (1, n, 1)
    | none =>
    match (List.range 64).find? d.bargeBlocks with
    | some n => some (2, n, 0)
    | none =>
    match d.units.find? fun c => decide (85 < (d.ch c).temp) with
    | some c => some (4, c, 0)
    | none =>
    if d.tlh.st = .stopped ∨ d.tlh.st = .recovery then some (3, 0xFF, 1)
    else if req = 2 then none
    else
      match d.units.find? fun n => !d.ldMoored n && !decide ((d.ld n).link.st ∈ [.down, .disabled, .reset, .absorbed]) with
      | some n => some (1, n, 2)
      | none => if !(decide (d.gwy.st = .on) && d.gwy.pg) then some (5, 0xFF, 0) else if d.tlhBusy then some (3, 0xFF, 0) else none

/-- What C800h asks for, after its checks: the answer when there is one at once. -/
def Dev.powerAct (d : Dev) (pn target ld st : Nat) : Option Ans × Dev :=
  if target = 1 then
    let l := d.ld ld
    if st = 1 then (some .good, d.modLd ld fun l => { l with moored := false })
    else if l.moored then (some .good, d)
    else if l.link.st ≠ .up ∨ !l.aspm then
      let reason := if l.link.st = .up then 1 else 0
      let d := d.refuse 1 ld reason st false
      (some (d.refusal 1 ld reason st 1 ld false), d)
    else (some .good, d.modLd ld fun l => { l with moored := true })
  else if !d.active || d.mg.warm.isSome || d.mg.entry.isSome then (some (.bad .busy 0x0030 d.stateCode 1), d)
  else if st = 1 then (some .good, if d.pwr.st = .moored then d.leaveMoored else d)
  else if st = 2 ∧ d.pwr.st = .moored then (some .good, d)
  else
    match d.entryFail st with
    | some (c, i, r) =>
      let d := d.refuse c i r st false
      (some (d.refusal c i r st 0 0 false), d)
    | none =>
      let was := decide (d.pwr.st = .moored)
      if st = 2 then
        let (id, d) := d.startRange .clean 0 (d.regionBlocks * 2 ^ 22 - 1) false {}
        (none, { d with pwr := { d.pwr with st := .enterMoored }, mg := { d.mg with entry := some { req := 2, path := pn, op := id } } })
      else
        (none, ({ d with pwr := { d.pwr with st := .enterLaidUp }, mg := { d.mg with entry := some { req := 3, path := pn, moored := was } } } : Dev).empty.2)

/-- The specification of C800h; a request for the state already held is no side effect (R483). -/
def powerSpec (effect : Bool) : CSpec := { opcode := 0xC800, p := true, t := true, len := some 8, effect }

/-- C800h Set Power State (R381, R483): landings at once; a device entry is prepared and answered at its commit point, or at its abort. -/
def Dev.setPower (d : Dev) (pn : Nat) (p : List Byte) : Dev :=
  let target := fld p 0 1
  let ld := fld p 1 1
  let st := fld p 2 1
  let changes := if target = 1 then decide ((d.ld ld).moored ≠ decide (st = 2)) else decide (d.pwr.st = .moored) && decide (st = 1)
  let spec := powerSpec changes
  match d.gate pn spec p.length fun r =>
      need (decide (target < 2) && rsvd p 3 5 && decide (1 ≤ st) && decide (st ≤ (if target = 1 then 2 else 3))
        && (decide (target = 0) || (decide (ld < 16) && d.on ld))
        && (match r with
            | .tenant n => decide (target = 1) && decide (ld = n)
            | _ => true)) with
  | .inl d' => d'
  | .inr _ =>
    match d.powerAct pn target ld st with
    | (some a, d') => d'.close pn spec a
    | (none, d') => d'

/-- The Moored clean is complete and the commit point passes (R485, Table 17.3): C800h succeeds, every channel changes to set B, and every
Up landing is Moored. A condition that fails at the same time wins. -/
def Dev.mooredCommit (d : Dev) : Dev :=
  match d.mg.entry with
  | some e =>
    if e.req ≠ 2 then d
    else
      match d.entryFail 2 with
      | some (c, i, r) => d.abortEntry c i r
      | none =>
        let d := d.units.foldl (fun d s => d.rangeDone s e.op) d
        if d.rangeActive e.op then d
        else
          let d := { d with mg := { d.mg with entry := none }, pwr := { d.pwr with st := .moored } }.close e.path (powerSpec true) .good
          (d.timingSet true).recompute
  | none => d

/-- The preparation of Laid-up is complete and the commit point passes (R486, R430): the Lookout's records are logged, the Tollhouse consents,
C800h succeeds, and every core island loses its power. Preparation not yet complete goes on. -/
def Dev.laidUpCommit (d : Dev) : Dev :=
  match d.mg.entry with
  | some e =>
    if e.req ≠ 3 then d
    else
      match d.entryFail 3 with
      | some (c, i, r) => d.abortEntry c i r
      | none =>
        match d.prepare with
        | (false, d) => d
        | (true, d) =>
          let d := (d.syustLogs.close e.path (powerSpec true) .good).coreOff true
          { d with boot := { d.boot with phase := .laidUp } }
  | none => d

/-- The power section of the Manifest (Table 12.14, bytes 192 to 223). -/
def Dev.powerSection (d : Dev) : List Byte :=
  let mo := d.units.foldl (fun s n => if d.ldMoored n then s + 2 ^ n else s) 0
  let thr := (d.units.filter fun c => decide (0 < d.step c)).length
  le 1 (bit d.deviceMoored) ++ le 1 d.gwy.st.code ++ le 2 mo ++ le 2 thr ++ zeros 2 ++ le 4 d.pwr.total ++ le 1 d.pwr.code ++ zeros 3
    ++ bytesOf 2 (BitVec.ofInt 16 (d.tjMax.getD 0)) ++ zeros 14

/-- C801h Get Power Status (Table 12.12). -/
def Dev.getPower (d : Dev) (pn : Nat) (p : List Byte) : Dev :=
  d.command pn { opcode := 0xC801, p := true, t := true, len := some 0 } p.length (fun _ => none) fun _ =>
    (.good (d.powerSection ++ (List.range 16).flatMap fun n => le 1 (if d.on n then bit (d.ldMoored n) else 0xFF)), d)

/-- C802h Warm Device Reset (R381, R526): it returns at once, and preparation begins. -/
def Dev.warmReset (d : Dev) (pn : Nat) (p : List Byte) : Dev :=
  d.command pn { opcode := 0xC802, p := true, len := some 8, effect := true } p.length
    (fun _ => need (decide (fld p 0 2 = 0x5752) && rsvd p 2 6))
    fun _ =>
      if d.mg.warm.isSome || d.mg.entry.isSome then (.bad .busy 0x0030 d.stateCode 1, d)
      else (.good, { d with mg := { d.mg with warm := some d.time } })

/-- Write a reset marker to the persistent log (R533). -/
def Dev.logMark (d : Dev) (m : Nat × Nat × Nat) : Dev := { d with plog := d.plog.add 5 none [m.1, m.2.1, m.2.2] 24 }

/-- Preparation of a warm device reset is complete (R526, Table 19.5): records logged, the marker written, every landing reset, every channel in
self-refresh, every core island reset, and the Tollhouse reset released. Preparation that is not complete goes on. -/
def Dev.warmDone (d : Dev) : Dev :=
  if d.mg.warm.isNone then d
  else
    match d.prepare with
    | (false, d) => d
    | (true, d) =>
      if d.fmnBusy || d.tlhBusy then d
      else
        let d := ((d.syustLogs.logMark (0x10, 0, d.time)).coreOff false).beginStart .warm .trust 0x10 0
        { d with boot := { d.boot with marks := d.boot.marks.dropLast } }

/-- Preparation has not finished 200 ms after C802h (R527): the reset becomes a cold one, and the boot nonce is cleared. -/
def Dev.warmEscalate (d : Dev) : Dev :=
  if d.mg.warm.isNone then d
  else
    let up := !d.fmnBusy
    let d := if up then d.logMark (4, 0, d.time) else d
    let d := d.coldOff.beginStart .escCold .trust 4 0
    if up then { d with boot := { d.boot with marks := d.boot.marks.dropLast } } else d

/-- C803h Get Gangway Status (Table 12.12). -/
def Dev.getGangway (d : Dev) (pn : Nat) (p : List Byte) : Dev :=
  let g := d.gwy
  let fl := bit g.pg + bit g.flt * 2 + bit g.disc * 4 + bit (decide (g.st = .latched)) * 8
  let tj := (List.range 4).flatMap fun k => bytesOf 2 (BitVec.ofInt 16 (d.fetTemp k).floor)
  d.command pn { opcode := 0xC803, p := true, len := some 0 } p.length (fun _ => none) fun _ =>
    (.good (le 2 g.vin ++ le 2 g.vout ++ le 2 (g.iin / 10) ++ zeros 2 ++ tj ++ le 1 g.st.code ++ le 1 fl ++ le 1 g.retries ++ le 1 g.lastfault
      ++ zeros 12), d)

end Sys2Proof.Machine
end

