-- ==== Sys2Proof/Machine/Manifest.lean ====
section
/-! DEFINITION. The Manifest, C900h (R383 to R386, Tables 12.14 and 12.15). -/
namespace Sys2Proof.Machine

/-- The boot directory in force (R530): the copy that passes CHECK with the higher DSEQ; A and no pending bank when neither passes. -/
def Flash.dir (f : Flash) : BootDir :=
  if f.dir0.ok && (!f.dir1.ok || decide (f.dir1.dseq ≤ f.dir0.dseq)) then f.dir0 else if f.dir1.ok then f.dir1 else {}

/-- Write the boot directory: the other copy, DSEQ incremented (R530). -/
def Flash.setDir (f : Flash) (u : BootDir → BootDir) : Flash :=
  let x := { u f.dir with ok := true, dseq := (f.dir.dseq + 1) % 2 ^ 32 }
  if f.dir0.ok && (!f.dir1.ok || decide (f.dir1.dseq ≤ f.dir0.dseq)) then { f with dir1 := x } else { f with dir0 := x }

/-- A firmware bank: 0 A, 1 B. -/
def Flash.bank (f : Flash) (b : Nat) : Bank := if b = 0 then f.bankA else f.bankB

/-- Syust version in a bank (Table 12.14). -/
def Flash.syVer (f : Flash) (b : Nat) : Nat :=
  match (f.bank b).sy with
  | some i => i.ver.toNat
  | none => 0

/-- Fused anti-rollback counts (Table 14.6): bits set of ARBF and ARBT. -/
def Dev.arbf (d : Dev) : Nat := popcount (d.fz.extractLsb' 128 64)
def Dev.arbt (d : Dev) : Nat := popcount (d.fz.extractLsb' 192 32)

/-- A set of unit numbers as a mask. -/
def maskOf (ns : List Nat) : Nat := ns.foldl (fun s n => s + 2 ^ n) 0

/-- A landing entry (Table 12.15). -/
def Dev.landingEntry (d : Dev) (n : Nat) : List Byte :=
  let l := d.ld n
  let fl := word [(0, bit (d.bg n).hostok), (1, d.p (0x200 + n)), (2, bit l.acc.biEn), (3, bit l.acc.dec.committed), (4, bits (d.p 0x1E1) n 1)]
  le 4 (d.lnkstat n) ++ le 4 (d.crdpool n) ++ le 2 ((d.recList.filter fun r => decide (r.2.ld = n)).length) ++ le 2 (d.deliv .i n) ++ le 1 fl
    ++ le 1 l.coh.board.length ++ le 1 (bit (d.ldMoored n)) ++ zeros 1 ++ d.lblmap n

/-- A channel entry (Table 12.15). -/
def Dev.channelEntry (d : Dev) (c : Nat) : List Byte :=
  let x := d.ch c
  le 4 (d.drcStat c) ++ le 4 (if x.st = .fenced then 0 else x.free) ++ le 1 (d.tideByte c) ++ zeros 1 ++ le 2 (d.ms c).cappois.toNat
    ++ le 4 (d.singles c) ++ le 8 x.errReg ++ le 4 (d.poolGran c) ++ le 4 x.repairReg

/-- A slice entry (Table 12.15). -/
def Dev.sliceEntry (d : Dev) (n : Nat) : List Byte :=
  let s := d.ms n
  le 8 s.wharf.statReg ++ le 4 s.wharf.waysReg ++ zeros 4 ++ le 8 s.stw ++ le 8 s.sl.reg ++ le 8 s.filt.sfstat ++ zeros 8

/-- A share-group item (Table 12.15). -/
def Dev.groupItem (d : Dev) (g : Nat) : List Byte :=
  let rs := (d.recList.filter fun r => r.2.shared && decide (r.2.share = g)).map (·.2)
  let bl := (rs.flatMap (·.blocks)).eraseDups
  let mine := fun (e : FEnt) => decide (e.sector / 2 ^ 20 ∈ bl)
  let adr := d.slc.foldl (fun s x => s + adriftIn (((x.2.filt.ents.map (·.2)).filter fun e => e.valid && mine e) ++ x.2.filt.store.filter mine)) 0
  let r := rs.headD {}
  le 2 g ++ le 2 rs.length ++ le 4 bl.length ++ le 4 adr ++ le 2 r.ctx ++ le 1 (bit r.near) ++ zeros 1

/-- Live share groups, in SHAREID order. -/
def Dev.groups (d : Dev) : List Nat := (((d.recList.filter fun r => r.2.shared).map (·.2.share)).eraseDups).mergeSort

/-- Unacknowledged records of a level-4 slice (R565): those whose path reaches level 4. -/
def Dev.unackOf (d : Dev) (i : Nat) : List FRec :=
  d.lko.recs.filter fun r => !r.ack && decide (r.path.depth ≤ 4) && decide (r.path.slice = i)

/-- A SLICEFLT byte (Table 12.14); a slice is fenced with its landing, its Wharf slice or its channel. -/
def Dev.sliceFlt (d : Dev) (i : Nat) : Nat :=
  let u := d.unackOf i
  let f := if i < 16 then (d.ld i).link.fenced else if i < 32 then (d.ms (i - 16)).wharf.fenced || decide ((d.ch (i - 16)).st = .fenced) else false
  (u.map (·.fin.n)).foldl max 0 + bit f * 8 + min 15 u.length * 16

/-- The BARGE word of a channel (Table 12.14). -/
def Dev.bargeWord (d : Dev) (n : Nat) : List Byte :=
  let b := d.bg n
  le 1 (word [(0, b.st.code), (3, b.owner.code), (5, b.pri), (7, bit b.enable)]) ++ le 1 b.cls ++ le 1 b.lastcode ++ zeros 1

/-- Contexts in a state and of a kind. -/
def Dev.ctxCount (d : Dev) (f : CtxRec → Bool) : Nat := (d.ctx.filter fun c => f c.2).length

/-- The stream a role sees, with NREC, NGRP, NCTX (R385, R386). -/
def Dev.stream (d : Dev) (r : Role) : List Byte × Nat × Nat × Nat :=
  let recs : List (Nat × ExtRec) := match r with
    | .tenant n => d.recList.filter fun x => decide (x.2.ld = n)
    | _ => d.recList
  let gs := match r with
    | .tenant _ => []
    | _ => d.groups
  let cs := match r with
    | .tenant n => d.ctxSeen (.tenant n)
    | x => d.ctxSeen x
  ((recs.flatMap fun x => x.2.enc) ++ gs.flatMap d.groupItem ++ cs.flatMap d.ctxItem, recs.length, gs.length, cs.length)

/-- The device section of part 0 (Table 12.14, offsets 64 to 127). -/
def Dev.deviceSection (d : Dev) (full : Bool) : List Byte :=
  let own := fun (n v : Nat) => if full then le n v else zeros n
  le 1 (bit d.codeH) ++ le 1 d.stateCode ++ le 1 (word [(0, bit d.active), (1, bit d.sealEn), (2, bit d.sealSh)]) ++ zeros 1
    ++ le 2 (maskOf d.units) ++ le 2 (maskOf (d.units.filter d.chOk)) ++ le 1 (d.p 0x101) ++ le 1 d.mg.pold ++ zeros 6
    ++ own 8 d.installed ++ own 4 d.nominal ++ own 4 d.usedBlocks ++ own 4 d.pm.segs ++ own 4 d.sealedBlocks.length
    ++ le 1 d.tepochReg ++ zeros 3 ++ le 4 d.tele.epoch ++ le 2 (d.deliv .w 0) ++ le 2 (d.deliv .q 0) ++ zeros 12

/-- The firmware section (Table 12.14, offsets 128 to 191). -/
def Dev.fwSection (d : Dev) : List Byte :=
  le 8 (d.flash.syVer 0) ++ le 8 (d.flash.syVer 1) ++ le 1 d.boot.bank ++ le 1 d.flash.dir.pend ++ zeros 2 ++ le 4 d.arbf
    ++ le 8 d.tlh.fw.ver.toNat ++ le 4 d.tlh.log.length ++ le 4 d.tlh.restarts ++ le 4 d.fmn.restarts ++ zeros 20

/-- Offsets 4096 to 4607 (Table 12.14): counts, unacknowledged records, SLICEFLT, BARGE. -/
def Dev.countSection (d : Dev) (own : Option Nat) (nrec ngrp nctx : Nat) : List Byte :=
  let full := own.isNone
  let num := fun (n v : Nat) => if full then le n v else zeros n
  let sees := fun i => match own with
    | some n => decide (i = n)
    | none => true
  let unack := fun c => (d.lko.recs.filter fun r => !r.ack && decide (r.fin = c)).length
  le 4 nrec ++ le 4 ngrp ++ le 4 nctx ++ num 2 (d.ctxCount fun c => decide (c.st = .enabled) && !c.sld)
    ++ num 2 (d.ctxCount fun c => decide (c.st = .enabled) && c.sld) ++ num 2 (d.ctxCount fun c => decide (c.st = .awaiting))
    ++ num 2 (d.ctxCount fun c => decide (c.st = .enabled) && c.nodma) ++ num 4 d.adriftAll ++ zeros 8
    ++ ([FCls.corrected, .deferred, .contained, .fatal].flatMap fun c => num 4 (unack c))
    ++ num 4 (d.lko.recs.filter fun r => !r.logged).length ++ num 4 d.lko.overflow ++ zeros 8
    ++ ((List.range 64).flatMap fun i => le 1 (if sees i && decide (i < 38) then d.sliceFlt i else 0))
    ++ ((List.range 64).flatMap fun i => if sees i then d.bargeWord i else zeros 4) ++ zeros 128

/-- Part 0 and the stream of a snapshot (R385, R386); CHECK covers part 0 with itself taken as zero. -/
def Dev.snapshot (d : Dev) (r : Role) (gen : Nat) : List Byte × List Byte :=
  let own := match r with
    | .tenant n => some n
    | _ => none
  let full := own.isNone
  let sees := fun i => match own with
    | some n => decide (i = n)
    | none => true
  let (st, nrec, ngrp, nctx) := d.stream r
  let view := match own with
    | some n => 128 + n
    | none => 0
  let cls := fun c => match own with
    | some n => decide (c ∈ (d.ld n).classes)
    | none => true
  let head := le 2 1 ++ le 1 view ++ le 1 (1 + (st.length + 65535) / 65536) ++ le 4 gen ++ le 8 d.time ++ le 4 d.mg.stateseq ++ le 4 27136
    ++ le 4 st.length ++ le 4 (crc32c st) ++ zeros 28
  let units := ((List.range 16).flatMap fun n => if sees n then d.landingEntry n else zeros 32)
    ++ ((List.range 16).flatMap fun c => if full then d.channelEntry c else zeros 32)
    ++ ((List.range 16).flatMap fun n => if full then d.sliceEntry n else zeros 48)
    ++ ((List.range 64).flatMap fun c => if cls c then d.classItem c else zeros 32)
  let rest := d.deviceSection full ++ d.fwSection ++ d.powerSection ++ zeros 32 ++ units ++ d.countSection own nrec ngrp nctx
    ++ (if full then (List.range 2816).flatMap fun i => le 8 (d.p i) else zeros 22528)
  (head ++ le 4 (crc32c (head ++ zeros 4 ++ rest)) ++ rest, st)

/-- Part `k` of a snapshot (Table 12.13). -/
def Snap.part (s : Snap) (k : Nat) : List Byte := if k = 0 then s.part0 else (s.stream.drop ((k - 1) * 65536)).take 65536

/-- C900h Manifest (R383, R384). -/
def Dev.manifest (d : Dev) (pn : Nat) (p : List Byte) : Dev :=
  let gen := fld p 0 4
  let part := fld p 4 1
  let off := fld p 6 2 * 256
  let held := (d.path pn).snap
  d.command pn { opcode := 0xC900, p := true, t := true, o := true, len := some 8 } p.length
    (fun _ => need (rsvd p 5 1 && (decide (gen ≠ 0) || decide (off = 0))))
    fun r =>
      if gen = 0 then
        let g := if d.mg.gen + 1 < 2 ^ 32 then d.mg.gen + 1 else 1
        let (part0, stream) := d.snapshot r g
        let d := { d with mg := { d.mg with gen := g } }.modPath pn fun x => { x with snap := some { gen := g, read := d.time, part0, stream } }
        (.good (part0.take (d.limitOf pn)), d)
      else
        match held with
        | none => (.bad .unsupported 0x000B 0 0 gen 0, d)
        | some s =>
          if s.gen ≠ gen then (.bad .unsupported 0x000B 0 0 gen s.gen, d)
          else
            let bytes := s.part part
            if (s.stream.length + 65535) / 65536 < part ∨ bytes.length ≤ off then (.invalid, d)
            else (.good ((bytes.drop off).take (d.limitOf pn)), d.modPath pn fun x => { x with snap := some { s with read := d.time } })

/-- A path's snapshot that has not been read for 60 s is dropped (R384). -/
def Dev.snapExpiry (d : Dev) (pn : Nat) : Dev :=
  match (d.path pn).snap with
  | some s => if s.read + 60000000000 ≤ d.time then d.modPath pn fun x => { x with snap := none } else d
  | none => d

end Sys2Proof.Machine
end

