-- ==== Sys2Proof/Machine/CmdParam.lean ====
section
/-! DEFINITION. C901h Get Parameter, C902h Set Parameter, C903h Get Persistent Log (R54, R136, R137, R192, R382, R383, R388 to R397, R400, R496). -/
namespace Sys2Proof.Machine

/-- A field of the sensed fuse map. -/
def Dev.fuse (d : Dev) (lo len : Nat) : Nat := bits d.fz.toNat lo len

/-- The parameter is fixed by fuse (R396, Tables 13.1 and 14.6). -/
def Dev.fixed (d : Dev) (id : Nat) : Bool :=
  match paramInfo id with
  | none => false
  | some i =>
    decide (i.eff = .fuse) || (decide (id = 0x83) && decide (d.fuse 72 12 ≠ 0)) || (decide (0xD0 ≤ id) && decide (id ≤ 0xDF) && decide (d.fuse 96 1 = 1))
      || (decide (id = 0x240) && decide (d.fuse 52 1 = 1)) || (decide (id = 0x1E2) && decide (d.dbgLock = 3))

/-- The value is above a fused ceiling (R396): ILIMMAX, in 100 mA, on p00C1. -/
def Dev.overCeiling (d : Dev) (id v : Nat) : Bool := decide (id = 0xC1) && decide (d.fuse 84 12 ≠ 0) && decide (d.fuse 84 12 * 100 < v)

/-- The value lies in the range and on the step its entry gives (R389, R400). -/
def inRange (id v : Nat) : Bool :=
  match paramInfo id with
  | none => false
  | some i =>
    if i.eff = .fuse then true
    else
      let x := sInt v
      let base := (if i.only.isEmpty then decide (i.lo ≤ x) && decide (x ≤ i.hi) && decide (x % i.step = 0) else decide (v ∈ i.only)) || decide (i.also = some v)
      base && (if 0x300 ≤ id then
        (match sourceInfo (id - 0x300) with
         | some s => decide (v % 8 = 0) || (decide (s.cls.n ≤ v % 8) && decide (v % 8 ≤ 4))
         | none => false) else true)

/-- The parameter that a value conflicts with under the values `v` that will stand together, FFFFh when no single one (R54, R136, R137, R393,
R496, Tables 9.10 and 13.2). -/
def conflict (v : Nat → Nat) (id : Nat) : Option Nat :=
  let lt := fun (a b : Nat) => if v a < v b then none else some (if id = a then b else a)
  let le' := fun (a b : Nat) => if v a ≤ v b then none else some (if id = a then b else a)
  let mv := v 0xC0 * v 0xC1
  if id = 0x82 ∨ id = 0x83 then lt 0x82 0x83
  else if id = 0xC5 ∨ id = 0xC6 then lt 0xC6 0xC5
  else if id = 0xC0 ∨ id = 0xC1 then (if 5000000 ≤ mv ∧ mv ≤ 50000000 then none else some (if id = 0xC0 then 0xC1 else 0xC0))
  else if 0x120 ≤ id ∧ id ≤ 0x125 then
    (if v 0x120 + v 0x121 + v 0x122 + v 0x123 + v 0x124 + v 0x125 ≤ 2048 then none else some 0xFFFF)
  else if id = 0x160 ∨ id = 0x170 then (if 2 * v 0x160 ≤ v 0x170 then none else some (if id = 0x160 then 0x170 else 0x160))
  else if 0x161 ≤ id ∧ id ≤ 0x164 then
    (if 0x161 < id ∧ v (id - 1) ≤ v id then some (id - 1) else if id < 0x164 ∧ v id ≤ v (id + 1) then some (id + 1) else none)
  else if id = 0x193 ∨ id = 0x194 then lt 0x194 0x193
  else if id = 0x199 ∨ id = 0x19A then le' 0x199 0x19A
  else none

/-- The value of a parameter after the next reset: pending where it has one (R393). -/
def Dev.later (d : Dev) (id : Nat) : Nat := (tget none d.mg.pend id).getD (d.p id)

/-- Region register of scratch that grants access to a way ordinal from `m` on (R192). -/
def Dev.regionUses (d : Dev) (m : Nat) : Option Nat :=
  (List.range 16).find? fun k =>
    let r := d.region 3 k
    let grants := bits r.toNat 64 4 ≠ 0 ∨ bits r.toNat 72 10 ≠ 0
    let hit := d.units.any fun s => (List.range 8).any fun o =>
      decide (m ≤ o) && decide (o < d.p 0x171) && decide (rgnBase r < (8 * s + o + 1) * 256) && decide ((8 * s + o) * 256 ≤ rgnLimit r)
    rgnValid r && decide grants && hit

/-- Everything that follows when a live value has changed (R391): the conversion of p0171, tides, force bits, PTM, the current limit. -/
def Dev.afterSet (d : Dev) (id old : Nat) : Dev :=
  let v := d.p id
  if v = old then d
  else if id = 0x171 then d.startConv v
  else if 0x161 ≤ id ∧ id ≤ 0x164 then d.units.foldl (fun d c => d.retide c) d
  else if id = 0x1E2 ∧ v = 1 then (d.lko.src.filter fun s => s.2.force).foldl (fun d s => d.forced s.1) d
  else if id = 0x221 then { d with tele := { d.tele with sync := false, src := 0xFF, slew := 0, slewAge := 0 } }
  else if id = 0xC1 then d.limitOn d.gwy.iin
  else d

/-- When a parameter takes effect, live for a reserved ID. -/
def effOf (id : Nat) : Eff :=
  match paramInfo id with
  | some i => i.eff
  | none => .live

/-- Write one checked value: live at once, otherwise pending; both go to the store (R391 to R394). -/
def Dev.setOne (d : Dev) (id v : Nat) : Dev :=
  let old := d.p id
  let d := { d with mg := { d.mg with store := tput none d.mg.store id (some v) } }
  match effOf id with
  | .live => (d.setP id v).afterSet id old
  | .lr => { d with mg := { d.mg with pend := tput none d.mg.pend id (some v), lrWait := tput [] d.mg.lrWait id d.units } }
  | _ => { d with mg := { d.mg with pend := tput none d.mg.pend id (some v) } }

/-- The items of a C902h payload. -/
def paramItems (p : List Byte) (n : Nat) : List (Nat × Nat) := (List.range n).map fun i => (fld p (8 + 16 * i) 2, fld p (16 + 16 * i) 8)

/-- C902h Set Parameter (R382): every item's range and constraint, then every item's fuse and role, then all of them. -/
def Dev.setParam (d : Dev) (pn : Nat) (p : List Byte) : Dev :=
  let n := fld p 0 2
  let xs := paramItems p n
  let val := fun id => ((xs.reverse.find? fun x => decide (x.1 = id)).map (·.2)).getD (d.later id)
  let bad4 := xs.findSome? fun x =>
    if !inRange x.1 x.2 then some (Ans.bad .invalidInput 0x0021 0 0 x.1 0xFFFF) else (conflict val x.1).map fun c => .bad .invalidInput 0x0021 0 0 x.1 c
  let op := match d.role pn with
    | .operator => true
    | _ => false
  let opw := fun id => match paramInfo id with
    | some i => i.opw
    | none => false
  let bad5 := xs.findSome? fun x =>
    if d.fixed x.1 || d.overCeiling x.1 x.2 then some (Ans.bad .unsupported 0x0020 0 0 x.1)
    else if op && !opw x.1 then some (.bad .unsupported 0x0022 0 0 x.1) else none
  let live := (xs.filter fun x => decide (effOf x.1 = .live)).length
  let m := val 0x171
  d.command pn { opcode := 0xC902, p := true, o := true, len := some (8 + 16 * n), effect := true } p.length
    (fun _ => if !(decide (1 ≤ n) && decide (n ≤ 64) && rsvd p 2 6 && (List.range n).all fun i => rsvd p (10 + 16 * i) 6) then some .invalid else bad4)
    fun _ =>
      match bad5 with
      | some a => (a, d)
      | none =>
        if m ≠ d.p 0x171 ∧ d.mg.convTo.isSome then (.bad .busy 0x0009 0 0 0xC902, d)
        else
          match if m < d.p 0x171 then d.regionUses m else none with
          | some k => (.bad .unsupported 0x0007 0 0 k, d)
          | none => (.good (le 2 live ++ le 2 (n - live) ++ zeros 4), xs.foldl (fun d x => d.setOne x.1 x.2) d)

/-- The landing-scoped parameters of a landing (R397). -/
def ownParam (ld id : Nat) : Bool :=
  (decide (0x100 ≤ id) && decide (id ≤ 0x126)) || decide (id ∈ [0x150 + ld, 0x1C0 + ld, 0x1D0 + ld, 0x200 + ld, 0x210 + ld])

/-- A C901h item (Table 12.13). -/
def Dev.paramItem (d : Dev) (r : Role) (id : Nat) : List Byte :=
  let seen := match r with
    | .tenant n => ownParam n id
    | _ => true
  match paramInfo id, seen with
  | some i, true =>
    let fl := bit (tget none d.mg.pend id).isSome + bit (d.fixed id) * 2 + bit i.opw * 4
    le 2 id ++ le 1 fl ++ zeros 5 ++ le 8 (d.p id) ++ le 8 (d.later id)
  | _, _ => le 2 id ++ zeros 22

/-- C901h Get Parameter (R382, R383, R390). -/
def Dev.getParam (d : Dev) (pn : Nat) (p : List Byte) : Dev :=
  let first := fld p 0 2
  let n := fld p 2 2
  d.command pn { opcode := 0xC901, p := true, t := true, o := true, len := some 8 } p.length
    (fun _ => need (decide (1 ≤ n) && decide (n ≤ 2730) && decide (first + n ≤ 2816) && rsvd p 4 4))
    fun r =>
      let k := d.fit pn 24 n
      (.good (le 2 k ++ zeros 6 ++ (List.range k).flatMap fun i => d.paramItem r (first + i)), d)

/-- As many whole entries as fit a number of bytes. -/
def fitEntries : Nat → List PLog → List PLog
  | _, [] => []
  | left, e :: es => if e.enc.length ≤ left then e :: fitEntries (left - e.enc.length) es else []

/-- C903h Get Persistent Log (R383, R463). -/
def Dev.getPlog (d : Dev) (pn : Nat) (p : List Byte) : Dev :=
  let first := fld p 0 4
  let most := fld p 4 4
  d.command pn { opcode := 0xC903, p := true, len := some 8 } p.length
    (fun _ => need (decide (most ≤ 65528)))
    fun _ =>
      let all := d.plog.ents.filter fun e => decide (first ≤ e.lseq)
      let got := fitEntries (min most (d.limitOf pn - 8)) all
      let out := got.flatMap PLog.enc
      let next := match got.getLast? with
        | some e => e.lseq + 1
        | none => first
      (.good (le 4 next ++ le 4 out.length ++ out), d)

end Sys2Proof.Machine
end

