-- ==== Sys2Proof/Machine/CmdStd.lean ====
section
/-! DEFINITION. The standard commands of Table 12.7 but for firmware: identity, background operations, limits, events, time, logs, features,
maintenance, memory identity and health, poison, scan, sanitize (R361, R366, R367, R369, R478). What a CXL payload says stands as numbers;
opcodes are those of CXL 3.1 (PRESUMED, log 21). -/
namespace Sys2Proof.Machine

/-- A command of the device: opcode, the roles that may issue it, and CCI only. -/
def cmdRow (opcode : Nat) (p t o : Bool) (cci : Bool := false) : CSpec := { opcode, p, t, o, cci }

/-- Standard commands (Table 12.7). -/
def stdTable : List CSpec :=
  let all := fun n => cmdRow n true true false
  let own := fun n => cmdRow n true false false
  let ten := fun n => cmdRow n false true false
  [all 0x0001, all 0x0002, cmdRow 0x0003 true false false true, cmdRow 0x0004 true false false true, all 0x0005,
   all 0x0100, all 0x0101, all 0x0102, all 0x0103, all 0x0200, own 0x0201, own 0x0202, all 0x0300, own 0x0301, all 0x0400, all 0x0401,
   own 0x0500, own 0x0501, own 0x0502, own 0x0600, all 0x4000, all 0x4200, all 0x4201, own 0x4202, all 0x4300, all 0x4301, all 0x4302,
   all 0x4303, all 0x4304, all 0x4305, own 0x4400, ten 0x4800, ten 0x4801, ten 0x4802, ten 0x4803, own 0x5500, own 0x5501,
   own 0x5600, own 0x5601, own 0x5602, own 0x5603, own 0x5604, own 0x5605, own 0x5606, own 0x5607, own 0x5608]

/-- Rhaboind commands (Table 12.5). -/
def rhaTable : List CSpec :=
  let p := fun n => cmdRow n true false false
  let pt := fun n => cmdRow n true true false
  let po := fun n => cmdRow n true false true
  let pto := fun n => cmdRow n true true true
  [p 0xC400, pto 0xC401, p 0xC402, po 0xC403, po 0xC404, po 0xC405, po 0xC406, po 0xC407, p 0xC408, p 0xC409, p 0xC40A, po 0xC40B,
   p 0xC500, p 0xC501, pto 0xC502, p 0xC503, p 0xC504, p 0xC600, pto 0xC601, p 0xC602, po 0xC603,
   p 0xC700, p 0xC701, p 0xC702, p 0xC703, p 0xC704, p 0xC705, pt 0xC800, pt 0xC801, p 0xC802, p 0xC803,
   pto 0xC900, pto 0xC901, po 0xC902, p 0xC903]

/-- Every command the device supports (R366). -/
def cmdTable : List CSpec := stdTable ++ rhaTable

/-- A standard command's specification, its roles as the table gives them; the payload's length is the typed operands' own. -/
def stdSpec (opcode : Nat) (active effect : Bool) : CSpec :=
  { ((stdTable.find? fun c => decide (c.opcode = opcode)).getD { opcode }) with active, effect }

/-- A standard command: its checks and effect. -/
def Dev.std1 (d : Dev) (pn opcode : Nat) (active effect : Bool) (fields : Role → Option Ans) (act : Role → Ans × Dev) : Dev :=
  d.command pn (stdSpec opcode active effect) 0 fields act

/-- A command with an opcode not supported, or not permitted to the role (R358 check 2); a supported and permitted one is no such command. -/
def Dev.unsupported (d : Dev) (pn opcode : Nat) : Dev :=
  match cmdTable.find? fun c => decide (c.opcode = opcode) with
  | some c =>
    if c.permits (d.role pn) pn then d
    else
      match d.gate pn c (c.len.getD 0) fun _ => none with
      | .inl d' => d'
      | .inr _ => d
  | none => d.command pn { opcode, p := true, t := true, o := true } 0 (fun _ => none) fun _ => (.bad .unsupported, d)

/-- Identify: serial number, block count of the region, largest payload. -/
def Dev.identify (d : Dev) (pn : Nat) : Dev :=
  d.std1 pn 0x0001 false false (fun _ => none) fun _ => (.good [] [Config.serial.toNat, d.limitOf pn], d)

/-- Number of a return code (CXL 3.1, PRESUMED, log 21). -/
def RC.code : RC → Nat
  | .success => 0
  | .bgStarted => 1
  | .invalidInput => 2
  | .unsupported => 3
  | .retry => 5
  | .busy => 6
  | .rolledBack => 0xC
  | .poisonLimit => 0x10
  | .aborted => 0x12
  | .invalidLength => 0x16
  | .resources => 0x1D
  | .invalidExtents => 0x1E

/-- Background Operation Status (R361): running, opcode and a progress the spec does not fix; or over, opcode and final code. -/
def Dev.bgStatus (d : Dev) (pn : Nat) : Dev :=
  let x := d.path pn
  d.std1 pn 0x0002 false false (fun _ => none) fun _ =>
    match x.bg with
    | some b =>
      let (n, d) := d.draw
      (.good [] [1, b.opcode, Config.openNat n % 100], d)
    | none => (.good [] (match x.last with
        | some (o, rc) => [0, o, rc.code]
        | none => [0, 0, 0]), d)

/-- The abort stops this operation (R361). -/
def BgOp.aborts : BgOp → Bool
  | .audit _ _ => true
  | .rekey _ _ _ _ => true
  | .retrain _ => true
  | .scan _ _ => true
  | _ => false

/-- Request Abort Background Operation (R361): the operation completes with Aborted at its next page or step; another operation refuses. -/
def Dev.bgAbort (d : Dev) (pn : Nat) : Dev :=
  d.std1 pn 0x0005 false (d.path pn).bg.isSome (fun _ => none) fun _ =>
    match (d.path pn).bg with
    | some b => if b.op.aborts then (.good, d.endBg pn .aborted) else (.bad .busy, d)
    | none => (.good, d)

/-- Get Response Message Limit: log2 of the limit. -/
def Dev.getLimit (d : Dev) (pn : Nat) : Dev :=
  d.std1 pn 0x0003 false false (fun _ => none) fun _ => (.good [] [Nat.log2 (d.limitOf pn)], d)

/-- Set Response Message Limit (Table 12.7): 2^n bytes, 256 B to 64 KiB. -/
def Dev.setLimit (d : Dev) (pn n : Nat) : Dev :=
  d.std1 pn 0x0004 false true (fun _ => need (decide (8 ≤ n) && decide (n ≤ 16))) fun _ =>
    (.good [] [n], d.modPath pn fun x => { x with limit := some (2 ^ n) })

/-- Logs a role reads: its landing's, or the device's (Table 12.7). -/
def Dev.logsOf (d : Dev) : Role → Logs
  | .tenant n => d.hostLogs n
  | _ => d.pool

/-- Change the logs of a role. -/
def Dev.modLogs (d : Dev) (r : Role) (f : Logs → Logs) : Dev :=
  match r with
  | .tenant n => { d with logs := tmod {} d.logs n f }
  | _ => { d with pool := f d.pool }

/-- An event record as numbers. -/
def Event.vals (e : Event) : List Nat := [e.handle, e.time, e.kind.ctorIdx, e.args.length] ++ e.args

/-- Get Event Records of one log, 0 Informational to 3 Fatal, 4 Dynamic Capacity: overflow count, then the records, oldest first, as many
128 B records as fit the response. -/
def Dev.getEvents (d : Dev) (pn log : Nat) : Dev :=
  d.std1 pn 0x0100 false false (fun _ => need (decide (log < 5))) fun r =>
    let l := d.logsOf r
    let es := (l.evs.filter fun e => decide (e.sev = log)).take (d.fit pn 128 256)
    (.good [] ([l.ovr.getD log 0, es.length] ++ es.flatMap Event.vals), d)

/-- Clear Event Records of one log: the whole log, or the records with the handles named. A log that is cleared forgets its overflow. -/
def Dev.clearEvents (d : Dev) (pn log : Nat) (all : Bool) (hs : List Nat) : Dev :=
  d.std1 pn 0x0101 false true (fun r =>
      let own := ((d.logsOf r).evs.filter fun e => decide (e.sev = log)).map (·.handle)
      need (decide (log < 5) && (all || hs.all fun h => decide (h ∈ own)))) fun r =>
    let gone := fun (e : Event) => decide (e.sev = log) && (all || decide (e.handle ∈ hs))
    (.good, d.modLogs r fun l => { l with evs := l.evs.filter fun e => !gone e, ovr := l.ovr.set log 0 })

/-- Get Event Interrupt Policy. -/
def Dev.getPolicy (d : Dev) (pn : Nat) : Dev :=
  d.std1 pn 0x0102 false false (fun _ => none) fun r => (.good [] (d.logsOf r).policy, d)

/-- Set Event Interrupt Policy: one setting per log, 0 none, 1 MSI-X. -/
def Dev.setPolicy (d : Dev) (pn : Nat) (vs : List Nat) : Dev :=
  d.std1 pn 0x0103 false true (fun _ => need (decide (vs.length = 5) && vs.all fun v => decide (v < 4))) fun r =>
    (.good, d.modLogs r fun l => { l with policy := vs })

/-- A new counter epoch (R472): page totals and accumulators are cleared, and a new window begins. -/
def Dev.newEpoch (d : Dev) : Dev :=
  let pages := d.tele.pages.map fun x => (x.1, ({ x.2 with window := 0, rdT := 0, wrT := 0 } : CPage))
  let acc : Tbl Acc := d.ctr.foldl (fun t x => tput {} t (x.1 / 2) { start := pairValue d.ctr (x.1 / 2) }) []
  let fresh := fun (m : Meter) => ({ m with rd := 0, wr := 0 } : Meter)
  { d with tele := { d.tele with epoch := (d.tele.epoch + 1) % 2 ^ 32, pages, acc
                                 ldm := d.tele.ldm.map fun x => (x.1, fresh x.2)
                                 chm := d.tele.chm.map fun x => (x.1, fresh x.2) } }

/-- Step device time (R478). -/
def Dev.stepTime (d : Dev) (t : Nat) : Dev := ({ d with time := t, tele := { d.tele with stepped := true, slew := 0, slewAge := 0 } } : Dev).newEpoch

/-- Get Timestamp. -/
def Dev.getTime (d : Dev) (pn : Nat) : Dev := d.std1 pn 0x0300 false false (fun _ => none) fun _ => (.good [] [d.time], d)

/-- Set Timestamp (R478): refused while device time is PTM-synchronised. -/
def Dev.setTime (d : Dev) (pn : Nat) (t : BitVec 64) : Dev :=
  d.std1 pn 0x0301 false true (fun _ => none) fun _ =>
    if d.tele.sync then (.bad .unsupported 0x0031, d) else (.good, d.stepTime t.toNat)

/-- Get Supported Logs: the Command Effects Log alone. -/
def Dev.supportedLogs (d : Dev) (pn : Nat) : Dev := d.std1 pn 0x0400 false false (fun _ => none) fun _ => (.good [] [1, cmdTable.length], d)

/-- Get Log of the Command Effects Log (`cel`): exactly the commands of the two tables (R366). -/
def Dev.getLog (d : Dev) (pn : Nat) (cel : Bool) : Dev :=
  d.std1 pn 0x0401 false false (fun _ => need cel) fun _ => (.good [] (cmdTable.map (·.opcode)), d)

/-- Get Supported Features: 0 sPPR, 1 hPPR, 2 memory sparing (Table 12.7). -/
def Dev.supportedFeatures (d : Dev) (pn : Nat) : Dev := d.std1 pn 0x0500 false false (fun _ => none) fun _ => (.good [] [0, 1, 2], d)

/-- Get Feature. -/
def Dev.getFeature (d : Dev) (pn k : Nat) : Dev :=
  d.std1 pn 0x0501 false false (fun _ => need (decide (k < 3))) fun _ => (.good (tget [] d.mg.feats k), d)

/-- Set Feature. -/
def Dev.setFeature (d : Dev) (pn k : Nat) (v : List Byte) : Dev :=
  d.std1 pn 0x0502 false true (fun _ => need (decide (k < 3))) fun _ => (.good, { d with mg := { d.mg with feats := tput [] d.mg.feats k v } })

/-- Maintenance operations a Perform Maintenance may name. -/
def maintCode (cls sub : Nat) : Option RC :=
  if cls = 1 then (if sub < 2 then none else some .invalidInput)
  else if cls = 2 then (if sub = 1 then none else if sub < 4 then some .unsupported else some .invalidInput)
  else some .invalidInput

/-- Perform Maintenance (R299, Table 12.7): class 1 PPR (0 soft, 1 hard), class 2 sparing (1 row). The row is queued for soft repair; a row
that holds used granules is retired first. -/
def Dev.performMaint (d : Dev) (pn cls sub c : Nat) (r : RowAddr) : Dev :=
  d.std1 pn 0x0600 false true (fun _ => match maintCode cls sub with
      | some rc => some (.bad rc)
      | none => need (decide (c < 16) && d.on c && decide ((d.ch c).st ≠ .absent) && decide (r.row < (d.ch c).pop.rows))) fun _ =>
    let frames := (d.usedFrames c).filter fun f => decide (f < d.frames c) && decide (d.rowOf c (f * 4096) = r)
    (.good, (frames.foldl (fun d f => d.queueRetire c f) d).queueRow c r)

/-- Identify Memory Device (Table 12.7): no volatile or persistent capacity; blocks of the region; poison-list size; injections. -/
def Dev.identifyMem (d : Dev) (pn : Nat) : Dev :=
  d.std1 pn 0x4000 false false (fun _ => none) fun _ => (.good [] [0, 0, d.regionBlocks, 512, 16], d)

/-- Get Health Info (R479): device temperature in whole °C, two's complement in 16 bits. -/
def Dev.health (d : Dev) (pn : Nat) : Dev :=
  d.std1 pn 0x4200 false false (fun _ => none) fun _ => (.good [] [(BitVec.ofInt 16 ((d.tjMax.getD 0 + 5) / 10)).toNat], d)

/-- Get Alert Configuration. -/
def Dev.getAlert (d : Dev) (pn : Nat) : Dev := d.std1 pn 0x4201 false false (fun _ => none) fun _ => (.good d.mg.alert, d)

/-- Set Alert Configuration. -/
def Dev.setAlert (d : Dev) (pn : Nat) (v : List Byte) : Dev :=
  d.std1 pn 0x4202 false true (fun _ => none) fun _ => (.good, { d with mg := { d.mg with alert := v } })

/-- The issuer's Granted records cover every block of a byte range (Table 12.7): a tenant's own; the Pool owner's are every landing's. -/
def Dev.issuerHas (d : Dev) (r : Role) (a len : Nat) : Bool :=
  decide (a + len ≤ d.regionBlocks * 2 ^ 28) && (rangeBlocks a len).all fun b => d.ext.recs.any fun x =>
    decide (x.2.st = .granted) && x.2.covers b && (match r with
      | .tenant n => decide (x.2.ld = n)
      | _ => true)

/-- Landings whose poison lists a role works on. -/
def Dev.listsOf (d : Dev) : Role → List Nat
  | .tenant n => [n]
  | _ => d.units

/-- Get Poison List (R367): the overflow flag, then the entries that lie in the range: DPA, length, injected. -/
def Dev.getPoison (d : Dev) (pn a len : Nat) : Dev :=
  d.std1 pn 0x4300 false false (fun _ => need (decide (a % 64 = 0) && decide (1 ≤ len) && decide (len % 64 = 0))) fun r =>
    let lists := (d.listsOf r).map d.hostLogs
    let es := (lists.flatMap (·.poison)).filter fun e => decide (e.1 < a + len) && decide (a < e.1 + e.2.1)
    (.good [] ([bit (lists.any (·.poisOver)), es.length] ++ es.flatMap fun e => [e.1, e.2.1, bit e.2.2]), d)

/-- Injected quads of a landing that are still poisoned (R367). -/
def Dev.injected (d : Dev) (n : Nat) : Nat :=
  ((d.hostLogs n).poison.filter fun e => e.2.2 && (d.ent (e.1 / 4096)).qpois.getLsbD (e.1 / 256 % 16)).length

/-- Inject Poison (R367): QPOIS of the address's quad, at most 16 outstanding per landing. -/
def Dev.injectPoison (d : Dev) (pn a : Nat) : Dev :=
  d.std1 pn 0x4301 true true (fun r => need (decide (a % 64 = 0) && d.issuerHas r a 64)) fun r =>
    let lds := match r with
      | .tenant n => [n]
      | _ => d.grantees (a / 2 ^ 28)
    if lds.any fun n => decide (16 ≤ d.injected n) then (.bad .poisonLimit, d)
    else
      let page := a / 4096
      let d := d.setQpois (d.homeOf page) page (BitVec.ofNat 16 (2 ^ (a / 256 % 16)))
      (.good, { d with logs := lds.foldl (fun t n => tmod {} t n fun l => l.addPoison (a / 256 * 256) poisQuad true) d.logs })

/-- Poison-list entries that a write of a line ends: the line's own, and those of its quad or page that hold no poison any more. -/
def Dev.endPoison (d : Dev) (a : Nat) (l : Logs) : Logs :=
  let q := (d.ent (a / 4096)).qpois
  let gone := fun (e : Nat × Nat × Bool) =>
    (decide (e.2.1 = 64) && decide (e.1 = a)) || (decide (e.2.1 = 256) && decide (e.1 = a / 256 * 256) && !q.getLsbD (a / 256 % 16))
      || (decide (e.2.1 = 4096) && decide (e.1 = a / 4096 * 4096) && decide (q = 0#16))
  { l with poison := l.poison.filter fun e => !gone e }

/-- Clear Poison (R367): the 64 B written to the line as a full-line host write of the issuing landing, or of the first one granted; in class 0
(DESIGN CHOICE, log 22). -/
def Dev.clearPoison (d : Dev) (pn a : Nat) (data : Line) (ph : Phys) : Dev :=
  d.std1 pn 0x4302 true true (fun r => need (decide (a % 64 = 0) && d.issuerHas r a 64)) fun r =>
    let line := a / 64
    let blk := a / 2 ^ 28
    let w : Work :=
      { ld := match r with
          | .tenant n => some n
          | _ => (d.grantees blk).head?
        req := { kind := .wr .i, data }, line, cls := 0, shared := d.sharedLine line, rdonly := false, near := d.blockNear blk, ack := true }
    let d := d.submit (d.homeOf (a / 4096)) w ph
    let d := { d with logs := (d.listsOf r).foldl (fun t n => tmod {} t n (d.endPoison a)) d.logs }
    (.good, d)

/-- Get Scan Media Capabilities of a range: an estimate in milliseconds, which the spec does not state. -/
def Dev.scanCaps (d : Dev) (pn a len : Nat) : Dev :=
  d.std1 pn 0x4303 false false (fun r => need (decide (a % 64 = 0) && decide (len % 64 = 0) && decide (1 ≤ len) && d.issuerHas r a len)) fun _ =>
    let (n, d) := d.draw
    (.good [] [Config.openNat n], d)

/-- Scan Media (R367): a background SCRUB of the range. -/
def Dev.scanMedia (d : Dev) (pn a len : Nat) : Dev :=
  d.std1 pn 0x4304 true true (fun r => need (decide (a % 64 = 0) && decide (len % 64 = 0) && decide (1 ≤ len) && d.issuerHas r a len)) fun _ =>
    d.background pn 0x4304 (fun _ => false) (.scan (a / 4096) ((a + len - 1) / 4096 + 1 - a / 4096)) fun d =>
      { d with mg := { d.mg with scans := tput [] d.mg.scans pn [] } }

/-- Get Scan Media Results: DPA and length of each error found. -/
def Dev.scanResults (d : Dev) (pn : Nat) : Dev :=
  d.std1 pn 0x4305 false false (fun _ => none) fun _ =>
    let es := tget [] d.mg.scans pn
    (.good [] (es.length :: es.flatMap fun e => [e.1, e.2]), d)

/-- The first of the Syust channels, whose class and driver a scan takes. -/
def Dev.syustCh (d : Dev) : Nat := ((List.range 64).find? fun n => decide (16 ≤ n) && decide ((d.bg n).owner = .syust)).getD 16

/-- SCRUB the pages of a scan that have storage (R341, R367): `at_` names the page that meets the outcomes `ph`; errors found are quads newly
poisoned. -/
def Dev.scanPages (d : Dev) (pn page left at_ : Nat) (ph : Phys) : Dev :=
  let pages := (d.pm.ents.map (·.1)).filter fun p => decide (page ≤ p) && decide (p < page + left)
  let x : Desc := { op := 9, src := page * 4096, len := left }
  pages.foldl (fun d p =>
    let old := (d.ent p).qpois
    let d := (d.pageDo d.syustCh x p (if p = at_ then ph else {})).2
    let new := (d.ent p).qpois &&& ~~~old
    let found := ((List.range 16).filter fun q => new.getLsbD q).map fun q => (p * 4096 + q * 256, poisQuad)
    { d with mg := { d.mg with scans := tmod [] d.mg.scans pn (· ++ found) } }) d

/-- Zero the berth pool of every channel in use (R369). -/
def Dev.zeroPools (d : Dev) : Dev :=
  let chans := d.units.filter d.chOk
  let inPool := fun (a : Nat) => decide (a / 2 ^ 44 ∈ chans) && decide (a % 2 ^ 44 < d.frames (a / 2 ^ 44) * 4096)
  { d with mem := d.mem.filter fun x => !inPool x.1 }

/-- A Wharf and seal cache with everything in them discarded (R369). -/
def Slice.discard (s : Slice) : Slice :=
  let doom := fun (m : Miss) => { m with doomed := true }
  { s with wharf := { s.wharf with lines := [], qbuf := [] }, held := [], sl := { s.sl with cache := [] }, misses := s.misses.map doom }

/-- Sanitize (R369): refused while any record is Offered or Granted, the first such record standing in the answer's object. -/
def Dev.sanitize (d : Dev) (pn : Nat) : Dev :=
  let clash := fun (b : Bg) => decide (b.op = .sanitize)
  d.std1 pn 0x4400 true true (fun _ => none) fun _ =>
    match d.recList.find? fun r => decide (r.2.st = .offered) || decide (r.2.st = .granted) with
    | some (n, r) => ({ Ans.bad .unsupported 0x0004 r.st.code 0 n r.seq.toNat with vals := [n] }, d)
    | none =>
      if d.tlhBusy then (Dev.tlhWait, d)
      else d.background pn 0x4400 clash .sanitize fun (d : Dev) =>
        let zeroed : Dev := d.zeroPools
        let d : Dev := { zeroed with slc := zeroed.slc.map fun (x : Nat × Slice) => (x.1, x.2.discard) }
        let on : List Nat := (d.ctx.filter fun (x : Nat × CtxRec) => decide (x.1 ≠ 0) && decide (x.2.st ≠ .disabled)).map (·.1)
        let d := on.foldl (fun d c => d.disableCtx c) d
        let (base, d) := d.drawKeys false
        d.keyArrives 0 base

end Sys2Proof.Machine
end

