-- ==== Sys2Proof/Machine/Spdm.lean ====
section
/-! DEFINITION. The measurement log and the SPDM responder of the Tollhouse, key import among its requests (R424 to R426, R433, R271). Message
codes are those of SPDM 1.2 and 1.3 (PRESUMED, log 23). -/
namespace Sys2Proof.Machine

/-- An entry of the measurement log (Table 14.8). -/
def Meas.bytes (m : Meas) (index : Nat) : List Byte :=
  le 4 index ++ le 1 m.kind ++ le 1 m.slot ++ zeros 2 ++ le 4 m.svn ++ zeros 4 ++ bytesOf 48 m.digest

/-- Append an entry (R424): false when the log of 4,096 entries is full. -/
def Dev.measure (d : Dev) (m : Meas) : Bool × Dev :=
  if 4096 ≤ d.tlh.log.length then (false, d) else (true, { d with tlh := { d.tlh with log := d.tlh.log ++ [m] } })

/-- The entry of a Tollhouse restart, which a full log takes in its last place (R424). -/
def Dev.measureRestart (d : Dev) (digest : BitVec 384) : Dev :=
  let m : Meas := { kind := 8, svn := d.tlh.restarts, digest }
  { d with tlh := { d.tlh with log := d.tlh.log.take 4095 ++ [m] } }

/-- The latest digest of a kind and slot. -/
def Tlh.latest (t : Tlh) (kind : Nat) (slot : Option Nat) : List Byte :=
  match (t.log.reverse).find? fun m => decide (m.kind = kind) && (match slot with
    | some s => decide (m.slot = s)
    | none => true) with
  | some m => bytesOf 48 m.digest
  | none => []

/-- Measurement block 7: SHA-384 chained over every log entry in order. -/
def Tlh.chain (t : Tlh) : List Byte :=
  ((List.range t.log.length).zip t.log).foldl (fun h x => Config.sha384 (h ++ x.2.bytes x.1)) (zeros 48)

/-- A measurement block (Table 14.9). -/
def Tlh.block (t : Tlh) (k : Nat) : List Byte :=
  if 1 ≤ k ∧ k ≤ 6 then t.latest k none else if k = 7 then t.chain else if 16 ≤ k ∧ k ≤ 23 then t.latest 7 (some (k - 16)) else []

/-- Blocks a request asks for: all of them, or one. -/
def measBlocks (op : Nat) : List Nat :=
  if op = 0xFF then [1, 2, 3, 4, 5, 6, 7, 16, 17, 18, 19, 20, 21, 22, 23] else if op = 0 then [] else [op]

/-- Sessions open on a transport. -/
def Dev.sessions (d : Dev) (ld : Option Nat) : List Spdm := d.tlh.spdm.filter fun s => decide (s.ld = ld)

/-- A key import (R426): its status, and the context Enabled when it is 00h. -/
def Dev.keyImport (d : Dev) (ld c keys : Nat) (rsv : Bool) (k0 k1 : BitVec 256) : Nat × Dev :=
  let x := d.ctxOf c
  if d.tlhBusy then (5, d)
  else if c = 0 ∨ 16384 ≤ c ∨ x.st ≠ .awaiting then (1, d)
  else if !x.mask.getLsbD ld then (2, d)
  else if keys ≠ (if x.sld then 1 else 2) ∨ rsv ∨ (keys = 1 ∧ k1 ≠ 0#256) then (3, d)
  else if keys = 2 ∧ k0 = k1 then (4, d)
  else (0, d.keyArrives c (k0, k1))

/-- A key import over the DOE of a landing (R426): inside a secure session, else it is a session error. -/
def Dev.importDoe (d : Dev) (ld c keys : Nat) (k0 k1 : BitVec 256) : Dev :=
  if !d.hasSession ld && !d.tlhBusy then d.doeAnswer ld 3
  else
    let (st, d) := d.keyImport ld c keys false k0 k1
    d.doeAnswer ld 1 (le 1 st ++ zeros 3)

/-- An SPDM error response. -/
def spdmError (ver code : Nat) : List Byte := le 1 ver ++ le 1 0x7F ++ le 1 code ++ zeros 1

/-- The SPDM responder (R425, Table 14.9): the response to one message, that of a secure session when `ses` names one. -/
def Dev.spdm (d : Dev) (ld : Option Nat) (ses : Option Nat) (msg : List Byte) : List Byte × Dev :=
  let ver := fld msg 0 1
  let code := fld msg 1 1
  let p1 := fld msg 2 1
  let p2 := fld msg 3 1
  let hd := fun (c a b : Nat) => le 1 ver ++ le 1 c ++ le 1 a ++ le 1 b
  let signed := fun (r : List Byte) => r ++ Config.sign (msg ++ r)
  let inSes := match ses with
    | some n => (d.sessions ld).any fun s => decide (s.id = n)
    | none => false
  let most := if ld.isSome then 2 else 4
  if code = 0x84 then (le 1 0x10 ++ le 1 0x04 ++ zeros 2 ++ le 1 0 ++ le 1 2 ++ le 2 0x1200 ++ le 2 0x1300, d)
  else if ver ≠ 0x12 ∧ ver ≠ 0x13 then (spdmError 0x12 0x41, d)
  else if code = 0xE1 then (hd 0x61 0 0 ++ zeros 4, d)
  else if code = 0xE3 then (hd 0x63 0 0, d)
  else if code = 0x81 then (hd 0x01 0 1 ++ Config.sha384 (Config.certificate d.tlh.chain), d)
  else if code = 0x82 then (if p1 = 0 then hd 0x02 0 0 ++ Config.certificate d.tlh.chain else spdmError ver 0x01, d)
  else if code = 0x83 then (if p1 = 0 then signed (hd 0x03 0 1) else spdmError ver 0x01, d)
  else if code = 0xE0 then
    let bl := (measBlocks p2).filter fun k => !(d.tlh.block k).isEmpty || decide (k = 7)
    let body := hd 0x60 (if p2 = 0 then 15 else 0) 0 ++ le 1 bl.length ++ bl.flatMap fun k => le 1 k ++ d.tlh.block k
    (if p1 % 2 = 1 then signed body else body, d)
  else if code = 0xE4 then
    if most ≤ (d.sessions ld).length then (spdmError ver 0x0A, d)
    else
      let n := d.tlh.nextSpdm
      (signed (hd 0x64 0 0 ++ le 4 n), { d with tlh := { d.tlh with spdm := d.tlh.spdm ++ [{ ld, id := n }], nextSpdm := n + 1 } })
  else if code ∈ [0xE5, 0xE8, 0xE9, 0xEC, 0xFE] ∧ !inSes then (spdmError ver 0x04, d)
  else if code = 0xE5 then (hd 0x65 0 0, d)
  else if code = 0xE8 then (hd 0x68 0 0, d)
  else if code = 0xE9 then (hd 0x69 p1 p2, d)
  else if code = 0xEC then (hd 0x6C 0 0, { d with tlh := { d.tlh with spdm := d.tlh.spdm.filter fun s => !(decide (s.ld = ld) && decide (some s.id = ses)) } })
  else if code = 0xFE then
    match ld with
    | some n =>
      let q := msg.drop 11
      if q.length ≠ 72 ∨ fld q 0 2 ≠ 1 then (spdmError ver 0x01, d)
      else
        let (st, d) := d.keyImport n (fld q 2 2) (fld q 4 1) (!rsvd q 5 3) (ofBytes 256 ((q.drop 8).take 32)) (ofBytes 256 ((q.drop 40).take 32))
        (hd 0x7E 0 0 ++ (msg.drop 4).take 5 ++ le 2 4 ++ le 1 st ++ zeros 3, d)
    | none => (spdmError ver 0x07, d)
  else (spdmError ver 0x07, d)

/-- An SPDM request over the DOE of a landing, or over MCTP (R425): it waits while the Tollhouse restarts (R272), and is answered by the
responder. MCTP answers stand in the I3C path's answer. -/
def Dev.spdmRequest (d : Dev) (ld : Option Nat) (ses : Option Nat) (msg : List Byte) : Dev :=
  match ld with
  | some n =>
    if d.fmnBusy then d
    else if d.tlhBusy then d.modLd n fun l => { l with doe := l.doe + 1 }
    else
      let (r, d) := d.spdm ld ses msg
      d.doeAnswer n 1 r
  | none =>
    if d.tlhBusy || d.fmnBusy then d
    else
      let (r, d) := d.spdm none ses msg
      d.modPath 32 fun x => { x with ans := .good r }

end Sys2Proof.Machine
end

