-- ==== Sys2Proof/Machine/Trust.lean ====
section
/-! DEFINITION. Monitor calls, the Tollhouse mailbox, its restart, secure holds, debug access (R411 to R416, R421, R422, R427 to R432, R270). -/
namespace Sys2Proof.Machine

/-- The key an image carries is a Rhaboind key that is not revoked (R422). -/
def Dev.rhaKey (d : Dev) (h : BitVec 384) : Bool :=
  (decide (h.toNat = d.fuse 512 384) && decide (d.fuse 53 1 = 0)) || (decide (h.toNat = d.fuse 896 384) && decide (d.fuse 54 1 = 0))

/-- The Tollhouse accepts an image whose security version is at least a fused count (R422). -/
def Dev.imgOk (d : Dev) (i : Img) (floor : Nat) : Bool := d.rhaKey i.keyHash && i.sigOk && decide (floor ≤ i.svn)

/-- Floor the Tollhouse holds for a module ID (R433). -/
def Dev.floorOf (d : Dev) (modid : BitVec 64) : Nat := ((d.tlh.floors.find? fun f => decide (f.1 = modid)).map (·.2)).getD 0

/-- The Tollhouse accepts a Pilot package (R433): its facts stand in an image whose version is the module ID. -/
def Dev.pkgOk (d : Dev) (i : Img) : Bool :=
  decide (d.fuse 55 1 = 1) && decide (i.keyHash.toNat = d.fuse 1280 384) && i.sigOk && decide (d.floorOf i.ver ≤ i.svn)

/-- The facts of a package as an image. -/
def Pkg.img (p : Pkg) : Img := { ver := p.modid, svn := p.svn, keyHash := p.keyHash, sigOk := p.sigOk, digest := p.digest }

/-- Statuses of Table 14.1. -/
def tmInval : Int := -1
def tmDenied : Int := -2
def tmBusy : Int := -3
def tmVerify : Int := -5
def tmFused : Int := -6
def tmNoSpace : Int := -7
def tmState : Int := -8

/-- Post a request to the Tollhouse mailbox (R412, R415): TM_PENDING and its ticket; TM_EBUSY_TLH while the Tollhouse is not running,
TM_ENOSPACE with all 16 slots in use. -/
def Dev.post (d : Dev) (fn : Nat) (args : List Nat) (img : Img) : (Int × Nat × Nat) × Dev :=
  if d.tlhBusy then ((tmBusy, 0, 0), d)
  else if 16 ≤ d.tlh.reqs.length then ((tmNoSpace, 0, 0), d)
  else
    let n := d.tlh.nextTicket
    ((1, n, 0), { d with tlh := { d.tlh with reqs := d.tlh.reqs ++ [{ ticket := n, fn, args, img }], tickets := d.tlh.tickets ++ [{ id := n }], nextTicket := n + 1 } })

/-- A ticket gets its final status and results, and the completion interrupt is raised (R412). -/
def Dev.endTicket (d : Dev) (n : Nat) (st : Int) (r0 r1 : Nat) : Dev :=
  let upd := fun (t : Ticket) => if t.id = n then { t with status := some st, res0 := r0, res1 := r1 } else t
  { d with tlh := { d.tlh with reqs := d.tlh.reqs.filter (fun q => decide (q.ticket ≠ n)), tickets := d.tlh.tickets.map upd, irq := d.tlh.irq + 1 } }

/-- Read bytes for a caller at the Syust level, one page at a time. -/
def Dev.callerRead (d : Dev) (a n : Nat) : Option (List Byte) × Dev :=
  match d.intRead .qs a n .ok with
  | (some (bs, false), d) => (some bs, d)
  | (_, d) => (none, d)

/-- Fused bits of the region registers (Table 14.5), memories in the order of Table 14.4. -/
def rgnFused (m k : Nat) : Bool := (decide (m = 0) && decide (k = 0 ∨ k = 2)) || (decide (m = 2) && decide (k < 2)) || (decide (m = 4) && decide (k = 0))

/-- Writable bits of a region register (Table 14.3). -/
def rgnMask : BitVec 128 := 0x0000003FFFFFFF7F000FFFFF00FFFFF3#128

/-- Slices held by the fused categories (R431). -/
def Dev.fusedHold (d : Dev) : BitVec 38 :=
  let units := fun (lo : Nat) => (d.units.foldl (fun s n => s + 2 ^ (lo + n)) 0)
  BitVec.ofNat 38 ((if d.fuse 64 1 = 1 then 2 ^ 33 else 0) + (if d.fuse 65 1 = 1 then units 16 else 0) + (if d.fuse 66 1 = 1 then units 0 else 0)
    + (if d.fuse 67 1 = 1 then 2 ^ 37 else 0))

/-- PWR.SECHOLD HOLD (Table 14.13). -/
def Dev.secHold (d : Dev) : BitVec 38 := d.fusedHold ||| d.pwr.hold

/-- TLH_STATUS code of the Tollhouse's state. -/
def TlhSt.code : TlhSt → Nat
  | .booting => 0
  | .running => 1
  | .restarting => 2
  | .recovery => 3
  | .stopped => 4

/-- First 64 bits of a context record (Table 8.1). -/
def Dev.ctxWord (d : Dev) (c : Nat) : Nat := natOfBytes ((d.ctxEnc c).take 8)

/-- Functions of the monitor that need the Tollhouse. -/
def tmAsync (fn : Nat) : Bool := decide (5 ≤ fn) && decide (fn ≤ 0xC)

/-- Checks of an asynchronous function before it is posted (R413). -/
def tmPre (fn : Nat) (a : Nat → Nat) : Option Int :=
  if fn = 5 ∨ fn = 6 then
    (if a 0 = 0 then some tmDenied
     else if 16384 ≤ a 0 then some tmInval
     else if fn = 5 ∧ (8 ≤ a 1 ∨ 65536 ≤ a 2 ∨ decide (4 ≤ a 1) ≠ decide (a 2 ≠ 0)) then some tmInval else none)
  else if fn = 7 ∧ (a 0 = 0 ∨ 3 < a 0 ∨ (a 0 = 3 ∧ 8 ≤ a 3)) then some tmInval
  else if fn = 8 ∧ (a 0 = 0 ∨ 2 < a 0) then some tmInval
  else if fn = 9 ∧ (a 0 = 0 ∨ 8 < a 0 ∨ 256 ≤ a 1) then some tmInval
  else if fn = 0xA ∧ 0x10 < a 0 then some tmInval
  else if fn = 0xB ∧ (a 1 = 0 ∨ 64 < a 1) then some tmInval
  else if fn = 0xC ∧ a 1 ≠ 208 then some tmInval
  else none

/-- A monitor call (R411 to R413): status and two results. `img` carries what a verification finds. -/
def Dev.tmCall (d : Dev) (fn : Nat) (a : Nat → Nat) (img : Img) : (Int × Nat × Nat) × Dev :=
  if fn = 0 then ((0, d.fmn.mon.ver.toNat, d.tlh.fw.ver.toNat), d)
  else if fn = 1 then
    match d.tlh.tickets.find? fun t => decide (t.id = a 0) with
    | some t => (match t.status with
        | some st => ((st, t.res0, t.res1), d)
        | none => ((tmState, 0, 0), d))
    | none => ((tmInval, 0, 0), d)
  else if fn = 2 then
    let r := d.region (a 0) (a 1)
    if 5 ≤ a 0 ∨ 16 ≤ a 1 then ((tmInval, 0, 0), d)
    else if rgnFused (a 0) (a 1) || rgnLock r then ((tmDenied, 0, 0), d)
    else ((0, 0, 0), { d with rgn := tput 0#128 d.rgn (16 * a 0 + a 1) (BitVec.ofNat 128 (a 2 + a 3 * 2 ^ 64) &&& rgnMask) })
  else if fn = 3 then
    if 5 ≤ a 0 ∨ 16 ≤ a 1 then ((tmInval, 0, 0), d)
    else ((0, (d.region (a 0) (a 1)).toNat % 2 ^ 64, (d.region (a 0) (a 1)).toNat / 2 ^ 64), d)
  else if fn = 4 then
    if 38 ≤ a 0 ∨ 2 ≤ a 1 then ((tmInval, 0, 0), d)
    else if a 1 = 0 ∧ d.fusedHold.getLsbD (a 0) then ((tmDenied, 0, 0), d)
    else ((0, 0, 0), { d with pwr := { d.pwr with hold := setBit d.pwr.hold (a 0) (decide (a 1 = 1)) } })
  else if fn = 0xD then ((0, d.tlh.st.code + d.tlh.restarts * 2 ^ 16, d.tlh.log.length), d)
  else if tmAsync fn then
    match tmPre fn a with
    | some e => ((e, 0, 0), d)
    | none => d.post fn [a 0, a 1, a 2, a 3, a 4] img
  else ((tmInval, 0, 0), d)

/-- Arguments a function uses, and results it gives (Table 14.2). -/
def tmArgs : Nat → Nat × Nat
  | 0 => (0, 2)
  | 1 => (1, 2)
  | 2 => (4, 0)
  | 3 => (2, 2)
  | 4 => (2, 0)
  | 5 => (3, 1)
  | 6 => (1, 1)
  | 7 => (4, 1)
  | 8 => (2, 1)
  | 9 => (3, 1)
  | 0xA => (4, 1)
  | 0xB => (2, 1)
  | 0xC => (2, 1)
  | 0xD => (0, 2)
  | _ => (0, 0)

/-- Address of call block `k` (R411). -/
def callBlock (k : Nat) : Nat := 0x1BF000 + 64 * k

/-- Syust runs, so that it can make monitor calls. -/
def Dev.syustRuns (d : Dev) : Bool := !d.fmnBusy

/-- MCALL with a call block (R411): the monitor reads it, acts, and writes the block; a field its function does not use is written as zero. -/
def Dev.mcall (d : Dev) (k : Nat) (img : Img) : Dev :=
  let b := callBlock k
  let rd := fun (o n : Nat) => natOfBytes ((List.range n).map fun i => tget 0#8 d.sram (b + o + i))
  let fn := rd 0 2
  let (na, nr) := tmArgs fn
  let a := fun (i : Nat) => if i < na then rd (8 + 8 * i) 8 else 0
  let ((st, r0, r1), d) := d.tmCall fn a img
  let out := le 2 fn ++ zeros 2 ++ bytesOf 4 (BitVec.ofInt 32 st) ++ (List.range 5).flatMap (fun i => le 8 (a i))
    ++ le 8 (if 1 ≤ nr then r0 else 0) ++ le 8 (if 2 ≤ nr then r1 else 0)
  (d.rawWrite b out).2

/-- Syust fills a call block and executes MCALL (R411). -/
def Dev.tm (d : Dev) (k fn : Nat) (args : List Nat) (img : Img := {}) : Dev :=
  if !d.syustRuns then d
  else
    let b := callBlock k
    let d := (d.rawWrite b (le 2 fn)).2
    let d := ((List.range args.length).zip args).foldl (fun d x => (d.rawWrite (b + 8 + 8 * x.1) (le 8 x.2)).2) d
    d.mcall k img

/-- An MCALL as the core executes it (R411, R438): at the Syust level with an operand up to 7 the monitor runs; at the Pilot level, or with a
higher operand, it does not, and a Pilot module that runs takes a sandbox fault. -/
def Dev.mcallAt (d : Dev) (slot : Option Nat) (k : Nat) (img : Img) : Dev :=
  match slot with
  | some s => if d.syustRuns then d.sandbox s 2 else d
  | none => if d.syustRuns && decide (k < 8) then d.mcall k img else d

/-- Fuse bits that raise an anti-rollback count to `svn` (R413): the lowest ones not blown yet. -/
def Dev.arbBits (d : Dev) (kind svn : Nat) : BitVec 2048 :=
  let (lo, len, n) := if kind = 1 then (128, 64, d.arbf) else (192, 32, d.arbt)
  let clear := (List.range len).filter fun i => d.fuse (lo + i) 1 = 0
  BitVec.ofNat 2048 (((clear.take (svn - n)).foldl (fun s i => s + 2 ^ i) 0) * 2 ^ lo)

/-- The expected token of a debug unlock holds (R432): key, signature, serial number, expiry. -/
def Dev.tokenOk (d : Dev) (t : List Byte) (sigOk : Bool) : Bool :=
  d.rhaKey (ofBytes 384 (Config.sha384 ((t.drop 16).take 96))) && sigOk && decide (fld t 0 8 = Config.serial.toNat) && decide (d.time < fld t 8 8)

/-- The Tollhouse carries out one request: status and results (Table 14.2, R415, R416). -/
def Dev.tlhDo (d : Dev) (q : TlhReq) : (Int × Nat × Nat) × Dev :=
  let a := fun (i : Nat) => q.args.getD i 0
  let c := a 0
  match q.fn with
  | 5 =>
    let sld := decide (a 1 % 2 = 1)
    if (d.ctxOf c).st ≠ .disabled then ((tmState, 0, 0), d)
    else if sld && !d.sealEn then ((tmFused, 0, 0), d)
    else
      let d := d.enableCtx c sld (decide (bits (a 1) 1 1 = 1)) (decide (4 ≤ a 1)) (BitVec.ofNat 16 (a 2))
      ((0, d.ctxWord c, 0), d)
  | 6 =>
    if (d.ctxOf c).st = .disabled || decide (d.ctxBlocks c ≠ 0) || decide (d.ctxPages c ≠ 0) then ((tmState, 0, 0), d)
    else
      let d := d.disableCtx c
      ((0, d.ctxWord c, 0), d)
  | 7 =>
    let ok := if c = 1 then d.imgOk q.img d.arbf else if c = 2 then d.imgOk q.img d.arbt else d.pkgOk q.img
    (if ok then (0, q.img.svn, 0) else (tmVerify, 0, 0), d)
  | 8 =>
    let (n, most) := if c = 1 then (d.arbf, 64) else (d.arbt, 32)
    if a 1 < n ∨ most < a 1 then ((tmInval, 0, 0), d)
    else
      let m := d.arbBits c (a 1)
      ((0, a 1, 0), { d with blow := d.blow ||| m, fz := d.fz ||| m })
  | 9 =>
    (match d.callerRead (a 2) 48 with
     | (none, d) => ((tmDenied, 0, 0), d)
     | (some bs, d) =>
       let svn := if c = 7 then ((d.pilot (a 1)).inst.map (·.svn)).getD 0 else 0
       match d.measure { kind := c, slot := a 1, svn, digest := ofBytes 384 bs } with
       | (true, d) => ((0, d.tlh.log.length - 1, 0), d)
       | (false, d) => ((tmNoSpace, 0, 0), d))
  | 0xA =>
    (match d.callerRead (a 1) (a 2) with
     | (none, d) => ((tmDenied, 0, 0), d)
     | (some bs, d) =>
       let (r, d) := d.spdm (if c < 16 then some c else none) none bs
       match d.intWrite .qs (a 3) r with
       | (true, d) => ((0, r.length, 0), d)
       | (false, d) => ((tmDenied, 0, 0), d))
  | 0xB =>
    let (n, d) := d.draw
    let (m, d) := d.draw
    let bs := (bytesOf 32 (Config.drbg n) ++ bytesOf 32 (Config.drbg m)).take (a 1)
    (match d.intWrite .qs c bs with
     | (true, d) => ((0, 0, 0), d)
     | (false, d) => ((tmDenied, 0, 0), d))
  | 0xC =>
    (match d.callerRead c 208 with
     | (none, d) => ((tmDenied, 0, 0), d)
     | (some t, d) =>
       if d.dbgLock ≠ 1 then ((if d.dbgLock = 0 then tmState else tmFused, 0, 0), d)
       else if d.ctx.any fun x => decide (x.1 ≠ 0) && decide (x.2.st = .enabled) then ((tmState, 0, 0), d)
       else if !d.tokenOk t q.img.sigOk then ((tmVerify, 0, 0), d)
       else
         match d.measure { kind := 2, digest := ofBytes 384 (Config.sha384 t) } with
         | (true, d) => ((0, 0, 0), { d with tlh := { d.tlh with unlock := some (fld t 8 8) } })
         | (false, d) => ((tmNoSpace, 0, 0), d))
  | _ => ((tmInval, 0, 0), d)

/-- The Tollhouse serves the oldest request (R415) and answers it (R412). -/
def Dev.tlhServe (d : Dev) : Dev :=
  if d.tlhBusy then d
  else
    match d.tlh.reqs with
    | [] => d
    | q :: _ =>
      let ((st, r0, r1), d) := d.tlhDo q
      d.endTicket q.ticket st r0 r1

/-- Final status of a ticket. -/
def Dev.ticketDone (d : Dev) (n : Nat) : Option Int :=
  match d.tlh.tickets.find? fun t => decide (t.id = n) with
  | some t => t.status
  | none => none

/-- A ticket has not completed within 5 ms (R412): TM_EBUSY_TLH, with no side effect. -/
def Dev.ticketTimeout (d : Dev) (n : Nat) : Dev :=
  if d.tlh.reqs.any fun q => decide (q.ticket = n) then d.endTicket n tmBusy 0 0 else d

/-- The Tollhouse restarts alone (R427): its sessions end, its mailbox waits. -/
def Dev.tlhRestart (d : Dev) : Dev :=
  if d.tlh.st ≠ .running then d
  else
    ({ d with tlhBusy := true, tlh := { d.tlh with st := .restarting, restarts := satAdd 0xFFFF d.tlh.restarts 1, spdm := [] } } : Dev).report { src := 0x6A0 }

/-- Key-table slots whose context is not Enabled are cleared, and slots that wait are reloaded (R416, R244). -/
def Dev.reconcile (d : Dev) : Dev :=
  let on := fun (c : Nat) => decide ((d.ctxOf c).st = .enabled)
  d.units.foldl (fun d s =>
    let waits := (d.ms s).sl.reload
    let d := d.modSeal s fun x => { x with keys := x.keys.filter (fun k => on k.1), reload := [] }
    waits.foldl (fun d c => d.report { src := sliceSrc s 0x0A, det0 := c }) d) d

/-- The restart finishes (R427, R428): the firmware of the running bank verifies, keys are recovered, key tables reconciled and the mailbox
served, IDE_KM requests that waited being answered with a session error (R272); or the Tollhouse is Stopped. `readOk` is false when the flash
read fails. -/
def Dev.tlhRestartDone (d : Dev) (readOk : Bool) : Dev :=
  if d.tlh.st ≠ .restarting then d
  else
    let fw := (d.flash.bank d.boot.bank).tlh
    match fw with
    | some i =>
      if readOk && d.imgOk i d.arbt then
        let d := (d.measureRestart i.digest).reconcile
        let d := { d with tlhBusy := false, tlh := { d.tlh with st := .running }, fmn := { d.fmn with since := d.time } }
        d.units.foldl (fun d n => if 0 < (d.ld n).doe then (d.modLd n fun l => { l with doe := 0 }).doeAnswer n 3 else d) d
      else ({ d with tlh := { d.tlh with st := .stopped } } : Dev).report { src := 0x6A1 }
    | none => ({ d with tlh := { d.tlh with st := .stopped } } : Dev).report { src := 0x6A1 }

/-- PWR.REQ (R429, Table 14.12): actions 0 stop clock, 1 start clock, 2 remove power, 3 restore power. -/
def Dev.pwrReq (d : Dev) (target act : Nat) : Dev :=
  let on := if target < 16 then d.on target else if target < 32 then d.on (target - 16) else decide (target < 38)
  let set := fun (r : Nat) (d : Dev) => { d with pwr := { d.pwr with target := target % 64, action := act, result := r } }
  if d.fmnBusy then d
  else if !on then set 4 d
  else if (act = 0 ∨ act = 2) ∧ d.secHold.getLsbD target then set 2 (d.refuse 3 0xFF 2 7 false)
  else
    let put := fun (l : List Nat) => if target ∈ l then l else l ++ [target]
    let out := fun (l : List Nat) => l.filter (· ≠ target)
    set 1 { d with pwr := { d.pwr with clkOff := if act = 0 then put d.pwr.clkOff else if act = 1 then out d.pwr.clkOff else d.pwr.clkOff
                                       pwrOff := if act = 2 then put d.pwr.pwrOff else if act = 3 then out d.pwr.pwrOff else d.pwr.pwrOff } }

/-- Debug access may read arrays (R270): no Enabled context is Sealed or has NODMA set. -/
def Dev.arraysOpen (d : Dev) : Bool := !(d.ctx.any fun x => decide (x.2.st = .enabled) && (x.2.sld || x.2.nodma))

/-- What a debug read gives: none when it is refused (R270, R418, Table 14.6). -/
def Dev.debugGet (d : Dev) : DbgTarget → Option (List Byte) × Dev
  | .map a n =>
    (match d.intRead .dbg a n .ok with
     | (some (bs, _), d) => (some bs, d)
     | (none, d) => (none, d))
  | .key _ _ => (none, d)
  | .tlhSram _ => (none, d)
  | .wharf s k => if d.arraysOpen && d.on s.val then (some (bytesOf 64 ((d.ms s.val).wharf.get k).data), d) else (none, d)
  | .sealc s k =>
    if d.arraysOpen && d.on s.val then
      (some (match (d.ms s.val).sl.cache[k]? with
        | some l => nodeBytes l.node
        | none => zeros 128), d)
    else (none, d)
  | .aes s =>
    if d.arraysOpen && d.on s.val then
      let (n, d) := d.draw
      (some (bytesOf 64 (Config.poisonLine n)), d)
    else (none, d)

/-- Path and address of a debug read as the log records them (Table 15.13). -/
def dbgPlace : DbgTarget → Nat × Nat
  | .map a _ => ((mkPath 0 4 32 0).enc, a)
  | .key s k => ((mkPath 0 (quadOf s.val) (16 + s.val) 0).enc, k)
  | .tlhSram a => ((mkPath 0 4 33 0).enc, a)
  | .wharf s k => ((mkPath 0 (quadOf s.val) (16 + s.val) 0).enc, k)
  | .sealc s k => ((mkPath 0 (quadOf s.val) (16 + s.val) 0).enc, k)
  | .aes s => ((mkPath 0 (quadOf s.val) (16 + s.val) 0).enc, 0)

/-- Bytes a debug read asks for. -/
def dbgSize : DbgTarget → Nat
  | .map _ n => n
  | .sealc _ _ => 128
  | _ => 64

/-- A debug read (R270, R418): served, or zeros and a log entry; with DBGLOCK at 11b, or at 01b without an unlock, it is refused. -/
def Dev.debugRead (d : Dev) (t : DbgTarget) : Dev :=
  let shut := decide (d.dbgLock = 3) || (decide (d.dbgLock = 1) && d.tlh.unlock.isNone)
  match (if shut then (none, d) else d.debugGet t) with
  | (some bs, d) => { d with dbgOut := bs }
  | (none, d) => { d with dbgOut := zeros (dbgSize t), plog := d.plog.add 3 none [(dbgPlace t).1, (dbgPlace t).2] 24 }

/-- A granted unlock reaches its expiry (R432). -/
def Dev.unlockEnds (d : Dev) : Dev := { d with tlh := { d.tlh with unlock := none } }

end Sys2Proof.Machine
end

