-- ==== Sys2Proof/Machine/CmdFw.lean ====
section
/-! DEFINITION. Firmware, dynamic-capacity and multi-headed commands, the Ferryman's return, and the end of background commands (R39, R88 to R92,
R361 to R369, R434, R530). -/
namespace Sys2Proof.Machine

/-- The bank that is neither ACTIVE nor running (R530). -/
def Dev.spareBank (d : Dev) (b : Nat) : Bool := decide (b < 2) && decide (d.flash.dir.active ≠ b) && decide (d.boot.bank ≠ b)

/-- Write a bank. -/
def Flash.setBank (f : Flash) (b : Nat) (x : Bank) : Flash := if b = 0 then { f with bankA := x } else { f with bankB := x }

/-- Get FW Info: slots, the slot running, the slot pending or 0, Syust versions. Slot 1 is bank A, slot 2 bank B. -/
def Dev.fwInfo (d : Dev) (pn : Nat) : Dev :=
  d.std1 pn 0x0200 false false (fun _ => none) fun _ =>
    let p := d.flash.dir.pend
    (.good [] [2, d.boot.bank + 1, if p < 2 then p + 1 else 0, d.flash.syVer 0, d.flash.syVer 1], d)

/-- Transfer FW (R530): the image goes into the bank that is neither ACTIVE nor running. -/
def Dev.transferFw (d : Dev) (pn slot : Nat) (x : Bank) : Dev :=
  d.std1 pn 0x0201 false true (fun _ => need (decide (1 ≤ slot) && d.spareBank (slot - 1))) fun _ =>
    (.good, { d with flash := d.flash.setBank (slot - 1) x })

/-- Activate FW (R365, R530): offline, the bank is tried at the next reset; online, the Ferryman quiesces and the Tollhouse verifies. -/
def Dev.activateFw (d : Dev) (pn slot : Nat) (online : Bool) : Dev :=
  let b := slot - 1
  d.std1 pn 0x0202 false true (fun _ => need (decide (1 ≤ slot) && d.spareBank b)) fun _ =>
    if !online then (.good, { d with flash := d.flash.setDir fun x => { x with pend := b, tries := 0 } })
    else
      match d.bgConflict pn (fun _ => false) with
      | some o => (.bad .busy 0x0009 0 0 o, d)
      | none =>
        match d.post 7 [1, 0, 0, b, 0] ((d.flash.bank b).sy.getD {}) with
        | ((1, n, _), d) => ({ rc := .bgStarted }, ({ d with fmn := { d.fmn with st := .quiescing } } : Dev).startBg pn 0x0202 (.activate b n))
        | _ => (Dev.tlhWait, d)

/-- Path and bank of an online activation in progress, with its ticket. -/
def Dev.activating (d : Dev) : Option (Nat × Nat × Nat) :=
  d.mg.paths.findSome? fun x => match x.2.bg with
    | some b => match b.op with
      | .activate k t => some (x.1, k, t)
      | _ => none
    | none => none

/-- An online activation goes on once its ticket is final (R365): into Updating, or back with the firmware rolled back. -/
def Dev.activateNext (d : Dev) : Dev :=
  match d.activating with
  | some (pn, _, t) =>
    if d.fmn.st ≠ .quiescing then d
    else
      match d.ticketDone t with
      | some st =>
        if st = 0 then { d with fmn := { d.fmn with st := .updating }, fmnBusy := true }
        else ({ d with fmn := { d.fmn with st := .running } } : Dev).endBg pn .rolledBack
      | none => d
  | none => d

/-- The Ferryman stops working until Syust starts again (R38). -/
def Dev.fmnDown (d : Dev) : Dev :=
  if d.fmnBusy then d else { d with fmnBusy := true, fmn := { d.fmn with st := .restarting } }

/-- A running Pilot module is started again after a Ferryman restart, told that its scratch has survived (R193, R434): it holds no channel. -/
def Dev.modulesAgain (d : Dev) : Dev :=
  (List.range 8).foldl (fun d s =>
    match (d.pilot s).run with
    | some k => (d.stopModule s).modPilot s fun p => { p with run := some k, past := false, survived := true }
    | none => d) d

/-- Latched alerts reach the Pool owner and Syust (R39, R131, R319). -/
def Dev.deliverLatched (d : Dev) : Dev :=
  let tides := d.pm.latched
  let scales := d.qos.latched
  let d := { d with pm := { d.pm with latched := [] }, qos := { d.qos with latched := [] } }
  let more := tides.length + scales.length
  let d := tides.foldl (fun d x => (d.evPool .tide [x.1, x.2.1.rank, x.2.2]).tellPilots 1 x.1) d
  let d := scales.foldl (fun d a => (d.evPool .scaling a).tellPilots 2 (a.getD 0 0)) d
  { d with lko := { d.lko with irq := d.lko.irq + more } }

/-- Syust starts again (R39, R363, R365): it rebuilds its view and drains records and latched alerts. A live update runs the new bank from here. -/
def Dev.fmnRestart (d : Dev) : Dev :=
  if d.fmn.st = .booting then d
  else
    let upd := if d.fmn.st = .updating then d.activating else none
    let d := { d with fmnBusy := false
                      fmn := { d.fmn with st := .running, restarts := satAdd 0xFFFF d.fmn.restarts 1, since := d.time } }
    let d := match upd with
      | some (pn, b, _) =>
        let im := (d.flash.bank b).sy.getD {}
        let d := { d with fmn := { d.fmn with sy := im }, boot := { d.boot with bank := b }
                          flash := d.flash.setDir fun x => { x with active := b } }
        ((d.measure { kind := 5, slot := b, svn := im.svn, digest := im.digest }).2).endBg pn .success
      | none =>
        match d.activating with
        | some (pn, _, _) => d.endBg pn .rolledBack
        | none => d
    d.modulesAgain.deliverLatched.syustLogs

/-- PLDM firmware update over MCTP (R365, R423, R434): a bank goes into the bank not in use and is tried at the next reset; a Pilot package
into its slot. In Recovery only a bank is taken, into the bank that is not ACTIVE. -/
def Dev.pldm (d : Dev) (x : PldmPkg) : Dev :=
  match x with
  | .bank b =>
    if d.tlh.st = .recovery then { d with flash := d.flash.setBank (1 - d.flash.dir.active) b }
    else if !d.fmnUp then d
    else
      match [0, 1].find? d.spareBank with
      | some k => { d with flash := (d.flash.setBank k b).setDir fun y => { y with pend := k, tries := 0 } }
      | none => d
  | .pilot s p => if !d.fmnUp then d else d.modPilot s.val fun q => { q with inst := some p, newPkg := true }

/-- A record of a landing in a state that an extent, as first byte and length, names exactly. -/
def Dev.recOf (d : Dev) (ld : Nat) (st : ExtSt) (x : Nat × Nat) : Option Nat :=
  (d.recList.find? fun r => decide (r.2.ld = ld) && decide (r.2.st = st) && decide (r.2.base * 2 ^ 28 = x.1) && decide ((r.2.nblk1 + 1) * 2 ^ 28 = x.2)).map (·.1)

/-- The landing of a tenant role. -/
def Role.landing : Role → Nat
  | .tenant n => n
  | _ => 16

/-- An extent of a record as a host sees it: first byte, length, tag. -/
def ExtRec.vals (r : ExtRec) : List Nat := [r.base * 2 ^ 28, (r.nblk1 + 1) * 2 ^ 28, r.tag.toNat]

/-- The one region (R78): number of regions, base, length, block size. -/
def Dev.regionVals (d : Dev) : List Nat := [1, 0, d.regionBlocks * 2 ^ 28, 2 ^ 28]

/-- Get Dynamic Capacity Configuration of the tenant's landing. -/
def Dev.dcConfig (d : Dev) (pn : Nat) : Dev := d.std1 pn 0x4800 false false (fun _ => none) fun _ => (.good [] d.regionVals, d)

/-- Granted records of a landing, as extents. -/
def Dev.grantedVals (d : Dev) (ld : Nat) : List Nat :=
  let rs := d.recList.filter fun (r : Nat × ExtRec) => decide (r.2.ld = ld) && decide (r.2.st = .granted)
  rs.length :: rs.flatMap fun r => r.2.vals

/-- Get Dynamic Capacity Extent List of the tenant's landing. -/
def Dev.dcList (d : Dev) (pn : Nat) : Dev := d.std1 pn 0x4801 false false (fun _ => none) fun r => (.good [] (d.grantedVals r.landing), d)

/-- Add Dynamic Capacity Response (R90): listed Offered extents are granted, the rest of each answered add returns to Free. -/
def Dev.addResponse (d : Dev) (pn : Nat) (xs : List (Nat × Nat)) : Dev :=
  d.std1 pn 0x4802 false true (fun _ => none) fun r =>
    let ld := r.landing
    let ns := xs.map (d.recOf ld .offered)
    if ns.any Option.isNone || decide (ns.eraseDups.length ≠ ns.length) then (.bad .invalidExtents, d)
    else
      let ns := ns.filterMap id
      let mine := d.ext.offers.filter fun o => decide (o.ld = ld)
      let ans := if xs.isEmpty then mine.take 1 else mine.filter fun o => o.recs.any fun n => decide (n ∈ ns)
      let left := (ans.flatMap (·.recs)).filter fun n => !decide (n ∈ ns)
      let d := ns.foldl (fun d n => d.modRec n fun x => { x with st := .granted }) d
      let offers := (d.ext.offers.map fun o => { o with recs := o.recs.filter fun n => !decide (n ∈ ns) }).filter fun o => !o.recs.isEmpty
      let d := { d with ext := { d.ext with offers } }
      (.good, left.foldl (fun d n => d.endOffer n) d)

/-- Release Dynamic Capacity (R92): each listed extent matches exactly one Granted record of the landing. -/
def Dev.dcRelease (d : Dev) (pn : Nat) (xs : List (Nat × Nat)) : Dev :=
  d.std1 pn 0x4803 false true (fun _ => none) fun r =>
    let ns := xs.map (d.recOf r.landing .granted)
    if ns.any Option.isNone || decide (ns.eraseDups.length ≠ ns.length) then (.bad .invalidExtents, d)
    else (.good, (ns.filterMap id).foldl (fun d n => d.releaseRec n) d)

/-- Get DCD Info: hosts, then the region. -/
def Dev.dcdInfo (d : Dev) (pn : Nat) : Dev := d.std1 pn 0x5600 false false (fun _ => none) fun _ => (.good [] (d.units.length :: d.regionVals), d)

/-- Get Host DC Region Configuration. -/
def Dev.hostRegion (d : Dev) (pn ld : Nat) : Dev := d.std1 pn 0x5601 false false (fun _ => need (d.on ld)) fun _ => (.good [] d.regionVals, d)

/-- Set DC Region Configuration (R368): accepted only when it restates the fixed region. -/
def Dev.setRegion (d : Dev) (pn region base len block : Nat) : Dev :=
  d.std1 pn 0x5602 false false
    (fun _ => need (decide (region = 0) && decide (base = 0) && decide (len = d.regionBlocks * 2 ^ 28) && decide (block = 2 ^ 28))) fun _ => (.good, d)

/-- Get DC Region Extent Lists of a host. -/
def Dev.regionExtents (d : Dev) (pn ld : Nat) : Dev :=
  d.std1 pn 0x5603 false false (fun _ => need (d.on ld)) fun _ => (.good [] (d.grantedVals ld), d)

/-- The return code of a failed check of R88 (R368). -/
def addCode (k : Nat) : RC :=
  if k = 1 then .unsupported else if k = 2 ∨ k = 8 ∨ k = 9 then .resources else if k = 3 ∨ k = 4 ∨ k = 5 then .invalidExtents else .invalidInput

/-- Extents as first block and block count. -/
def blocksOf (xs : List (Nat × Nat)) : List (Nat × Nat) := xs.map fun x => (x.1 / 2 ^ 28, x.2 / 2 ^ 28)

/-- Whole blocks of the region. -/
def Dev.extentsOk (d : Dev) (xs : List (Nat × Nat)) : Bool :=
  !xs.isEmpty && xs.all fun x => decide (x.1 % 2 ^ 28 = 0) && decide (x.2 % 2 ^ 28 = 0) && decide (0 < x.2) && decide (x.1 + x.2 ≤ d.regionBlocks * 2 ^ 28)

/-- Initiate Dynamic Capacity Add (R88, R89, R368, R94). -/
def Dev.initiateAdd (d : Dev) (pn : Nat) (q : DcReq) : Dev :=
  d.std1 pn 0x5604 true true (fun _ => need (decide (q.ld < 16) && d.extentsOk q.exts)) fun _ =>
    match d.addChecks q.ld q.tag q.shared (blocksOf q.exts) with
    | some f =>
      (match f.reclaim with
       | some b => { Ans.bad (addCode f.check) 0x0003 with vals := [b] }
       | none => { Ans.bad (addCode f.check) (0x0010 + f.check) with vals := [f.idx] }, d)
    | none => (.good, d.acceptAdd q.ld q.tag q.shared (blocksOf q.exts))

/-- Initiate Dynamic Capacity Release (R92, R368): a request to the host, or the forced release. -/
def Dev.initiateRelease (d : Dev) (pn : Nat) (q : DcReq) (force : Bool) : Dev :=
  d.std1 pn 0x5605 true true (fun _ => need (decide (q.ld < 16) && d.extentsOk q.exts)) fun _ =>
    let ns := q.exts.map (d.recOf q.ld .granted)
    if ns.any Option.isNone || decide (ns.eraseDups.length ≠ ns.length) then (.bad .invalidExtents, d)
    else
      let ns := ns.filterMap id
      let ev := fun (k : EvKind) (d : Dev) (n : Nat) => d.evHost q.ld k [n, (d.xrec n).base, (d.xrec n).nblk1 + 1] 4
      if force then (.good, ns.foldl (fun d n => (ev .forcedRelease d n).releaseRec n) d) else (.good, ns.foldl (ev .releaseCapacity) d)

/-- Dynamic Capacity Add Reference: to a tag some record in use carries. -/
def Dev.addRef (d : Dev) (pn : Nat) (tag : BitVec 128) : Dev :=
  d.std1 pn 0x5606 false true (fun _ => need (d.recList.any fun r => decide (r.2.tag = tag))) fun _ =>
    (.good, { d with ext := { d.ext with refs := if tag ∈ d.ext.refs then d.ext.refs else d.ext.refs ++ [tag] } })

/-- Dynamic Capacity Remove Reference. -/
def Dev.removeRef (d : Dev) (pn : Nat) (tag : BitVec 128) : Dev :=
  d.std1 pn 0x5607 false true (fun _ => need (decide (tag ∈ d.ext.refs))) fun _ =>
    (.good, { d with ext := { d.ext with refs := d.ext.refs.filter (· ≠ tag) } })

/-- Dynamic Capacity List Tags: tags of records in use, with whether each is referenced. -/
def Dev.listTags (d : Dev) (pn : Nat) : Dev :=
  d.std1 pn 0x5608 false false (fun _ => none) fun _ =>
    let ts := (d.recList.map fun r => r.2.tag).eraseDups
    (.good [] (ts.length :: ts.flatMap fun t => [t.toNat, bit (decide (t ∈ d.ext.refs))]), d)

/-- Get Multi-Headed Info: heads, logical devices, one logical device per head. -/
def Dev.multiHead (d : Dev) (pn : Nat) : Dev :=
  d.std1 pn 0x5500 false false (fun _ => none) fun _ => (.good [] ([d.units.length, d.units.length] ++ d.units), d)

/-- Get Head Info of one head. -/
def Dev.headInfo (d : Dev) (pn ld : Nat) : Dev := d.std1 pn 0x5501 false false (fun _ => need (d.on ld)) fun _ => (.good [] [ld, d.lnkstat ld], d)

/-- A channel was fully trained: its training-cache record is written (R519). -/
def Dev.noteTraining (d : Dev) (c : Nat) (serial : List Nat) : Dev :=
  let x := d.ch c
  let t : TrainRec := { ok := true, serial, maxA := d.p 0x19A, setB := d.p 0x199, spA := x.spA, spB := x.spB }
  { d with flash := { d.flash with train := tput {} d.flash.train c t } }

/-- A background command finishes, when its work is done (R361, R362): page `at_` of a scan meets `ph`, and the pages of a rekey. -/
def Dev.bgComplete1 (d : Dev) (pn at_ : Nat) (ph : Phys) : Dev :=
  match (d.path pn).bg with
  | none => d
  | some b =>
    if d.fmnBusy then d
    else
      match b.op with
      | .maint id => if d.rangeActive id then d else d.endBg pn .success
      | .audit chans free =>
        let (n, d) := d.audit chans free
        (d.evPool .background [0xC409, n, if free then n else 0]).endBg pn .success
      | .rekey rno old c blocks =>
        if (d.extentOf rno).all fun k => decide ((d.xrec k).st = .free) then d.endBg pn .aborted
        else
          let (done, d) := d.rekeyRest old c blocks ph
          if done then d.endBg pn .success else d
      | .retrain c =>
        if !d.chOk c then d.endBg pn .aborted
        else (d.noteTraining c (tget {} d.flash.train c).serial).endBg pn .success
      | .scan page left => (d.scanPages pn page left at_ ph).endBg pn .success
      | .sanitize => d.endBg pn .success
      | .activate _ _ => d

end Sys2Proof.Machine
end

