-- ==== Sys2Proof/Machine/FaultIn.lean ====
section
/-! DEFINITION. Faults that come from outside the modelled units: reports of a source, broken wires, force bits, slip stops, retention records
(R20, R441 to R443, R447, R464, R465). -/
namespace Sys2Proof.Machine

/-- Detail kinds (Table 15.9). -/
inductive DKind where
  | a | b | c | d | e | f | g | h | i
  deriving DecidableEq, Repr

/-- Detail kind of a source (Tables 15.2 to 15.5). -/
def detailKind (s : Nat) : DKind :=
  if s < 0x200 then
    (match s % 0x20 with
     | 0x01 => .g
     | 0x03 => .d
     | 0x04 => .d
     | 0x05 => .d
     | 0x06 => .d
     | 0x07 => .a
     | 0x08 => .a
     | 0x09 => .d
     | 0x0B => .e
     | _ => .f)
  else if s < 0x600 then
    (match (s - 0x200) % 0x40 with
     | 0x05 => .f
     | 0x09 => .f
     | 0x0A => .d
     | 0x0B => .d
     | 0x0C => .a
     | 0x0D => .h
     | 0x0E => .d
     | 0x14 => .f
     | 0x18 => .d
     | 0x19 => .d
     | 0x1A => .d
     | 0x1B => .d
     | 0x1C => .c
     | 0x1D => .c
     | 0x1E => .d
     | 0x23 => .i
     | 0x24 => .d
     | 0x25 => .d
     | 0x26 => .d
     | 0x27 => .d
     | 0x28 => .e
     | 0x29 => .d
     | 0x2A => .d
     | k => if k < 9 then .b else .a)
  else if s < 0x680 then
    (match (s - 0x600) % 0x20 with
     | 0x00 => .d
     | 0x01 => .d
     | 0x02 => .e
     | k => if k % 4 = 2 then .e else .f)
  else if s = 0x681 ∨ s = 0x6C2 then .c
  else if s = 0x683 ∨ s = 0x6A4 ∨ s = 0x6C4 then .e
  else .f

/-- Detail words as the kind of a source carries them (Table 15.9). -/
def detailOf (s : Nat) (d0 d1 : Nat) : Nat × Nat :=
  match detailKind s with
  | .a => (d0, d1 % 2 ^ 18)
  | .b => (d0, d1)
  | .c => (d0, 0)
  | .d => (d0, 0)
  | .e => (d0 % 32, d1)
  | .f => (0, 0)
  | .g => (d0, 0)
  | .h => (d0, d1 % 2 ^ 43 / 16 * 16)
  | .i => (d0, d1 % 2 ^ 42)

/-- DPA that the details of a source name. -/
def detailDpa (s d0 d1 : Nat) : Option Nat :=
  match detailKind s with
  | .a => some d0
  | .h => some d0
  | .i => some d0
  | .b => if d1 = noDpa then none else some d1
  | _ => none

/-- The core die runs or is starting. -/
def Dev.coreOn (d : Dev) : Bool := decide (d.boot.phase ∈ [.trust, .starting, .active])

/-- The unit a source lies in exists on this part (R3). -/
def Dev.srcOn (d : Dev) (s : Nat) : Bool :=
  if s < 0x200 then d.on (s / 0x20) else if s < 0x600 then d.on ((s - 0x200) / 0x40) else true

/-- What a source's own fault does beside its record (Table 15.5): the Ferryman stops, the Tollhouse restarts. -/
def Dev.faultAction (d : Dev) (s : Nat) : Dev :=
  if s = 0x682 ∨ s = 0x683 then d.fmnDown
  else if s = 0x6A4 then d.tlhRestart
  else if s = 0x6A1 then { d with tlhBusy := true, tlh := { d.tlh with st := .stopped } }
  else d

/-- A source reports (R441, R443, R464): `full` when its detail latch is full. A reserved ID never reports; the mooring die's sources are retained
while the core die is unpowered; a report of a Tollhouse restart is that restart. -/
def Dev.faultReport (d : Dev) (s d0 d1 : Nat) (full : Bool) : Dev :=
  if (sourceInfo s).isNone || !d.srcOn s then d
  else if !d.coreOn then (if 0x740 ≤ s ∧ s < 0x7C0 ∧ d.boot.phase ≠ .off then d.retain s 0 else d)
  else if s = 0x6A0 then d.tlhRestart
  else
    let x := detailOf s d0 d1
    let sub := if detailKind s = .g then some (d0 % 16) else none
    (d.report { src := s, det0 := x.1, det1 := x.2, dnc := full, dpa := if full then none else detailDpa s d0 d1, sub }).faultAction s

/-- A wire-fault record (R442): Corrected, outside merging and escalation. -/
def Dev.wireRecord (d : Dev) (s : Nat) (i : SInfo) : Dev :=
  if 4096 ≤ d.lko.recs.length then { d with lko := { d.lko with overflow := d.lko.overflow + 1 } }
  else
    let r : FRec := { seq := d.lko.next, src := s, arr := .corrected, fin := .corrected, wire := true, time := d.time, path := sourcePath s i.unit, early := !d.active }
    let irq := d.lko.irq + bit (!d.quiet s)
    ({ d with lko := { d.lko with recs := d.lko.recs ++ [r], next := d.lko.next + 1, irq } } : Dev).evPool .fault [r.seq, s, 0, 0] 0

/-- The rails of a pair are equal on a third sample (R442): one report of the source, its detail unknown, then the wire-fault record. -/
def Dev.wireBroken (d : Dev) (s : Nat) : Dev :=
  match sourceInfo s with
  | none => d
  | some i =>
    if (tget {} d.lko.src s).wiref || !d.coreOn || !d.srcOn s then d
    else
      let d := { d with lko := { d.lko with src := tmod {} d.lko.src s fun x => { x with wiref := true, asrt := true } } }
      (d.report { src := s, dnc := true }).wireRecord s i

/-- The rails differ again (R442). -/
def Dev.wireRestored (d : Dev) (s : Nat) : Dev :=
  { d with lko := { d.lko with src := tmod {} d.lko.src s fun x => { x with wiref := false, asrt := false } } }

/-- Location of an island. -/
def islandPath : Island → Path
  | .landing n => mkPath 0 (quadOf n.val) n.val 0
  | .slice n => mkPath 0 (quadOf n.val) (16 + n.val) 0
  | .qfab q => mkPath 0 q.val (16 + 4 * q.val) 0x30
  | .lane q r => mkPath 0 q.val (16 + 4 * q.val) (0x40 + 4 * q.val + r.val)
  | .fmn => mkPath 0 4 32 0
  | .tlh => mkPath 0 4 33 0
  | .brg => mkPath 0 4 34 0

/-- Slip-stop source of a suspect island (Tables 15.2 to 15.5): none for a lane from a quadrant to itself. -/
def slipSource : Island → Option Nat
  | .landing n => some (ldSrc n.val 0x0B)
  | .slice n => some (sliceSrc n.val 0x28)
  | .qfab q => some (0x600 + 0x20 * q.val + 0x02)
  | .lane q r => if q = r then none else some (0x600 + 0x20 * q.val + 0x06 + 4 * (if r.val < q.val then r.val else r.val - 1))
  | .fmn => some 0x683
  | .tlh => some 0x6A4
  | .brg => some 0x6C4

/-- A slip stops (R20): the suspect's source reports, the reporting island, sender or receiver, being the second path; the message held on the
sender's side is kept. -/
def Dev.slipStop (d : Dev) (suspect sender receiver : Island) (byReceiver : Bool) (cls phase : Nat) : Dev :=
  match slipSource suspect with
  | none => d
  | some s =>
    if !d.coreOn || !d.srcOn s then d
    else
      let pair := (islandPath sender, islandPath receiver)
      let d := if pair ∈ d.lko.stopped then d else { d with lko := { d.lko with stopped := d.lko.stopped ++ [pair] } }
      let rep : Rep := { src := s, det0 := bit byReceiver + 2 * (cls % 16), det1 := phase, path2 := some (if byReceiver then pair.2 else pair.1) }
      (d.report rep).faultAction s

/-- No keep-alive from the Lookout for 100 µs (R464): the Mooring island records 702h and asserts FATAL_N, unless the link itself reports a fault. -/
def Dev.keepAliveLost (d : Dev) : Dev :=
  let crc := d.lko.recs.any fun r => (decide (r.src = 0x740) || decide (r.src = 0x741)) && !r.ack
  if !d.coreOn || crc then d else { d.retain 0x702 0 with fatalN := true }

/-- Deliver one retention record (R464, R509): final class Fatal for Gangway trips and the two other sources, with its event records; the device
does not enter the Fatal state. -/
def Dev.deliverOne (d : Dev) (x : Reten) : Dev :=
  match sourceInfo x.src with
  | none => d
  | some i =>
    let fin := d.arrival x.src i
    let path : Path := { sourcePath x.src i.unit with array := x.array, depth := if x.array = 0 then (sourcePath x.src i.unit).depth else 2 }
    if 4096 ≤ d.lko.recs.length then { d with lko := { d.lko with overflow := d.lko.overflow + 1 } }
    else
      let r : FRec := { seq := d.lko.next, src := x.src, arr := fin, fin, time := x.time, path, echo := x.echo, echoed := decide (x.echo ≠ 0), kept := true, early := true
                        det0 := x.det0, det1 := x.det1 }
      let d := { d with lko := { d.lko with recs := d.lko.recs ++ [r], next := d.lko.next + 1, src := tmod {} d.lko.src x.src fun y => { y with count := satAdd (2 ^ 32 - 1) y.count 1 } } }
      let d := d.evPool .fault [r.seq, r.src, r.det0, r.det1] fin.sev
      (if fin = .fatal then d.units else []).foldl (fun d n => d.evHost n .fault [r.seq, r.src, r.det0, r.det1] fin.sev) d

/-- The mooring link comes up after a start of the core die (R464): the retention records go to the Lookout. -/
def Dev.linkUp (d : Dev) : Dev :=
  if !d.coreOn || d.moor.linkUp then d
  else
    let rs := d.moor.ret
    rs.foldl (fun d x => d.deliverOne x) { d with moor := { d.moor with linkUp := true, ret := [] } }

end Sys2Proof.Machine
end

