-- ==== Sys2Proof/Machine/Tele.lean ====
section
/-! DEFINITION. Counter windows, PTM, sensors, throttling and the wakes that come from pins and links (R407, R471 to R473, R477 to R479, R484,
R488 to R493, R565). -/
namespace Sys2Proof.Machine

/-- The accumulator of a pair at a window boundary (R471, Table 16.4): the increase latches modulo 2^32, and WRAP is sticky. -/
def Acc.latch (a : Acc) (now : Nat) : Acc :=
  let inc := (now + 2 ^ 64 - a.start) % 2 ^ 64
  { last := BitVec.ofNat 32 inc, wrap := a.wrap || decide (2 ^ 32 - 1 ≤ inc), start := now }

/-- A byte meter at a window boundary (R473). -/
def Meter.latch (m : Meter) : Meter := { rd := 0, wr := 0, rdL := m.rd, wrL := m.wr }

/-- The counter page of a landing at a window boundary (R407): SEQ moves by two, 010h to 04Fh are written and a new BASE applies. -/
def CPage.update (p : CPage) (time base : Nat) (m : Meter) : CPage :=
  { seq := (p.seq + 2) % 2 ^ 64, time, window := p.window + 1, base, rd := m.rdL, wr := m.wrL, rdT := p.rdT + m.rdL, wrT := p.wrT + m.wrL }

/-- A window boundary, at the next device time that is a whole multiple of WINLEN (R471 to R473, R407). A new value of p0220 applies with the
window that begins, and starts a new counter epoch (R472). -/
def Dev.windowBoundary (d : Dev) : Dev :=
  if !d.coreOn then d
  else
    let t := (d.time / d.tele.winlen + 1) * d.tele.winlen
    let pairs := (d.ctr.map fun x => x.1 / 2) ++ d.tele.acc.map (·.1)
    let acc := pairs.eraseDups.foldl (fun a k => tmod {} a k fun x => x.latch (pairValue d.ctr k)) d.tele.acc
    let ldm := d.tele.ldm.map fun x => (x.1, x.2.latch)
    let chm := d.tele.chm.map fun x => (x.1, x.2.latch)
    let pages := d.units.foldl (fun g n => tmod {} g n fun p => p.update t (d.p (0x210 + n)) (tget {} ldm n)) d.tele.pages
    let d : Dev := { d with time := t, tele := { d.tele with acc, ldm, chm, pages } }
    let len := d.p 0x220
    if len = d.tele.winlen then d else ({ d with tele := { d.tele with winlen := len } } : Dev).newEpoch

/-- The landing that serves as time source: p0221 names it, it is Up, and its host has enabled PTM (R478). -/
def Dev.timeSource (d : Dev) : Option Nat :=
  let n := d.p 0x221
  if d.on n && decide ((d.ld n).link.st = .up) && (d.ld n).ptm then some n else none

/-- A successful PTM dialog (R478): an offset below 1 ms is left to slewing, a larger one steps device time and starts a new counter epoch.
The dialog's own time is the device time after a step. -/
def Dev.ptmDialog (d : Dev) (offset : Int) : Dev :=
  match d.timeSource with
  | none => d
  | some n =>
    if !d.coreOn then d
    else
      let ns : Int := BitVec.toInt (BitVec.ofInt 32 offset)
      let d : Dev := { d with tele := { d.tele with sync := true, src := n, offset := ns } }
      let d : Dev :=
        if offset.natAbs < 1000000 then { d with tele := { d.tele with slew := offset, slewAge := 0 } }
        else d.stepTime ((d.time : Int) + offset).toNat
      { d with tele := { d.tele with dialog := d.time } }

/-- No PTM dialog has succeeded for 100 ms (R478): SYNC clears and device time runs free. -/
def Dev.ptmTimeout (d : Dev) : Dev := { d with tele := { d.tele with sync := false, src := 0xFF, slew := 0, slewAge := 0 } }

/-- One nanosecond of device time: at most 500 ppm of it is slewed, and slewing never turns the time back (R477, R478). -/
def Dev.clockTick (d : Dev) : Dev :=
  if d.tele.slew = 0 then { d with time := d.time + 1 }
  else if d.tele.slewAge + 1 < 2000 then { d with time := d.time + 1, tele := { d.tele with slewAge := d.tele.slewAge + 1 } }
  else if 0 < d.tele.slew then { d with time := d.time + 2, tele := { d.tele with slew := d.tele.slew - 1, slewAge := 0 } }
  else { d with tele := { d.tele with slew := d.tele.slew + 1, slewAge := 0 } }

/-- A sensor is covered by an unacknowledged sensor-ADC fault, or lies in a slice fused off (R479). -/
def Dev.sensorBad (d : Dev) (k : Nat) : Bool :=
  (decide (k < 16) && !d.on k) || d.lko.recs.any fun r => decide (r.src = 0x743) && !r.ack

/-- A sample of the sensors (R479, Table 16.10): 12-bit values, signed for temperatures, unsigned for voltages. -/
def Dev.sensorSample (d : Dev) (vals : List Int) : Dev :=
  if d.boot.phase = .off then d
  else
    let val := fun (k : Nat) (v : Int) => if k < 22 then BitVec.toInt (BitVec.ofInt 12 v) else ((BitVec.ofInt 12 v).toNat : Int)
    let sens := (vals.take 24).zipIdx.foldl (fun t x => tput (0, false) t x.2 (val x.2 x.1, !d.sensorBad x.2)) d.tele.sens
    { d with tele := { d.tele with sens } }

/-- Location of a junction sensor (R565, Table 16.9). -/
def sensorPath (k : Nat) : Path :=
  if k < 16 then mkPath 0 (k / 4) (16 + k) 0
  else if k < 20 then { quad := k - 16, depth := 5 }
  else if k = 20 then { quad := 4, depth := 5 }
  else mkPath 1 4 37 0

/-- The hottest valid junction sensor (R479). -/
def Dev.hottest (d : Dev) : Option (Nat × Int) :=
  let live := (List.range 22).filter fun k => (tget (0, false) d.tele.sens k).2 && !d.sensorBad k
  (argMax (fun (k : Nat) => ((tget (0, false) d.tele.sens k).1 + 4096).toNat) live).map fun k => (k, (tget (0, false) d.tele.sens k).1)

/-- A millisecond above a limit (R492): every channel's step rises while the junction is above p0082, and one channel's while its hottest DIMM is
above p019D; 7C0h and 7C2h are recorded, and D_Q is computed anew (R317). -/
def Dev.throttleRise (d : Dev) : Dev :=
  if !d.coreOn then d
  else
    let hot := match d.hottest with
      | some (k, t) => if (d.p 0x82 : Int) < t then some k else none
      | none => none
    let before := d.units.filter fun c => decide (d.step c = 0)
    let d := match hot with
      | some k =>
        let e : Dev := { d with pwr := { d.pwr with jact := true, jstep := min 7 (d.pwr.jstep + 1) } }
        if before.isEmpty then e else e.report { src := 0x7C0, path := some (sensorPath k) }
      | none => d
    let ovr := d.units.filter fun c => decide (d.p 0x19D < 10 * (d.ch c).temp)
    let d := ovr.foldl (fun d c =>
      (d.modCh c fun x => { x with dimmStep := min 7 (x.dimmStep + 1) }).report { src := 0x7C2, path := some (mkPath 0 (quadOf c) (16 + c) 0x1F) }) d
    if hot.isSome || !ovr.isEmpty then d.recompute else d

/-- Ten milliseconds below a limit by its margin (R492): 5.0 °C for the junction, 3 °C for a DIMM. -/
def Dev.throttleFall (d : Dev) : Dev :=
  if !d.coreOn then d
  else
    let low := match d.hottest with
      | some (_, t) => decide (t + 50 ≤ (d.p 0x82 : Int))
      | none => false
    let above := match d.hottest with
      | some (_, t) => decide ((d.p 0x82 : Int) < t)
      | none => false
    let d : Dev := { d with pwr := { d.pwr with jact := above, jstep := if low then d.pwr.jstep - 1 else d.pwr.jstep } }
    let cool := d.units.filter fun c => decide (0 < (d.ch c).dimmStep) && decide (10 * (d.ch c).temp + 30 ≤ d.p 0x19D)
    (cool.foldl (fun d c => d.modCh c fun x => { x with dimmStep := x.dimmStep - 1 }) d).recompute

/-- A junction reaches p0083 (R493, R565): the comparator asserts THERMTRIP_N, until a cold reset, and 7C1h is recorded. -/
def Dev.thermTrip (d : Dev) (sensor : Nat) : Dev :=
  if d.boot.phase = .off ∨ 22 ≤ sensor then d
  else
    let was := d.pwr.trip
    let d : Dev := { d with pwr := { d.pwr with trip := true } }
    if was || !d.coreOn then d else d.report { src := 0x7C1, path := some (sensorPath sensor) }

/-- A Moored landing has had no message for 1 µs (R484): it requests ASPM L1 entry. -/
def Dev.aspmEntry (d : Dev) (n : Nat) : Dev :=
  let l := d.ld n
  if d.ldMoored n && l.aspm && decide (l.link.st = .up) then d.modLd n fun l => { l with link := { l.link with l1 := true } } else d

/-- A WAKE_N pin was held at a level for a time (R488): it wakes if that is its active level, for at least 1 µs. -/
def Dev.wakePin (d : Dev) (k : Nat) (high : Bool) (ns : Nat) : Dev :=
  let active := decide (high = decide (bits (d.p 0x81) k 1 = 1))
  if decide (k < 4) && active && decide (1000 ≤ ns) then d.wakeUp (k + 1) 0 else d

/-- Electrical-idle exit on a landing in L1 (R488, Table 17.5): the link leaves L1, and a Moored device wakes; in Laid-up it is ignored. -/
def Dev.linkActivity (d : Dev) (n : Nat) : Dev :=
  if !(d.ld n).link.l1 || !d.coreOn then d
  else (d.modLd n fun l => { l with link := { l.link with l1 := false } }).wakeUp 5 n

end Sys2Proof.Machine
end

