-- ==== Sys2Proof/Machine/PilotOps.lean ====
section
/-! DEFINITION. Pilot modules: loading, activation, API calls, the scheduler tick and restarts (R433 to R439, R350), and scratch accesses of the
central blocks (R189 to R191). -/
namespace Sys2Proof.Machine

/-- 4 KiB pages that bytes take. -/
def pagesFor (n : Nat) : Nat := (n + 4095) / 4096

/-- A package's sizes lie within the limits (Tables 14.14 and 14.15). -/
def Pkg.sizesOk (k : Pkg) : Bool :=
  decide (k.codeLen + k.dataLen ≤ 4 * 2 ^ 20) && decide (k.heap ≤ 16 * 2 ^ 20) && decide (k.scratch % 4096 = 0) && decide (k.scratch ≤ 8 * 2 ^ 20)
    && decide (k.nchan ≤ 8) && decide (k.entry < k.codeLen)

/-- Pages of the VALID regions of a memory from register `from_` upward, first and last. -/
def Dev.regionSpans (d : Dev) (m from_ : Nat) : List (Nat × Nat) :=
  ((List.range 16).filter fun k => decide (from_ ≤ k) && rgnValid (d.region m k)).map fun k => (rgnBase (d.region m k), rgnLimit (d.region m k))

/-- `n` pages from `b` touch none of the spans. -/
def clearOf (spans : List (Nat × Nat)) (b n : Nat) : Bool := spans.all fun s => decide (b + n ≤ s.1) || decide (s.2 < b)

/-- Place of a module in the Pilot area (R435): the lowest page of 7000_0000h to 77FF_FFFFh with room. -/
def Dev.pilotRoom (d : Dev) (n : Nat) : Option Nat :=
  let spans := d.regionSpans 1 3
  ((0x30000 :: spans.map fun s => s.2 + 1).filter fun b => decide (0x30000 ≤ b) && decide (b + n ≤ 0x38000) && clearOf spans b n).min?

/-- Place of a scratch region (R435): the highest pages with room in the scratch ways of one slice that is not bypassed, clear of pages found bad
(Table 19.4). -/
def Dev.scratchRoom (d : Dev) (n : Nat) : Option Nat :=
  let bad := d.units.flatMap fun s => (d.ms s).scrBad.map fun p => (s * 2048 + p, s * 2048 + p)
  let spans := d.regionSpans 3 1 ++ bad
  let tops := fun (s : Nat) => (s * 2048 + (d.ms s).wharf.m * 256) :: spans.map (·.1)
  let fits := fun (s top : Nat) => decide (s * 2048 + n ≤ top) && decide (top ≤ s * 2048 + (d.ms s).wharf.m * 256) && clearOf spans (top - n) n
  (((d.units.filter fun s => !(d.ms s).wharf.fenced).flatMap fun s => (tops s).filter (fits s)).map (· - n)).max?

/-- A region register as a load writes it (R435, Table 14.3): valid, locked, for one slot. -/
def pilotRegion (base limit slot bp code : Nat) : BitVec 128 :=
  BitVec.ofNat 128 (word [(0, 1), (1, 1), (4, base), (32, limit), (66, 2), (68, slot), (78, bp), (82, code)])

/-- Write a region register. -/
def Dev.putRegion (d : Dev) (m k : Nat) (v : BitVec 128) : Dev := { d with rgn := tput 0#128 d.rgn (16 * m + k) v }

/-- Syust keeps its own scratch region below a module's, so that the module's register is the one found (R418, R420). -/
def Dev.scratchBelow (d : Dev) (base : Nat) : Dev :=
  let r := d.region 3 0
  if rgnValid r && !rgnLock r && decide (base ≤ rgnLimit r) then
    d.putRegion 3 0 (BitVec.ofNat 128 (r.toNat - rgnLimit r * 2 ^ 32 + (base - 1) * 2 ^ 32))
  else d

/-- Load a module (R433 to R435): verified, measured, given its regions, its init callback entered; or the status that keeps the slot empty. -/
def Dev.loadModule (d : Dev) (slot : Nat) (k : Pkg) (survived : Bool) : Option Int × Dev :=
  if d.tlhBusy then (some tmBusy, d)
  else if !d.pkgOk (Pkg.img k) || !Pkg.sizesOk k then (some tmVerify, d)
  else
    let code := pagesFor k.codeLen
    let total := code + pagesFor (k.dataLen + k.heap)
    let sp := pagesFor k.scratch
    match d.pilotRoom total with
    | none => (some tmNoSpace, d)
    | some b =>
      let free := (List.range 16).find? fun j => decide (1 ≤ j) && !rgnValid (d.region 3 j)
      let scr : Option (Nat × Nat) := match free, d.scratchRoom sp with
        | some j, some x => some (j, x)
        | _, _ => none
      if sp ≠ 0 ∧ scr.isNone then (some tmNoSpace, d)
      else
        match d.measure { kind := 7, slot, svn := k.svn, digest := k.digest } with
        | (false, d) => (some tmNoSpace, d)
        | (true, d) =>
          let d := d.putRegion 1 (3 + slot) (pilotRegion b (b + total - 1) slot 0 code)
          let (base, d) : Nat × Dev := match scr with
            | some (j, x) => if sp = 0 then (0, d) else (0x80000000 + x * 4096, (d.putRegion 3 j (pilotRegion x (x + sp - 1) slot 2 0)).scratchBelow x)
            | none => (0, d)
          (none, d.modPilot slot fun p =>
            { p with run := some k, past := false, survived, cb := some 0, wait := none, events := [], scrBase := base, scrLen := k.scratch
                     calls := 0, cmds := 0, secTicks := 0, used := 0, winTicks := 0 })

/-- Load a slot, with the event record of a load that fails (R434, R435). -/
def Dev.loadSlot (d : Dev) (slot : Nat) : Dev :=
  match (d.pilot slot).inst with
  | none => d
  | some k =>
    match d.loadModule slot k false with
    | (none, d) => d
    | (some st, d) => d.evPool .moduleEvent [slot, st.natAbs] 1

/-- Pilot modules are enabled: p0240, which the fuse PILOT_DIS forces to 0 (Table 14.6). -/
def Dev.pilotsOn (d : Dev) : Bool := decide (d.p 0x240 = 1) && decide (d.fuse 52 1 = 0)

/-- Syust loads every slot at start-up (R434). -/
def Dev.loadAll (d : Dev) : Dev :=
  if !d.pilotsOn then d
  else (List.range 8).foldl (fun d s => if (d.pilot s).held || (d.pilot s).run.isSome then d else d.loadSlot s) d

/-- A newly installed package replaces the module in its slot at its callback's return (R434, R439). -/
def Dev.activateModule (d : Dev) (slot : Nat) : Dev :=
  let p := d.pilot slot
  if !d.fmnUp || !d.pilotsOn || !p.newPkg || p.inst.isNone then d
  else
    let d := (d.stopModule slot).clearRegions slot
    (d.modPilot slot fun p => { p with newPkg := false, held := false, scrBase := 0, scrLen := 0 }).loadSlot slot

/-- One second after a sandbox fault the module is started again (R439), unless the slot stays stopped. -/
def Dev.pilotAgain (d : Dev) (slot : Nat) : Dev :=
  let p := d.pilot slot
  if !d.fmnUp || !d.pilotsOn || p.run.isSome || p.held || p.faults.isEmpty then d else d.loadSlot slot

/-- The Tollhouse raises a module ID's floor (R433): up to 64 IDs. -/
def Dev.raiseFloor (d : Dev) (k : Pkg) : Dev :=
  let l := d.tlh.floors
  let out := if l.any fun f => decide (f.1 = k.modid) then l.map fun f => if f.1 = k.modid then (f.1, max f.2 k.svn) else f
    else if l.length < 64 then l ++ [(k.modid, k.svn)] else l
  { d with tlh := { d.tlh with floors := out } }

/-- A callback returns: the first one is init, and the package's floor is raised (R433). -/
def Dev.callbackEnds (d : Dev) (slot : Nat) : Dev :=
  let p := d.pilot slot
  let d := match p.run with
    | some k => if p.past then d else d.raiseFloor k
    | none => d
  d.modPilot slot fun p => { p with cb := none, past := p.run.isSome }

/-- One API call of a running module (R436, R437): beyond 20,000 in a second it is a sandbox fault; otherwise it acts and returns a status. -/
def Dev.api (d : Dev) (slot : Nat) (f : Dev → (Int × List Nat) × Dev) : Dev :=
  let p := d.pilot slot
  if !d.fmnUp || p.run.isNone || p.wait.isSome then d
  else if 20000 ≤ p.calls then d.sandbox slot 5
  else
    match f (d.modPilot slot fun p => { p with calls := p.calls + 1 }) with
    | ((r, v), d) => d.modPilot slot fun p => { p with ret := r, val := v }

/-- A negative status that the spec does not name: one of those of Table 14.1. -/
def Dev.openStatus (d : Dev) : (Int × List Nat) × Dev :=
  let (n, d) := d.draw
  ((-1 - ((Config.openNat n % 8 : Nat) : Int), []), d)

/-- A command of the Operator role by its opcode (Table 12.5, R437): every other one is refused as the command set refuses it. -/
def Dev.operatorCmd (d : Dev) (pn opcode : Nat) (p : List Byte) : Dev :=
  match opcode with
  | 0xC401 => d.getExtents pn p
  | 0xC403 => d.getEntries pn p
  | 0xC404 => d.advanceEpoch pn p
  | 0xC405 => d.setPagePin pn p
  | 0xC406 => d.wharfPin pn p
  | 0xC407 => d.wharfMaint pn p
  | 0xC40B => d.capacityStatus pn p
  | 0xC502 => d.ctxRecords pn p
  | 0xC601 => d.getClasses pn p
  | 0xC603 => d.occupancy pn p
  | 0xC900 => d.manifest pn p
  | 0xC901 => d.getParam pn p
  | 0xC902 => d.setParam pn p
  | _ => d.unsupported pn opcode

/-- plt_cmd (R437, Table 14.15): 2,000 a second, at most 64 KiB; its outcome lies on the slot's path. -/
def Dev.pltCmd (d : Dev) (slot opcode : Nat) (p : List Byte) : Dev :=
  d.api slot fun d =>
    if 65536 < p.length then ((tmInval, []), d)
    else if 2000 ≤ (d.pilot slot).cmds then d.openStatus
    else
      let d := (d.modPilot slot fun p => { p with cmds := p.cmds + 1 }).operatorCmd (49 + slot) opcode p
      ((0, [(d.path (49 + slot)).ans.rc.code, (d.path (49 + slot)).ans.dcode]), d)

/-- plt_event_wait (R437): the oldest pending event at once, or the callback ends and the module waits for the next event or the timeout. -/
def Dev.pltWait (d : Dev) (slot ns : Nat) : Dev :=
  d.api slot fun d =>
    match (d.pilot slot).events with
    | e :: es => ((0, [e.1, e.2]), d.modPilot slot fun p => { p with events := es })
    | [] => ((0, []), (d.callbackEnds slot).modPilot slot fun p => { p with wait := some ns })

/-- Channels a slot holds. -/
def Dev.channelsOf (d : Dev) (slot : Nat) : List Nat := (List.range 64).filter fun c => decide ((d.bg c).slot = some slot)

/-- Give a channel to a slot (R321, Table 11.1, R437): level 0 or 1; with scratch, a ring of eight descriptors in it, enabled. -/
def Dev.giveChannel (d : Dev) (slot : Nat) (c : Nat) : Dev :=
  let k := (d.channelsOf slot).length
  let p := d.pilot slot
  let base := if p.scrLen = 0 then 0 else p.scrBase + 512 * k
  let d := d.modBg c fun b => { b.disable with owner := .pilot, slot := some slot, pri := min 1 b.pri, space := 1, base }
  if p.scrLen = 0 then d else d.bgEnable c 0 true

/-- plt_barge_claim (R437, Table 14.15): within 8 channels a module and p0241 in all. -/
def Dev.pltClaim (d : Dev) (slot n : Nat) : Dev :=
  d.api slot fun d =>
    let free := (List.range 64).filter fun c =>
      decide (16 ≤ c) && decide (c ≤ 62) && decide ((d.bg c).owner = .syust) && decide ((d.bg c).st ∈ [.disabled, .stopped]) && (d.bg c).cur.isNone
    let all := ((List.range 64).filter fun c => decide ((d.bg c).owner = .pilot)).length
    if n = 0 ∨ 8 < n then ((tmInval, []), d)
    else if 8 < (d.channelsOf slot).length + n ∨ d.p 0x241 < all + n ∨ free.length < n then d.openStatus
    else ((0, free.take n), (free.take n).foldl (fun d c => d.giveChannel slot c) d)

/-- plt_barge_release (R437, R438): the channel stops at its boundary and goes back to Syust. -/
def Dev.pltRelease (d : Dev) (slot c : Nat) : Dev :=
  d.api slot fun d =>
    if (d.bg c).slot = some slot then ((0, []), d.modBg c fun b => b.stopNow.release) else ((tmDenied, []), d)

/-- A descriptor as a driver posts it (R325): OWN set, STATUS and RESULT zero. -/
def postForm (x : Line) : List Byte := (le 8 (bits x.toNat 1 63 * 2 + 1) ++ (bytesOf 64 x).drop 8).take 48 ++ zeros 16

/-- Post descriptors to a ring in the internal map and ring its doorbell (R324, R325): a count beyond the ring halts the channel and writes none. -/
def Dev.postRing (d : Dev) (ag : Agent) (c : Nat) (xs : List Line) : Bool × Dev :=
  let b := d.bg c
  let tail := b.tail + BitVec.ofNat 17 xs.length
  if b.ringSize < xs.length + (b.tail - b.head).toNat then (true, d.doorbell c tail)
  else
    let r := xs.zipIdx.foldl (fun (s : Bool × Dev) x =>
      let a := b.base + (b.tail.toNat + x.2) % b.ringSize * 64
      let w := s.2.intWrite ag a (postForm x.1)
      (s.1 && w.1, w.2)) (true, d)
    if r.1 then (true, r.2.doorbell c tail) else (false, d)

/-- plt_barge_post (R437): only to a channel the module holds, and only operations a Pilot driver may issue; else nothing is posted. A ring that
the module may not write is a denied access (R418). -/
def Dev.pltPost (d : Dev) (slot c : Nat) (xs : List Line) : Dev :=
  d.api slot fun d =>
    if (d.bg c).slot ≠ some slot then ((tmDenied, []), d)
    else if xs.any fun x => !mayIssue (.pilot slot) (parseDesc x).2 then ((tmInval, []), d)
    else
      match d.postRing (.qp slot) c xs with
      | (true, d) => ((0, []), d)
      | (false, d) => ((tmDenied, []), d.sandbox slot 1)

/-- A PACK descriptor of one candidate page (Table 11.2, R350). -/
def packDesc (dpa : Nat) : Line := BitVec.ofNat 512 (word [(1, 4), (32, 1), (64, dpa)])

/-- plt_ballast_post (R350, R437): Syust posts at most 4,096 candidate pages to the ring of BG63. -/
def Dev.pltBallast (d : Dev) (slot : Nat) (pages : List Nat) : Dev :=
  d.api slot fun d =>
    if 4096 < pages.length ∨ (pages.any fun a => decide (a % 4096 ≠ 0) || decide (2 ^ 45 ≤ a)) then ((tmInval, []), d)
    else if (d.bg 63).space ≠ 1 ∨ (d.bg 63).ringSize < pages.length + ((d.bg 63).tail - (d.bg 63).head).toNat then d.openStatus
    else
      match d.postRing .qs 63 (pages.map packDesc) with
      | (true, d) => ((0, []), d)
      | (false, d) => d.openStatus

/-- plt_scratch_base (R437). -/
def Dev.pltScratch (d : Dev) (slot : Nat) : Dev := d.api slot fun d => ((0, [(d.pilot slot).scrBase]), d)

/-- plt_counter_read (R437, R469): a pair's value at one cycle. -/
def Dev.pltCounter (d : Dev) (slot pair : Nat) : Dev :=
  d.api slot fun d => if pair < 512 then ((0, [pairValue d.ctr pair]), d) else ((tmInval, []), d)

/-- plt_time (R437): device time, ns. -/
def Dev.pltTime (d : Dev) (slot : Nat) : Dev := d.api slot fun d => ((0, [d.time]), d)

/-- plt_log (R437): a message of at most 256 B. -/
def Dev.pltLog (d : Dev) (slot level : Nat) (msg : List Byte) : Dev :=
  d.api slot fun d =>
    if 256 < msg.length then ((tmInval, []), d) else ((0, []), d.modPilot slot fun p => { p with log := p.log ++ [(level % 256, msg)] })

/-- One slot at a scheduler tick of 1 ms (R436, R438, Table 14.15): callback, time and rate windows; a wait that has run out returns. `total` is
the Ferryman time that the slots before it have used in the present 100 ms. -/
def Dev.tickSlot (d : Dev) (slot : Nat) (u : PilotUse) (total : Nat) : Dev :=
  if (d.pilot slot).run.isNone then d
  else
    let d := if u.returned then d.callbackEnds slot else d
    let d := d.modPilot slot fun p =>
      let p := { p with used := p.used + u.ns, cb := p.cb.map (· + 1000000), secTicks := p.secTicks + 1, winTicks := p.winTicks + 1 }
      match p.wait with
      | some w => if w ≤ 1000000 then p.push 5 0 else { p with wait := some (w - 1000000) }
      | none => p
    let p := d.pilot slot
    if 10000000 < p.cb.getD 0 then d.sandbox slot 3
    else if 10000000 < p.used ∨ 25000000 < total + p.used then d.sandbox slot 4
    else d.modPilot slot fun p =>
      let p := if 1000 ≤ p.secTicks then { p with secTicks := 0, calls := 0, cmds := 0 } else p
      if 100 ≤ p.winTicks then { p with winTicks := 0, used := 0 } else p

/-- The scheduler tick of 1 ms (R436): nothing runs while the Ferryman is unavailable. -/
def Dev.pilotTick (d : Dev) (us : List PilotUse) : Dev :=
  if !d.fmnUp then d
  else
    let use := fun (s : Nat) => (us.find? fun u => decide (u.slot.val = s)).getD {  slot := 0 }
    ((List.range 8).foldl (fun (r : Nat × Dev) s =>
      let mine := if (r.2.pilot s).run.isSome then (r.2.pilot s).used + (use s).ns else 0
      (r.1 + mine, r.2.tickSlot s (use s) r.1)) (0, d)).2

/-- Agent of a scratch access. -/
def scrAgent : ScrAgent → Agent
  | .syust => .qs
  | .pilot s => .qp s.val
  | .toll => .tw
  | .tollhouse => .th
  | .barge => .bs
  | .pilotBarge s => .bp s.val

/-- A read of the scratch window by a central block (R189 to R191, R418): its bytes, none on an access error or a denial. The access ends with its page. -/
def Dev.scratchRead (d : Dev) (ag : ScrAgent) (o n : Nat) (chk : Chk) : Dev :=
  let a := 0x80000000 + o % 2 ^ 27
  let n := min n (4096 - a % 4096)
  if !d.coreOn then d
  else if !d.allowed (scrAgent ag) a n false then ({ d with dbgOut := [] } : Dev).denied (scrAgent ag)
  else
    match d.rawRead a n chk with
    | (some (bs, _), d) => { d with dbgOut := bs }
    | (none, d) => { d with dbgOut := [] }

/-- A write of the scratch window by a central block (R189, R190, R418). -/
def Dev.scratchWrite (d : Dev) (ag : ScrAgent) (o : Nat) (bs : List Byte) : Dev :=
  let a := 0x80000000 + o % 2 ^ 27
  let bs := bs.take (4096 - a % 4096)
  if !d.coreOn then d
  else if !d.allowed (scrAgent ag) a bs.length true then d.denied (scrAgent ag)
  else (d.rawWrite a bs).2

end Sys2Proof.Machine
end

