-- ==== Sys2Proof/Machine/Boot.lean ====
section
/-! DEFINITION. Start-up: release of the core die, trust steps, release of the landings, DRAM bring-up, self-tests, memory-active, anti-rollback, reference
clocks and test ports (R167, R303, R394, R421 to R423, R511 to R533, R540, R545, R546). -/
namespace Sys2Proof.Machine

/-- A start is warm or a Laid-up exit: DRAM was kept in self-refresh (Table 19.1). -/
def Start.keeps : Start → Bool
  | .warm => true
  | .laidUp => true
  | _ => false

/-- Code of a start in its event record: the reset-marker cause (Table 19.9). -/
def Start.code : Start → Nat
  | .auxCold => 1
  | .pgCold => 2
  | .tripCold => 3
  | .escCold => 4
  | .warm => 0x10
  | .laidUp => 0x20

/-- The core rails have been in range for 1 ms: the core-die reset is released and the straps are sampled (R513, R546, R548). -/
def Dev.coreRelease (d : Dev) (testen : Bool) (spimode : Nat) : Dev :=
  if !decide (d.boot.phase = .aux) || !d.gwy.pg || d.boot.railFail then d
  else if testen then
    let d : Dev := d.retain 0x7C4 0
    { d with fatalN := true, boot := { d.boot with phase := .test, testen := true, spimode } }
  else
    let cold := fun (k : Start) (cause arg : Nat) => d.beginStart k .trust cause arg
    let d : Dev :=
      if d.pwr.trip then cold .tripCold 3 0
      else if d.boot.pgFell then cold .pgCold 2 d.gwy.lastfault
      else if d.boot.railLost then
        let (n, e) := d.draw
        e.beginStart .pgCold .trust (Config.openNat n % 256) 0
      else
        let e := cold .auxCold 1 0
        { e with boot := { e.boot with marks := e.boot.marks.dropLast } }
    { d with boot := { d.boot with testen := false, spimode } }

/-- The rails are not in range 100 ms after PG (R513): FATAL_N, and the core die stays in reset until PG falls. -/
def Dev.railTimeout (d : Dev) : Dev :=
  if decide (d.boot.phase = .aux) && d.gwy.pg then { d with fatalN := true, boot := { d.boot with railFail := true } } else d

/-- A rail leaves its range after the release (R513): the core die is in reset again, and the next start is cold. -/
def Dev.railOut (d : Dev) : Dev :=
  if d.boot.phase = .off ∨ d.boot.phase = .aux then d
  else
    let e := d.coldOff
    { e with boot := { e.boot with phase := .aux, railLost := true } }

/-- Values that fuses give parameters (Tables 13.1 and 14.6). -/
def Dev.fusedParams (d : Dev) : Dev :=
  let d := ((d.setP 0 (d.fuse 0 1)).setP 1 (d.fuse 16 16)).setP 2 (d.fuse 32 16)
  let d := if d.fuse 72 12 = 0 then d else d.setP 0x83 (d.fuse 72 12)
  let d := if d.fuse 52 1 = 1 then d.setP 0x240 0 else d
  if d.dbgLock = 3 then d.setP 0x1E2 0 else d

/-- The ROM senses the fuse map, ROOT reading zero (R421, Table 14.6). -/
def Dev.sense (d : Dev) (map : BitVec 2048) : Dev :=
  let root : BitVec 2048 := BitVec.ofNat 2048 ((2 ^ 256 - 1) * 2 ^ 256)
  let fz := map &&& ~~~root
  { d with fz, codeH := fz.getLsbD 0, sealEn := fz.getLsbD 50, sealSh := fz.getLsbD 50 && fz.getLsbD 51 }.fusedParams

/-- Every image of a bank is accepted (R422, R423). -/
def Dev.bankOk (d : Dev) (b : Nat) : Bool :=
  let ok := fun (i : Option Img) (floor : Nat) => match i with
    | some x => d.imgOk x floor
    | none => false
  let k := d.flash.bank b
  ok k.tlh d.arbt && ok k.mon d.arbf && ok k.sy d.arbf

/-- The bank a start runs, none for Recovery, with the boot directory as the Tollhouse leaves it, whether the bank is on trial, and whether an
event is due (R423, R530, R531). A Laid-up exit starts the bank that was running. -/
def Dev.pickBank (d : Dev) : Option Nat × Bool × Dev :=
  let dir := d.flash.dir
  let first := fun (l : List Nat) => l.find? d.bankOk
  if d.boot.kind = .laidUp then (first [d.boot.bank, 1 - d.boot.bank], false, d)
  else if 2 ≤ dir.pend then (first [dir.active % 2, 1 - dir.active % 2], false, d)
  else if 2 ≤ dir.tries ∨ !d.bankOk dir.pend then
    let flash := if 2 ≤ dir.tries then d.flash else d.flash.setDir fun x => { x with tries := x.tries + 1 }
    let d : Dev := { d with flash := flash.setDir fun x => { x with pend := 0xFF }, mg := { d.mg with bankEvt := some dir.active } }
    (first [dir.active % 2, 1 - dir.active % 2], false, d)
  else (some dir.pend, true, { d with flash := d.flash.setDir fun x => { x with tries := x.tries + 1 } })

/-- A region register as a start writes it (Table 14.5): range, and grants by the bit of their field. -/
def bootRegion (lock : Bool) (base limit : Nat) (grants : List (Nat × Nat)) : BitVec 128 :=
  BitVec.ofNat 128 (word ([(0, 1), (1, bit lock), (4, base), (32, limit)] ++ grants))

/-- The fused regions (Table 14.5). -/
def Dev.fusedRegions (d : Dev) : Dev :=
  ((((d.putRegion 0 0 (bootRegion true 0x1C0 0x1FF [(72, 3)])).putRegion 0 2 (bootRegion true 0x1BF 0x1BF [(64, 2), (72, 2)])).putRegion 2 0
    (bootRegion true 0 0x1FFF [(72, 2)])).putRegion 2 1 (bootRegion true 0x2000 0x7FFF [(74, 2)])).putRegion 4 0 (bootRegion true 0 0x7F [(74, 3)])

/-- The regions Syust sets (Table 14.5). -/
def Dev.syustRegions (d : Dev) : Dev :=
  ((((d.putRegion 0 1 (bootRegion false 0 0x1BE [(64, 3), (80, 1)])).putRegion 1 0 (bootRegion false 0 0xFFFF [(64, 3), (80, 1)])).putRegion 1 1
    (bootRegion false 0x10000 0x17FFF [(64, 2), (76, 2), (80, 1)])).putRegion 1 2 (bootRegion false 0x18000 0x2FFFF [(64, 2), (76, 2)])).putRegion 3 0
    (bootRegion false 0 0x7FFF [(64, 2), (76, 2)])

/-- Measure one image (R424). -/
def Dev.measureImg (d : Dev) (kind slot : Nat) (i : Option Img) : Dev :=
  let x := i.getD {}
  (d.measure { kind, slot, svn := x.svn, digest := x.digest }).2

/-- The Tollhouse enters Recovery (R421, R423): the Ferryman and the landings stay in reset. -/
def Dev.recovery (d : Dev) (src : Nat) : Dev := ({ d with tlhBusy := true, tlh := { d.tlh with st := .recovery } } : Dev).report { src }

/-- The trust steps (R421 to R423, Table 14.7): fuses sensed, the boot nonce drawn on a cold start, images verified and measured, fused regions
written, the key of context 0 drawn on a cold start; the Ferryman is released. `fuseOk` and `sramOk` are what the ROM's own checks find. -/
def Dev.tollBoot (d : Dev) (map : BitVec 2048) (fuseOk sramOk : Bool) : Dev :=
  if !decide (d.boot.phase = .trust) || !decide (d.tlh.st = .booting) then d
  else if !fuseOk then d.recovery 0x6A3
  else if !sramOk then d.recovery 0x6A2
  else
    let d := d.sense map
    let cold := !d.boot.kind.keeps
    let (rom, d) := d.draw
    let d := (d.measure { kind := 1, digest := BitVec.ofNat 384 (Config.openNat rom) }).2
    let d := (d.measure { kind := 2, digest := ofBytes 384 (Config.sha384 (bytesOf 32 (d.fz.extractLsb' 0 256))) }).2
    let d := if cold then (let (n, e) := d.draw; { e with nonce := Config.drbg n }) else d
    match d.pickBank with
    | (none, _, d) => d.recovery 0x6A2
    | (some b, trial, d) =>
      let k := d.flash.bank b
      let d := (d.measureImg 3 b k.tlh).fusedRegions
      let d := if cold then (let (base, e) := d.drawKeys false; { e with tlh := { e.tlh with wrapped := tput none e.tlh.wrapped 0 (some base) } }) else d
      let d := (d.measureImg 4 b k.mon).measureImg 5 b k.sy
      let layout := Config.sha384 (d.rgn.flatMap fun x => bytesOf 16 x.2)
      let d := (d.measure { kind := 6, digest := ofBytes 384 layout }).2
      { d with tlhBusy := false, tlh := { d.tlh with st := .running, fw := k.tlh.getD {} }
               fmn := { d.fmn with st := .booting, mon := k.mon.getD {}, sy := k.sy.getD {} }
               boot := { d.boot with phase := .starting, bank := b, trial } }

/-- Parameters in effect when Syust starts (R392, R394, R395, Table 19.6): the store on a cold start, over the Gangway's own values; pending WR values
on a warm reset; unchanged on a Laid-up exit. `storeOk` is false when both copies fail. -/
def Dev.startParams (d : Dev) (storeOk : Bool) : Dev :=
  match d.boot.kind with
  | .laidUp => d
  | .warm =>
    d.mg.pend.foldl (fun d x => match x.2 with
      | some v => if effOf x.1 = .wr then { d.setP x.1 v with mg := { d.mg with pend := tput none d.mg.pend x.1 none } } else d
      | none => d) d
  | _ =>
    if !storeOk then { d with mg := { d.mg with storeBad := true } }
    else d.mg.store.foldl (fun d x => match x.2 with
      | some v => if d.fixed x.1 then d else d.setP x.1 v
      | none => d) d

/-- A pair merges as p0101 says, at a cold or a warm start (R47, R48). -/
def Dev.mergePairs (d : Dev) : Dev :=
  (List.range 8).foldl (fun d k =>
    if !d.on (2 * k) then d
    else
      let m := decide (bits (d.p 0x101) k 1 = 1)
      let even := fun (l : Landing) => { l with link := { l.link with merged := m }, pool := { l.pool with low := if m then 8192 else 4096 } }
      let odd := fun (l : Landing) => { l with link := { l.link with st := if m then .absorbed else l.link.st } }
      (d.modLd (2 * k) even).modLd (2 * k + 1) odd) d

/-- Release one landing (R515, R540): Disabled without its reference clock, in reset under PERST_N, otherwise in Detect. -/
def Dev.releaseLanding (d : Dev) (n : Nat) : Dev :=
  let clk := tget false d.moor.clk (n / 2)
  (d.applyLr n).modLd n fun l =>
    let k := l.link
    if k.st ≠ .reset then l
    else if !clk then { l with link := { k with st := .disabled } }
    else { l with link := { k with released := true, st := if k.perst then .reset else .training } }

/-- Memory_Active_Timeout (R516): 011b while 40 s and half a second for each queued row of a channel make at most 64 s. -/
def Dev.activeTimeout (d : Dev) : Nat :=
  let rows := fun (c : Nat) => ((d.flash.repair ++ d.flash.hppr).filter fun x => decide (x.1 = c)).eraseDups.length
  if d.units.any fun c => decide (48 < rows c) then 4 else 3

/-- Syust runs and releases the landings (R392 to R395, R515, R516, R533). -/
def Dev.landingsReleased (d : Dev) (storeOk : Bool) : Dev :=
  if !decide (d.boot.phase = .starting) || d.boot.released then d
  else
    let d := (d.startParams storeOk).fusedParams.syustRegions
    let d := if d.boot.kind = .laidUp then d
      else
        let d := d.mergePairs
        let sized := fun (s : Slice) => { s with wharf := { s.wharf with f := d.p 0x172, m := d.p 0x171 } }
        let d := d.units.foldl (fun d n => d.modMs n sized) d
        { d with mg := { d.mg with pold := d.p 0x1E0 }, moor := { d.moor with clkLost := [] } }
    let d := d.boot.marks.foldl (fun d m => d.logMark m) d
    let d : Dev := { d with fmnBusy := false, fmn := { d.fmn with st := .running, since := d.time }
                            boot := { d.boot with released := true, marks := [], timeout := d.activeTimeout } }
    d.units.foldl (fun d n => d.releaseLanding n) d

/-- A population as SPD reads give it (R276). -/
def SpdRead.pop (x : SpdRead) : Pop :=
  let type := if x.type = 0 then DimmType.rdimm else if x.type = 1 then .rdimm3ds else .mrdimm
  { type, gib := x.gib, dpc := x.dpc, ranks := x.ranks, x4 := x.x4, stack := x.stack, speed := x.speed, rows := x.rows, rfm := x.rfm }

/-- Two channels carry the same population (R274). -/
def Pop.same (a b : Pop) : Bool :=
  decide (a.type = b.type ∧ a.gib = b.gib ∧ a.dpc = b.dpc ∧ a.ranks = b.ranks) && decide (a.x4 = b.x4 ∧ a.stack = b.stack ∧ a.speed = b.speed)

/-- Highest speed of set A (Table 9.1). -/
def Pop.top (p : Pop) : Nat := if p.type = .mrdimm then 8800 else if p.dpc = 2 then 5200 else 6400

/-- Speeds of both sets that a full training ends with (R289). -/
def Dev.setSpeeds (d : Dev) (p : Pop) (reach : Nat) : Nat × Nat :=
  let a := min reach (min (min p.speed p.top) (d.p 0x19A))
  let b := d.p 0x199
  (a, if b ≤ a then b else if 4800 ≤ a then 4800 else if 4000 ≤ a then 4000 else 3200)

/-- A channel is left untrained (R300): fenced for its cause, with a record of source 09h. -/
def Dev.untrained (d : Dev) (c cause : Nat) : Dev := (d.fenceChannel c cause).report { src := sliceSrc c 0x09 }

/-- hPPR of the rows on the repair list at a cold start, while the DIMM has resources (R299). -/
def Dev.hardRepair (d : Dev) (c hppr : Nat) : Dev :=
  let rows := ((d.flash.repair ++ d.flash.hppr).filter fun x => decide (x.1 = c)).eraseDups
  (rows.foldl (fun (s : Tbl Nat × Dev) x =>
    let g := x.2.bank / 4
    if hppr ≤ tget 0 s.1 g then s
    else
      let out := fun (l : List (Nat × RowAddr)) => l.filter fun y => decide (y ≠ x)
      let d := s.2.modCh c fun y => { y with hppr := satAdd 255 y.hppr 1 }
      (tmod 0 s.1 g (· + 1), { d with flash := { d.flash with repair := out d.flash.repair, hppr := out d.flash.hppr } })) ([], d)).2

/-- The training-cache record of a channel may be used (R519). -/
def Dev.cacheValid (d : Dev) (c : Nat) (serial : List Nat) : Bool :=
  let r := tget {} d.flash.train c
  decide (d.p 0x10 = 1) && r.ok && decide (r.serial = serial) && decide (r.maxA = d.p 0x19A) && decide (r.setB = d.p 0x199)

/-- The channel runs set A (R518). -/
def Dev.channelActive (d : Dev) (c a b : Nat) : Dev :=
  d.modCh c fun x => { x with st := .active, tset := false, speed := a, spA := a, spB := b, selfRef := false, wcrc := decide (d.p 0x19B = 1), rfmEn := decide (d.p 0x192 = 1) }

/-- Training in full, its check, and its new record in the cache (R518, R519). -/
def Dev.fullTraining (d : Dev) (c : Nat) (x : SpdRead) : Dev :=
  if x.trainA && x.trainB && x.checkOk then
    let (a, b) := d.setSpeeds (d.ch c).pop x.reach
    (d.channelActive c a b).noteTraining c x.serial
  else d.untrained c 2

/-- The tree areas whose copy lies on a channel are written from their partner copies (R263, R303). -/
def Dev.rebuildAreas (d : Dev) (c : Nat) : Dev :=
  d.units.foldl (fun d s => (d.ms s).sl.roots.foldl (fun d r =>
    if r.2.st ≠ 2#2 then d
    else
      let n := d.sealArea (d.blockNear r.1) * 4096
      let frames := fun (d : Dev) (f : Nat) => (List.range (n / 4096)).foldl (fun d i => d.setUsed c (f + i) 0xFF#8 true) d
      if r.2.chA = c then ({ frames d r.2.frA with mem := memPut d.mem (chBase c + r.2.frA * 4096) (memRead d.mem (chBase r.2.chB + r.2.frB * 4096) n) } : Dev)
      else if r.2.chB = c then { frames d r.2.frB with mem := memPut d.mem (chBase c + r.2.frB * 4096) (memRead d.mem (chBase r.2.chA + r.2.frA * 4096) n) }
      else d) d) d

/-- A channel fenced before a warm reset is to train again (R303): entries that point to it lose their pages (R119), and its pool starts empty. -/
def Dev.emptyChannel (d : Dev) (c : Nat) : Dev :=
  let d := d.pm.ents.foldl (fun d e => match e.2 with
    | some x => if x.form ≠ .z ∧ x.chan = c then d.touchFenced (d.homeOf e.1) e.1 else d
    | none => d) d
  let mine := fun (k : Nat) => decide (k / 2 ^ 28 = c)
  let d : Dev := { d with pm := { d.pm with alloc := d.pm.alloc.filter fun x => !mine x.1 } }
  let d := (d.ch c).retList.foldl (fun d f => d.setUsed c f 0xFF#8 true) d
  d.rebuildAreas c

/-- Every channel done so far that differs from the lowest-numbered populated one is left untrained (R274). -/
def Dev.matchPops (d : Dev) : Dev :=
  let live := d.units.filter fun c => decide (c ∈ d.boot.chDone) && decide ((d.ch c).pop.gib ≠ 0)
  match live with
  | [] => d
  | r :: rest => rest.foldl (fun d c => if (d.ch c).pop.same (d.ch r).pop || decide ((d.ch c).st = .fenced) then d else d.untrained c 1) d

/-- A channel ends its bring-up (R300, R303, R518 to R520): Absent, Active, or fenced with its cause. -/
def Dev.channelUp (d : Dev) (c : Nat) (x : SpdRead) : Dev :=
  if !decide (d.boot.phase = .starting) || !d.boot.released || !d.on c || decide (c ∈ d.boot.chDone) then d
  else
    let d : Dev := { d with boot := { d.boot with chDone := d.boot.chDone ++ [c] } }
    let old := d.ch c
    if old.st = .fenced then d
    else if !x.ok then d.untrained c 3
    else if x.gib = 0 ∨ x.dpc = 0 then d.modCh c fun y => { y with pop := {}, st := .absent }
    else
      let keep := d.boot.kind.keeps && old.selfRef
      let d := if d.boot.kind.keeps then (if keep then d else d.emptyChannel c)
        else (d.modCh c fun y => { y with pop := SpdRead.pop x }).hardRepair c (SpdRead.pop x).hppr
      let d := d.modCh c fun y => { y with st := .training, pop := if y.pop.gib = 0 then SpdRead.pop x else y.pop }
      let d :=
        if keep then (if x.cacheOk && decide (0 < old.spA) then d.channelActive c old.spA old.spB else d.fullTraining c x)
        else if d.cacheValid c x.serial then
          (if x.cacheOk then d.channelActive c (tget {} d.flash.train c).spA (tget {} d.flash.train c).spB
           else ({ d with flash := { d.flash with train := tmod {} d.flash.train c fun r => { r with ok := false } } } : Dev).fullTraining c x)
        else d.fullTraining c x
      d.matchPops

/-- One location that failed its self-test (R458, R523, Table 19.4). -/
def Dev.sramFail (d : Dev) (f : SramFail) : Dev :=
  let n := f.unit
  if !f.lasting then
    (match f.arr with
     | .wharf | .scratch | .pmc | .sealCache | .keyTable | .conflict => if d.on n then d.modMs n fun s => { s with transients := s.transients + 1 } else d
     | _ => d)
  else
    match f.arr with
    | .wharf => if d.on n then d.testLocation n f.place true false else d
    | .scratch =>
      if d.on n then (d.modMs n fun s => { s with scrBad := s.scrBad ++ [f.place / 4096] }).report { src := sliceSrc n 0x1D, det0 := 0x80000000 + n * 2 ^ 23 + f.place } else d
    | .pmc => if d.on n then (d.modMs n fun s => { s with pmcBad := s.pmcBad ++ [f.place] }).report { src := sliceSrc n 0x0E, det0 := f.place } else d
    | .sealCache => if d.on n then (d.modMs n fun s => { s with sealBad := s.sealBad + 1 }).report { src := sliceSrc n 0x24, det0 := f.place } else d
    | .keyTable =>
      if !d.on n then d
      else if 0 < (d.ms n).sl.spare then
        (d.modSeal n fun s => { s with spare := s.spare - 1, remap := s.remap ++ [f.place] }).report { src := sliceSrc n 0x0A, det0 := f.place }
      else d.report { src := sliceSrc n 0x0B, det0 := f.place }
    | .pool => if d.on n then d.report { src := ldSrc n 0x04, det0 := f.place } else d
    | .boarding => if d.on n then d.report { src := ldSrc n 0x06, det0 := f.place } else d
    | .conflict => if d.on n then d.report { src := sliceSrc n 0x27, det0 := f.place } else d
    | .staging => if n < 64 then (d.modBg n fun b => { b with bad := true }).report { src := 0x6C2, det0 := f.place, path := some (bgPath 0x54 n) } else d
    | .fabric => if n < 4 then d.report { src := 0x600 + 0x20 * n + 0x01, det0 := f.place } else d

/-- The SRAM self-test finishes (R523). -/
def Dev.sramTest (d : Dev) (fs : List SramFail) : Dev :=
  if !decide (d.boot.phase = .starting) || !d.boot.released || d.boot.sramDone then d
  else fs.foldl (fun d f => d.sramFail f) { d with boot := { d.boot with sramDone := true } }

/-- Unit code of a lane (Table 15.8). -/
def laneUnit : CmpLane → Nat
  | .cmp => 0x15
  | .dec0 => 0x16
  | .dec1 => 0x17

/-- The compression-lane self-test (R167, R524): the vector set of the running bank, or of the other bank when it holds an accepted image of the same
Syust version; lanes that fail report and are fenced. -/
def Dev.laneTest (d : Dev) (bad : List (Nat × CmpLane)) : Dev :=
  if !decide (d.boot.phase = .starting) || !d.boot.sramDone || d.boot.laneDone then d
  else
    let d : Dev := { d with boot := { d.boot with laneDone := true } }
    let b := d.boot.bank
    let unread := fun (d : Dev) => d.report { src := 0x7C3, path := some (mkPath 0 4 34 0) }
    let own := (d.flash.bank b).vec
    let d := if own then d else unread d
    let spare := d.flash.bank (1 - b)
    let same := match spare.sy with
      | some i => d.imgOk i d.arbf && decide (i.ver = d.fmn.sy.ver)
      | none => false
    let d := if !own && same && !spare.vec then unread d else d
    if !own && !(same && spare.vec) then d
    else
      bad.foldl (fun d x => if d.on x.1 then d.report { src := sliceSrc x.1 0x14, unit := some (laneUnit x.2) } else d) d

/-- A start condition of R525 that cannot be met: 1 a pair with no trained channel, 2 the Fatal state, 3 the Tollhouse; none while they can. -/
def Dev.startBlocked (d : Dev) : Option (Nat × Nat) :=
  match d.units.find? fun c => !d.chOk c && !d.chOk (partner c) with
  | some c => some (1, c)
  | none => if d.lko.fatal then some (2, 0) else if d.tlh.st ≠ .running then some (3, 0) else none

/-- Free granules of every channel, and its tide state from them (R130, R521, R522). -/
def Dev.loadFree (d : Dev) : Dev :=
  (d.units.filter d.chOk).foldl (fun d c =>
    let used := d.pm.alloc.foldl (fun s x => if x.1 / 2 ^ 28 = c then s + popcount x.2 else s) 0
    (d.modCh c fun x => { x with free := d.frames c * 8 - used, tide := .high, tokens := d.p 0x165 }).retide c) d

/-- What a cold start sets before memory-active (R521, R238): S, and context 0, Open, with the key drawn for it. -/
def Dev.coldMemory (d : Dev) : Dev :=
  let segs := min d.regionBlocks (4 * d.installed / 2 ^ 28)
  let d : Dev := { d with pm := { d.pm with segs } }
  match tget none d.tlh.wrapped 0 with
  | some base => d.keyArrives 0 base
  | none => d

/-- The seal saves after a warm reset or a Laid-up exit (R255): accepted with the save count, else every Active subtree is lost. -/
def Dev.restoreSeals (d : Dev) (saveOk : Bool) : Dev :=
  match d.save with
  | none => d
  | some v =>
    let d := v.roots.foldl (fun d r => d.modSeal r.1 fun s => { s with roots := r.2 }) d
    let d := v.hws.foldl (fun d h => d.modSeal h.1 fun s => { s with hw := h.2 }) d
    if saveOk && decide (v.count = d.moor.saveCount) then d
    else d.units.foldl (fun d s => ((d.ms s).sl.roots.filter fun r => r.2.st == 2#2).foldl (fun d r => d.loseNode s r.1 r.2.top 0 false) d) d

/-- What a warm reset or a Laid-up exit restores before memory-active (R242, R255, R416, R522): seals, keys, and the tally epoch, or a sweep to zero. -/
def Dev.keptMemory (d : Dev) (saveOk stateOk : Bool) : Dev :=
  let d := (d.ctx.filter fun x => decide (x.2.st = .enabled)).foldl (fun d x => d.loadKeys x.1) d
  let d := d.restoreSeals saveOk
  if stateOk then d
  else
    let clear := fun (e : PEnt) => { e with tally := 0#8, tepoch := 0#4 }
    let d : Dev := { d with pm := { d.pm with epoch := 0#4, sweep := false, ents := d.pm.ents.map fun x => (x.1, x.2.map clear) } }
    d.units.foldl (fun d n => d.modMs n fun s => { s with epoch := 0#4 }) d

/-- What follows the report of memory-active (R394, R470, R516, R531, R434): event records, the pending bank taken, counters, modules. -/
def Dev.afterActive (d : Dev) : Dev :=
  let lost := maskOf (d.units.filter fun c => !d.chOk c)
  let shut := maskOf (d.units.filter fun n => decide ((d.ld n).link.st = .disabled))
  let wake := if d.boot.kind = .laidUp then d.pwr.wake.toNat else 0
  let d := d.evPool .memoryActive [d.boot.kind.code, d.time - d.boot.t0, lost, shut, wake]
  let d := if d.mg.storeBad then { d.evPool .paramStore [] 1 with mg := { d.mg with storeBad := false } } else d
  let d := match d.mg.bankEvt with
    | some b => ({ d with mg := { d.mg with bankEvt := none } } : Dev).evPool .firmware [b] 1
    | none => d
  let d : Dev := if d.boot.trial then { d with flash := d.flash.setDir fun x => { x with active := x.pend, pend := 0xFF, tries := 0 }
                                               boot := { d.boot with trial := false } } else d
  ({ d with std := true, fmn := { d.fmn with since := d.time }, boot := { d.boot with arbDone := false } } : Dev).loadAll.recompute

/-- Memory-active (R525): reported on every landing once all conditions hold; a condition that cannot be met is told to the Pool owner (R275).
`saveOk` and `stateOk` are what the checks of the seal save and of Syust's saved state find. -/
def Dev.memoryActive (d : Dev) (saveOk stateOk : Bool) : Dev :=
  if !decide (d.boot.phase = .starting) || !(d.units.all fun c => decide (c ∈ d.boot.chDone)) || !d.boot.sramDone || !d.boot.laneDone then d
  else
    match d.startBlocked with
    | some (1, c) => d.evPool .population [c % 8] 2
    | some (k, _) => d.evPool .startFailed [k] 2
    | none =>
      let cold := !d.boot.kind.keeps
      let d := if cold then d.coldMemory else d.keptMemory saveOk stateOk
      let d : Dev := { d with active := true, boot := { d.boot with phase := .active }, pwr := { d.pwr with st := .underway } }
      let d := d.loadFree
      let nq := if cold then (d.units.filter d.chOk).foldl (fun s c => s + (d.ch c).bandwidth.2.2) 0 else d.qos.nq
      let d : Dev := { d with qos := { d.qos with nq } }
      let d := d.units.foldl (fun d n => d.modLd n fun l => ({ l with memActive := true, memTimeout := false } : Landing).memOk true) d
      d.afterActive

/-- An hour of memory-active without a restart has passed (R532): Syust posts TM_ARB_COMMIT for what exceeds the fused counts. -/
def Dev.arbTimer (d : Dev) : Dev :=
  if !d.active || !d.fmnUp || d.boot.arbDone || d.tlhBusy then d
  else
    let d : Dev := { d with boot := { d.boot with arbDone := true } }
    let svn := min d.fmn.sy.svn d.fmn.mon.svn
    let d := if d.arbf < svn then (d.post 8 [1, svn] {}).2 else d
    if d.arbt < d.tlh.fw.svn then (d.post 8 [2, d.tlh.fw.svn] {}).2 else d

/-- A pair's reference clock is present for 1 ms (R540): a pair that Syust found without it is released. -/
def Dev.clockOn (d : Dev) (pair : Nat) : Dev :=
  let d : Dev := { d with moor := { d.moor with clk := tput false d.moor.clk pair true } }
  if !d.boot.released || decide (pair ∈ d.moor.clkLost) then d
  else [2 * pair, 2 * pair + 1].foldl (fun d n =>
    let k := (d.ld n).link
    if d.on n && decide (k.st = .disabled) && !k.fenced && !k.released then
      d.modLd n fun l => { l with link := { l.link with released := true, st := if l.link.perst then .reset else .training } }
    else d) d

/-- A pair's reference clock is lost (R540): its landings report 0Ah and are fenced. -/
def Dev.clockOff (d : Dev) (pair : Nat) : Dev :=
  if !tget false d.moor.clk pair then d
  else
    let d : Dev := { d with moor := { d.moor with clk := tput false d.moor.clk pair false } }
    if !d.coreOn then d
    else
      let d : Dev := { d with moor := { d.moor with clkLost := if pair ∈ d.moor.clkLost then d.moor.clkLost else d.moor.clkLost ++ [pair] } }
      [2 * pair, 2 * pair + 1].foldl (fun d n => if d.on n && decide ((d.ld n).link.st ≠ .absorbed) then d.report { src := ldSrc n 0x0A } else d) d

/-- An instruction that drives balls (R545): a landing whose balls it takes loses its link, a channel its training. -/
def Dev.jtagBalls (d : Dev) (lands chans : List Nat) : Dev :=
  if d.boot.phase = .off then d
  else
    let d := lands.foldl (fun d n => if d.on n then d.lockLost n else d) d
    chans.foldl (fun d c => if d.chOk c then d.alertN c 0 .lasting else d) d

end Sys2Proof.Machine
end

