-- ==== Sys2Proof/Machine/Regs.lean ====
section
/-! DEFINITION. Writes to registers that have no command row of their own, each field under its access code (R13, R14, R402 to R405). -/
namespace Sys2Proof.Machine

/-- A write a host page accepts: 4 or 8 bytes, naturally aligned (R402). -/
def hostSized (off size : Nat) : Bool := (decide (size = 4) || decide (size = 8)) && decide (off % size = 0) && decide (off + size ≤ 4096)

/-- The 4 B register at `reg` of a host page as a write leaves it: the value written, none where the write does not cover it. -/
def word4 (off size reg : Nat) (v : BitVec 64) : Option Nat :=
  if off ≤ reg ∧ reg + 4 ≤ off + size then some (bits v.toNat (8 * (reg - off)) 32) else none

/-- Bits of the 8 B register at `reg` a write covers: the low half, the high half, and the value (R402). -/
def word8 (off size reg : Nat) (v : BitVec 64) : Bool × Bool × Nat :=
  let lo := word4 off size reg v
  let hi := word4 off size (reg + 4) v
  (lo.isSome, hi.isSome, lo.getD 0 + hi.getD 0 * 2 ^ 32)

/-- LND.CRDPOOL: CLRLOW, DROPPED (Table 2.4). -/
def Dev.wrCrdpool (d : Dev) (ld v : Nat) : Dev :=
  d.modLd ld fun l =>
    let p := if bits v 28 1 = 1 then { l.pool with low := l.free } else l.pool
    { l with pool := if bits v 29 1 = 1 then { p with dropped := false } else p }

/-- LND.ALIAS: LBITS and LPOS stored as written, a value out of range too, locked by the decoder commit (R81, R82). -/
def Dev.wrAlias (d : Dev) (ld v : Nat) : Dev :=
  d.modLd ld fun l =>
    if l.acc.dec.committed then l else { l with acc := { l.acc with lbits := BitVec.ofNat 3 v, lpos := BitVec.ofNat 6 (bits v 8 6) } }

/-- LND.ACCVIOL: CLR (Table 3.6). -/
def Dev.wrAccviol (d : Dev) (ld v : Nat) : Dev :=
  if bits v 31 1 = 1 then d.modLd ld fun l => { l with acc := { l.acc with count := 0#24, first := 0#4 } } else d

/-- LND.BOARD: CLRPEAK (Table 7.4). -/
def Dev.wrBoard (d : Dev) (ld v : Nat) : Dev :=
  if bits v 12 1 = 1 then d.modLd ld fun l => { l with coh := { l.coh with peak := l.coh.board.length } } else d

/-- A write some register of the Rhaboind landing page covers (Table 13.5). -/
def Dev.onWord (d : Dev) (w : Option Nat) (f : Dev → Nat → Dev) : Dev :=
  match w with
  | some v => f d v
  | none => d

/-- A write a host page does not take is discarded with an advisory error (R402). -/
def Dev.hostWrite (d : Dev) (ld off size : Nat) (f : Dev → Dev) : Dev :=
  if hostSized off size then f d else d.modLd ld fun l => { l with aer := l.aer + 1 }

/-- A write to the Rhaboind landing page; LNKSTAT, LBLMAP and QOSI are read-only (Table 13.5). -/
def Dev.wrLandingPage (d : Dev) (ld off size : Nat) (v : BitVec 64) : Dev :=
  d.hostWrite ld off size fun d =>
    let d := d.onWord (word4 off size 4 v) fun d x => d.wrCrdpool ld x
    let d := d.onWord (word4 off size 8 v) fun d x => d.wrAlias ld x
    let d := d.onWord (word4 off size 0xC v) fun d x => d.wrAccviol ld x
    d.onWord (word4 off size 0x20 v) fun d x => d.wrBoard ld x

/-- RING, RINGLOG2 and CLASS may be written (R345). -/
def BSt.settable : BSt → Bool
  | .disabled | .idle | .stopped | .halted => true
  | _ => false

/-- BRG.CFG IRQEN, RINGLOG2, ENABLE (Tables 11.8 and 13.6, R345, R404). -/
def Dev.wrBargeCfg (d : Dev) (n v : Nat) : Dev :=
  let b := d.bg n
  let ring := bits v 11 4
  let irqen := decide (bits v 10 1 = 1)
  if bits v 15 1 = 1 ∧ b.st = .disabled then d.bgEnable n ring irqen
  else
    let d := d.modBg n fun b => { b with irqen, ringlog2 := if b.st.settable && decide (ring ≤ 13) then ring else b.ringlog2 }
    if bits v 15 1 = 0 ∧ b.enable then d.bgDisable n else d

/-- BRG.CFG PRI, OWNER and CLASS of BG16 to BG62 (Tables 11.1 and 11.8, R345); elsewhere they are fixed or follow a parameter. -/
def Dev.wrBargeOwn (d : Dev) (n v : Nat) : Dev :=
  if n < 16 ∨ n = 63 then d
  else
    d.modBg n fun b =>
      let owner : BOwner := if bits v 2 2 = 0 then .syust else if bits v 2 2 = 1 then .pilot else b.owner
      let pri := if owner = .pilot ∧ 1 < bits v 0 2 then b.pri else bits v 0 2
      { b with owner, pri, slot := if owner = .pilot then b.slot else none, cls := if b.st.settable then bits v 4 6 else b.cls }

/-- BRG.RING (Table 11.9, R345): a write of one half leaves BASE, which lies in both (R402); a host's SPACE is read-only. -/
def Dev.wrBargeRing (d : Dev) (n : Nat) (lo hi : Bool) (v : Nat) : Dev :=
  d.modBg n fun b =>
    if !b.st.settable then b
    else
      let b := if lo && hi then { b with base := bits v 6 56 * 64 } else b
      if hi && decide (b.owner ≠ .host) && decide (bits v 62 2 < 2) then { b with space := bits v 62 2 } else b

/-- BRG.STAT DONEIRQ, HALTIRQ, STOP, RUN (Table 11.11, R343, R344), all from one write. -/
def Dev.wrBargeStat (d : Dev) (n v : Nat) : Dev :=
  let was := (d.bg n).st
  let on := fun k : Nat => decide (bits v k 1 = 1)
  let d := d.modBg n fun b => { b with doneirq := b.doneirq && !on 5, haltirq := b.haltirq && !on 6 }
  let d := if on 3 then d.bgStop n else d
  if on 4 && !(on 3 && decide (was = .stopped)) then d.bgRun n else d

/-- A write to a host's Barge page (R403). -/
def Dev.wrHostQueue (d : Dev) (ld off size : Nat) (v : BitVec 64) : Dev :=
  d.hostWrite ld off size fun d =>
    let cfg := word8 off size 0 v
    let ring := word8 off size 8 v
    let ptr := word8 off size 0x10 v
    let stat := word8 off size 0x18 v
    let d := if cfg.1 then d.wrBargeCfg ld cfg.2.2 else d
    let d := if ring.1 || ring.2.1 then d.wrBargeRing ld ring.1 ring.2.1 ring.2.2 else d
    let d := if ptr.2.1 then d.doorbell ld (BitVec.ofNat 17 (bits ptr.2.2 32 17)) else d
    if stat.1 then d.wrBargeStat ld stat.2.2 else d

/-- A write of 8 B to a channel's registers by Syust (Tables 11.8 to 11.11). -/
def Dev.wrBarge (d : Dev) (n off : Nat) (v : BitVec 64) : Dev :=
  match off with
  | 0 => (d.wrBargeOwn n v.toNat).wrBargeCfg n v.toNat
  | 8 => d.wrBargeRing n true true v.toNat
  | 0x10 => d.doorbell n (BitVec.ofNat 17 (bits v.toNat 32 17))
  | 0x18 => d.wrBargeStat n v.toNat
  | _ => d

/-- CTR.SEL (Table 16.1, R467): written while ENABLE is 0, and not once the standard layout stands (R470); CHAIN is of odd counters. -/
def Dev.wrSel (d : Dev) (k v : Nat) : Dev :=
  if d.std || (tget {} d.sel k).enable then d
  else
    let on := fun b : Nat => decide (bits v b 1 = 1)
    let s : Sel := { ev := bits v 0 12, inst := bits v 12 4, all := on 16, cls := bits v 17 6, clsen := on 23, chain := on 24 && decide (k % 2 = 1), enable := on 25 }
    { d with sel := tput {} d.sel k s }

/-- TEL.PTMSTAT STEPPED, CTR.ACC WRAP, QOS.RCPT CLR (Tables 16.8, 16.4, 16.6). -/
def Dev.wrTele (d : Dev) (f : Tele → Tele) (b : Bool) : Dev := if b then { d with tele := f d.tele } else d

/-- The mode a host enables an IDE stream in (R73). -/
def ideModeOf (v : Nat) : Option IdeMode := if v = 0 then some .off else if v = 1 then some .containment else if v = 2 then some .skid else none

/-- The host chooses the mode of a stream (R73). -/
def Dev.wrIdeMode (d : Dev) (ld : Nat) (s : IdeStream) (v : Nat) : Dev :=
  match ideModeOf v with
  | none => d
  | some m => d.modLd ld fun l => match s with
    | .mem => { l with ideMem := { l.ideMem with mode := m } }
    | .io => { l with ideIo := { l.ideIo with mode := m } }

/-- Change an MSI-X vector; a pending one that is no longer masked is sent (R405). -/
def Dev.wrMsix (d : Dev) (ld vec : Nat) (f : Msix → Msix) : Dev :=
  d.modLd ld fun l => { l with msix := tmod {} l.msix vec fun m => let m := f m; { m with pend := m.pend && m.masked } }

/-- Write a register. -/
def Dev.writeReg (d : Dev) (r : RegId) (v : BitVec 64) : Dev :=
  let on := decide (bits v.toNat 0 1 = 1)
  match r with
  | .landingPage ld off size => d.wrLandingPage ld off size v
  | .hostQueue ld off size => d.wrHostQueue ld off size v
  | .counterPage ld off size => d.hostWrite ld off size id
  | .barge n off => d.wrBarge n off v
  | .ctrSel k => d.wrSel k v.toNat
  | .ctrAcc k => d.wrTele (fun t => { t with acc := tmod {} t.acc k fun a => { a with wrap := false } }) (decide (bits v.toNat 32 1 = 1))
  | .rcpt c => d.wrTele (fun t => { t with rcpt := tput {} t.rcpt c {} }) (decide (bits v.toNat 61 1 = 1))
  | .ptmstat => d.wrTele (fun t => { t with stepped := false }) (decide (bits v.toNat 1 1 = 1))
  | .pinloss => if bits v.toNat 31 1 = 1 then { d with pinLoss := 0 } else d
  | .wake => { d with pwr := { d.pwr with wake := d.pwr.wake &&& ~~~(BitVec.ofNat 6 v.toNat) } }
  | .msixAddr ld k => d.wrMsix ld k fun m => { m with addr := v }
  | .msixData ld k => d.wrMsix ld k fun m => { m with data := BitVec.ofNat 32 v.toNat }
  | .msixMask ld k => d.wrMsix ld k fun m => { m with masked := on }
  | .msixEnable ld => d.modLd ld fun l => { l with msixEn := on }
  | .biEnable ld => d.modLd ld fun l => { l with acc := { l.acc with biEn := on } }
  | .ptmEnable ld => d.modLd ld fun l => { l with ptm := on }
  | .aspmEnable ld => d.modLd ld fun l => { l with aspm := on }
  | .ideMode ld s => d.wrIdeMode ld s v.toNat
  | .i3cAddr => { d with moor := { d.moor with i3c := if bits v.toNat 0 7 = 0 then none else some (bits v.toNat 0 7) } }

end Sys2Proof.Machine
end

