-- ==== Sys2Proof/Machine/Settle.lean ====
section
/-! DEFINITION. What follows every command inside the block: fences, waiting work, the power manager's watch over an entry in preparation, page retirement, the persistent log, fuses; and the one frame every command runs in. -/
namespace Sys2Proof.Machine

/-- The record made in the present step that aborts a power entry: Contained or Fatal (R485). -/
def Dev.badRecord (old d : Dev) : Option FRec :=
  d.lko.recs.find? fun r => decide (old.lko.next ≤ r.seq) && (decide (r.fin = .contained) || decide (r.fin = .fatal))

/-- The refuser a record stands for (Table 17.6): a thermal source, or the slice it came from. -/
def FRec.refuser (r : FRec) : Nat × Nat × Nat :=
  if r.src = 0x7C0 ∨ r.src = 0x7C1 then (4, 0xFF, 1) else if r.src = 0x7C2 then (4, r.path.slice - 16, 1) else (9, r.path.slice, 0)

/-- An entry in preparation is aborted when one of the events of R485 has occurred. -/
def Dev.entryWatch (old d : Dev) : Dev :=
  match d.mg.entry with
  | none => d
  | some e =>
    match Dev.badRecord old d with
    | some r => d.abortEntry r.refuser.1 r.refuser.2.1 r.refuser.2.2
    | none =>
      if d.tlhBusy && !old.tlhBusy then d.abortEntry 3 0xFF 0
      else
        match d.entryFail e.req with
        | some f => d.abortEntry f.1 f.2.1 f.2.2
        | none => d

/-- What follows a command with no further event. -/
def settle (old new : Dev) : Dev :=
  ((Dev.entryWatch old new.calm).retirePending.overcommit).syustLogs

/-- Run a command on the device: what follows it, then the fuses it blew (R421). Fuses only go from 0 to 1. -/
def onDev (s : State) (f : Dev → Dev) : Host.Outcome State Fault Refusal :=
  let d := settle s.dev (f s.dev)
  .next { s with dev := { d with blow := 0#2048 }, otp := { s.otp with map := s.otp.map ||| d.blow } }

/-- Run a command that names landing, slice or channel `n`; a fused-off unit is absent (R3). -/
def onUnit (n : Nat) (s : State) (f : Dev → Dev) : Host.Outcome State Fault Refusal :=
  if s.dev.on n then onDev s f else .fault .absentUnit

/-- The Barge's own level-4 slice is clocked and powered (R429, Table 14.11). -/
def Dev.bargeOn1 (d : Dev) : Bool := decide (34 ∉ d.pwr.clkOff) && decide (34 ∉ d.pwr.pwrOff)

/-- Run a command of the Barge; with its slice stopped it does nothing. -/
def onBarge (s : State) (f : Dev → Dev) : Host.Outcome State Fault Refusal :=
  onDev s fun d => if d.bargeOn1 then f d else d

/-- A CXL.mem request received during a preparation for Laid-up aborts it (R485). -/
def Dev.memHook (d : Dev) (ld : Nat) : Dev := d.abortLaidUp 1 ld 3

/-- The requests a flit brings abort a preparation for Laid-up (R485). -/
def Dev.flitHook (d : Dev) (ld : Nat) (f : Flit) : Dev :=
  if f.good && f.msgs.any fun m => decide (msgClass m < 2) then d.memHook ld else d

/-- Run a mailbox command on its path (R353, R357). -/
def onMail (p : CmdPath) (s : State) (f : Dev → Nat → Dev) : Host.Outcome State Fault Refusal :=
  onDev s fun d => d.onPath (pathNo p) fun d => f d (pathNo p)

end Sys2Proof.Machine
end

