-- ==== Sys2Proof/Machine/Rows.lean ====
section
/-! DEFINITION. The few commands whose effect is written here rather than beside its chapter's operations: a freed tracker entry, one page's writeback, the end of a hold, growth tokens, a bus conflict answer, board fuses. -/
namespace Sys2Proof.Machine

/-- The next landing, from `start` on in round-robin order, with a request waiting for a tracker entry of a slice (R36). -/
def Dev.nextOffered (d : Dev) (sl start : Nat) : Option Nat :=
  ((List.range 16).map fun i => (start + i) % 16).find? fun n => (d.ld n).wait.any fun x => decide (x.1 = sl)

/-- The request that proceeds within a landing (R35, R36, R312): the best departure rank, then the oldest; one over its maximum comes last, and one
with an earlier request to its line before it does not proceed. -/
def Dev.firstWaiting (d : Dev) (ld sl : Nat) : Option (Nat × Work) :=
  let l := (d.ld ld).wait
  let first := fun (i line : Nat) => (l.take i).all fun y => decide (y.2.line ≠ line)
  let mine := ((List.range l.length).zip l).filterMap fun x => if x.2.1 = sl && first x.1 x.2.2.line then some (x.1, x.2.2) else none
  argMin (fun x : Nat × Work =>
    let r := (d.departRank ld x.2.cls).getD (3, 0)
    r.1 * 2 ^ 60 + r.2 * 2 ^ 30 + x.1) mine

/-- A freed tracker entry of a slice is offered to the landings in turn, one request per turn (R36). -/
def Dev.offerMiss (d : Dev) (sl : Nat) (ph : Phys) : Dev :=
  if 512 ≤ (d.ms sl).misses.length then d
  else
    match d.nextOffered sl (d.ms sl).offer with
    | none => d
    | some n =>
      match d.firstWaiting n sl with
      | none => d
      | some x =>
        let d := d.modLd n fun l => { l with wait := l.wait.eraseIdx x.1 }
        (d.modMs sl fun s => { s with offer := (n + 1) % 16 }).submit sl { x.2 with offered := true } ph

/-- Quads of a page a mask names. -/
def maskQuads (page : Nat) (mask : BitVec 16) : List Nat := ((List.range 16).filter fun q => mask.getLsbD q).map fun q => page * 16 + q

/-- Dirty quads of one page are written back (R34, R181); a line that is being replaced is released by the fill that takes its way (R175). -/
def Dev.cleanPage (d : Dev) (sl page : Nat) (mask : BitVec 16) (ph : Phys) : Dev := d.writeback sl page (maskQuads page mask) false true ph

/-- The oldest hold of a page reaches tHOLD (R134). -/
def Dev.holdExpires (d : Dev) (sl page : Nat) (ph : Phys) : Dev :=
  match (d.ms sl).held.find? fun h => decide (h.page = page) with
  | some h => d.expireHeld sl h ph
  | none => d

/-- A record still Offered after tOFFER returns to Free (R90). -/
def Dev.offerExpires (d : Dev) (n : Nat) : Dev := if (d.xrec n).st = .offered then d.endOffer n else d

/-- The growth bucket of a channel is filled (R132). -/
def Dev.refillTokens (d : Dev) (c : Nat) : Dev :=
  if (d.ch c).tide.rank ≤ 1 then d.modCh c fun x => { x with tokens := d.p 0x165 } else d

/-- A host's BIConflict for a line is answered, behind the completions the landing already holds (R222). -/
def Dev.conflict (d : Dev) (ld line : Nat) : Dev := d.respond ld (.biConflictAck line)

/-- A dirty tree node is cleaned, its line staying in the seal cache (R257). -/
def Dev.nodeClean (d : Dev) (sl blk lvl idx : Nat) : Dev := d.cleanNode sl blk lvl idx none

/-- A quad buffer has gathered for 100 ns (R204). -/
def Dev.gatherEnds (d : Dev) (sl quad : Nat) (ph : Phys) : Dev := d.flushBuf sl quad false ph

/-- tBIRSP has passed with no BIRsp to a snoop of a line (R226): a Contained fault of the landing, which its record fences. -/
def Dev.snoopTimeout (d : Dev) (ld line : Nat) : Dev :=
  if (d.ld ld).coh.snoops.any fun s => decide (s.line = line) then
    d.report { src := ldSrc ld 0x08, det0 := line * 64, det1 := d.detA (line * 64), dpa := some (line * 64) }
  else d

/-- One access to the scratch window (R189). -/
def Dev.scratchOp (d : Dev) (ag : ScrAgent) (off : Nat) : ScrAcc → Dev
  | .read n chk => d.scratchRead ag off n chk
  | .write bs => d.scratchWrite ag off bs

/-- Payload of a Set Power State (C800h, R381): TARGET, LANDING, STATE. -/
def powerPayload (target ld st : Nat) : List Byte := le 1 target ++ le 1 ld ++ le 1 st ++ zeros 5

/-- The unit a register belongs to, when it can be fused off. -/
def regUnit : RegId → Option Nat
  | .landingPage ld _ _ => some ld
  | .hostQueue ld _ _ => some ld
  | .counterPage ld _ _ => some ld
  | .msixAddr ld _ => some ld
  | .msixData ld _ => some ld
  | .msixMask ld _ => some ld
  | .msixEnable ld => some ld
  | .biEnable ld => some ld
  | .ptmEnable ld => some ld
  | .aspmEnable ld => some ld
  | .ideMode ld _ => some ld
  | .barge _ _ => none
  | .ctrSel _ => none
  | .ctrAcc _ => none
  | .rcpt _ => none
  | .ptmstat => none
  | .pinloss => none
  | .wake => none
  | .i3cAddr => none

/-- A register of the Barge. -/
def bargeReg : RegId → Bool
  | .hostQueue _ _ _ => true
  | .barge _ _ => true
  | _ => false

/-- A write to a doorbell counts as one for a preparation of Laid-up (R485). -/
def Dev.bellHook (d : Dev) : RegId → Dev
  | .hostQueue ld off size => if hostSized off size && (word8 off size 0x10 0#64).2.1 then d.abortLaidUp 2 ld 1 else d
  | .barge n off => if off = 0x10 then d.abortLaidUp 2 n 1 else d
  | _ => d

/-- Run a register write: registers of a fused-off landing are absent (R3), Barge registers do nothing with their slice stopped. -/
def onReg (s : State) (r : RegId) (v : BitVec 64) : Host.Outcome State Fault Refusal :=
  let run := fun d : Dev => if bargeReg r && !d.bargeOn1 then d else (d.bellHook r).writeReg r v
  match regUnit r with
  | some n => onUnit n s run
  | none => onDev s run

/-- The board fuse bank may be programmed (R510): 3.3 V auxiliary power is present and 12 V absent. -/
def Dev.boardOpen (d : Dev) : Bool := decide (d.boot.phase = .aux) && !d.gwy.vinOk

end Sys2Proof.Machine
end

