-- ==== Sys2Proof/Machine/ExecBarge.lean ====
section
/-! DEFINITION. Meanings of the commands, rows 64 to 83 of the opcode table: The Barge. -/
namespace Sys2Proof.Machine

/-- BARGE_DOORBELL (R324): A write of TAIL posts descriptors to a Barge channel's ring. -/
def execBargeDoorbell (bg : BgNo) (tail : BitVec 17) (s : State) : Host.Outcome State Fault Refusal :=
  onBarge s fun d => (d.abortLaidUp 2 bg 1).doorbell bg tail

/-- BARGE_DESCRIPTOR_FETCH (R325): The Barge reads the descriptor at HEAD and starts it if OWN is set. -/
def execBargeDescriptorFetch (bg : BgNo) (ph : Phys) (s : State) : Host.Outcome State Fault Refusal :=
  onBarge s fun d => d.bgFetch bg ph

/-- BARGE_DESCRIPTOR_COMPLETE (R326): A descriptor's writes are all accepted, and the Barge writes status, clears OWN, advances HEAD and interrupts. -/
def execBargeDescriptorComplete (bg : BgNo) (ph : Phys) (s : State) : Host.Outcome State Fault Refusal :=
  onBarge s fun d => d.bgComplete bg ph

/-- COPY (R333): A COPY descriptor copies LEN bytes from SRC to DST. -/
def execCopy (bg : BgNo) (lines : Nat) (ph : Phys) (s : State) : Host.Outcome State Fault Refusal :=
  onBarge s fun d => d.byteOp bg 1 lines ph

/-- ZERO (R337): A ZERO descriptor zeroes a range, setting whole pages to Z. -/
def execZero (bg : BgNo) (lines : Nat) (ph : Phys) (s : State) : Host.Outcome State Fault Refusal :=
  onBarge s fun d => d.byteOp bg 2 lines ph

/-- FILL (R337): A FILL descriptor fills a range with a 64-bit pattern. -/
def execFill (bg : BgNo) (lines : Nat) (ph : Phys) (s : State) : Host.Outcome State Fault Refusal :=
  onBarge s fun d => d.byteOp bg 3 lines ph

/-- PACK (R154): A PACK descriptor stores P pages in a tight K layout or as Z. -/
def execPack (bg : BgNo) (pages : Nat) (ph : Phys) (s : State) : Host.Outcome State Fault Refusal :=
  onBarge s fun d => d.pageOp bg (fun x => decide (x.op = 4)) pages ph

/-- UNPACK (R330): An UNPACK descriptor turns K pages into P pages. -/
def execUnpack (bg : BgNo) (pages : Nat) (ph : Phys) (s : State) : Host.Outcome State Fault Refusal :=
  onBarge s fun d => d.pageOp bg (fun x => decide (x.op = 5)) pages ph

/-- REPACK (R154): A REPACK descriptor relays K and P pages tightly. -/
def execRepack (bg : BgNo) (pages : Nat) (ph : Phys) (s : State) : Host.Outcome State Fault Refusal :=
  onBarge s fun d => d.pageOp bg (fun x => decide (x.op = 6)) pages ph

/-- MIGRATE (R330): A MIGRATE descriptor moves page storage to a new berth in the named form. -/
def execMigrate (bg : BgNo) (pages : Nat) (ph : Phys) (s : State) : Host.Outcome State Fault Refusal :=
  onBarge s fun d => d.pageOp bg (fun x => decide (x.op = 7) && !x.retire) pages ph

/-- PAGE_RETIREMENT (R341): A MIGRATE with RETIRE moves a page out of a retired berth, ignoring PIN and TCOND. -/
def execPageRetirement (bg : BgNo) (pages : Nat) (ph : Phys) (s : State) : Host.Outcome State Fault Refusal :=
  onBarge s fun d => d.pageOp bg (fun x => decide (x.op = 7) && x.retire) pages ph

/-- REKEY (R267): A REKEY descriptor re-encrypts a page from its context to another in the home slice. -/
def execRekey (bg : BgNo) (pages : Nat) (ph : Phys) (s : State) : Host.Outcome State Fault Refusal :=
  onBarge s fun d => d.pageOp bg (fun x => decide (x.op = 8)) pages ph

/-- SCRUB (R330): A SCRUB descriptor reads and verifies every stored quad of its pages. -/
def execScrub (bg : BgNo) (pages : Nat) (ph : Phys) (s : State) : Host.Outcome State Fault Refusal :=
  onBarge s fun d => d.pageOp bg (fun x => decide (x.op = 9)) pages ph

/-- DICT_UNPACK (R164): A DICT-UNPACK descriptor decodes a D-format stream within the output limit. -/
def execDictUnpack (bg : BgNo) (lines : Nat) (ph : Phys) (s : State) : Host.Outcome State Fault Refusal :=
  onBarge s fun d => d.dictOp bg 0xA lines ph

/-- DICT_PACK (R164): A DICT-PACK descriptor encodes bytes into a D-format stream within the output limit. -/
def execDictPack (bg : BgNo) (lines : Nat) (ph : Phys) (s : State) : Host.Outcome State Fault Refusal :=
  onBarge s fun d => d.dictOp bg 0xB lines ph

/-- BARGE_STOP (R343): Setting STOP stops the channel at the next descriptor boundary. -/
def execBargeStop (bg : BgNo) (s : State) : Host.Outcome State Fault Refusal :=
  onBarge s fun d => d.bgStop bg

/-- BARGE_RUN (R344): Writing RUN takes a channel out of Stopped or Halted. -/
def execBargeRun (bg : BgNo) (s : State) : Host.Outcome State Fault Refusal :=
  onBarge s fun d => d.bgRun bg

/-- BARGE_ENABLE (R404): A CFG write that sets ENABLE on a Disabled channel enables it with the written RINGLOG2 and IRQEN. -/
def execBargeEnable (bg : BgNo) (ringlog2 : Fin 16) (irqen : Bool) (s : State) : Host.Outcome State Fault Refusal :=
  onBarge s fun d => d.bgEnable bg ringlog2 irqen

/-- BARGE_DISABLE (R345): Clearing ENABLE acts as a STOP and leaves the channel Disabled at the boundary. -/
def execBargeDisable (bg : BgNo) (s : State) : Host.Outcome State Fault Refusal :=
  onBarge s fun d => d.bgDisable bg

/-- BUS_ERROR_RETRY (R344): A beat that met a bus error is retried after p01B2, and the channel halts when retries run out. -/
def execBusErrorRetry (bg : BgNo) (ok : Bool) (s : State) : Host.Outcome State Fault Refusal :=
  onBarge s fun d => d.busRetry bg ok

end Sys2Proof.Machine
end

