-- ==== Sys2Proof/Machine/ExecBoot.lean ====
section
/-! DEFINITION. Meanings of the commands, rows 250 to 267 of the opcode table: Start-up, clocks, register writes, late link events. -/
namespace Sys2Proof.Machine

/-- CORE_RESET_RELEASE (R513): Core rails in range for 1 ms release the core-die reset and the straps are sampled. -/
def execCoreResetRelease (testen : Bool) (spimode : Fin 4) (s : State) : Host.Outcome State Fault Refusal :=
  onDev s fun d => d.coreRelease testen spimode

/-- CORE_RAIL_TIMEOUT (R513): Core rails not in range 100 ms after PG assert FATAL_N. -/
def execCoreRailTimeout (s : State) : Host.Outcome State Fault Refusal :=
  onDev s fun d => d.railTimeout

/-- CORE_RAIL_LOST (R513): A core rail leaving range after release asserts the core-die reset. -/
def execCoreRailLost (s : State) : Host.Outcome State Fault Refusal :=
  onDev s fun d => d.railOut

/-- TOLLHOUSE_BOOT (R423): The Tollhouse runs the trust steps, verifying and measuring images, or enters Recovery. -/
def execTollhouseBoot (fuseOk sramOk : Bool) (s : State) : Host.Outcome State Fault Refusal :=
  onDev s fun d => d.tollBoot s.otp.map fuseOk sramOk

/-- LANDINGS_RELEASED (R515): Syust releases the landings after applying the landing parameters. -/
def execLandingsReleased (storeOk : Bool) (s : State) : Host.Outcome State Fault Refusal :=
  onDev s fun d => d.landingsReleased storeOk

/-- CHANNEL_BRING_UP_COMPLETE (R518): A channel finishes SPD read, hPPR, training and check, or is fenced. -/
def execChannelBringUpComplete (ch : Ch) (spd : SpdRead) (s : State) : Host.Outcome State Fault Refusal :=
  onUnit ch s fun d => d.channelUp ch spd

/-- SRAM_SELF_TEST_COMPLETE (R523): The SRAM self-test finishes with lasting failures handled per Table 19.4. -/
def execSramSelfTestComplete (fails : List SramFail) (s : State) : Host.Outcome State Fault Refusal :=
  onDev s fun d => d.sramTest fails

/-- LANE_SELF_TEST (R167): The compression lanes are tested against the unpacked vector set and failing lanes are fenced. -/
def execLaneSelfTest (bad : List (Nat × CmpLane)) (s : State) : Host.Outcome State Fault Refusal :=
  onDev s fun d => d.laneTest bad

/-- MEMORY_ACTIVE (R525): Once all start conditions hold, memory-active is reported on every landing. -/
def execMemoryActive (saveOk stateOk : Bool) (s : State) : Host.Outcome State Fault Refusal :=
  onDev s fun d => d.memoryActive saveOk stateOk

/-- ARB_COMMIT_TIMER (R532): After 1 h of memory-active without restarts, Syust commits anti-rollback. -/
def execArbCommitTimer (s : State) : Host.Outcome State Fault Refusal :=
  onDev s fun d => d.arbTimer

/-- REFCLK_APPEAR (R540): A pair's reference clock present for 1 ms releases its landings. -/
def execRefclkAppear (pair : Fin 8) (s : State) : Host.Outcome State Fault Refusal :=
  onDev s fun d => d.clockOn pair

/-- REFCLK_LOST (R540): A lost reference clock reports source 0Ah and fences the pair's landings. -/
def execRefclkLost (pair : Fin 8) (s : State) : Host.Outcome State Fault Refusal :=
  onDev s fun d => d.clockOff pair

/-- JTAG_BALL_INSTRUCTION (R545): EXTEST, CLAMP, HIGHZ and similar instructions take the balls at once. -/
def execJtagBallInstruction (lands chans : List Nat) (s : State) : Host.Outcome State Fault Refusal :=
  onDev s fun d => d.jtagBalls lands chans

/-- REGISTER_WRITE (R13): A write to a register with no row of its own updates its fields under their access codes. -/
def execRegisterWrite (reg : RegId) (v : BitVec 64) (s : State) : Host.Outcome State Fault Refusal :=
  onReg s reg v

/-- SPDM_REQUEST (R425): An SPDM request (GET_MEASUREMENTS, CHALLENGE, KEY_EXCHANGE and the like) arrives over a landing's DOE or over MCTP and is answered
by the Tollhouse responder. -/
def execSpdmRequest (ld : Option Ld) (session : Option Nat) (msg : List Byte) (s : State) : Host.Outcome State Fault Refusal :=
  onDev s fun d => d.spdmRequest (ld.map Fin.val) session msg

/-- DEBUG_UNLOCK_EXPIRY (R432): A granted debug unlock reaches its expiry in device time and its DBG grants end. -/
def execDebugUnlockExpiry (s : State) : Host.Outcome State Fault Refusal :=
  onDev s fun d => d.unlockEnds

/-- PARTNER_APPEARS (R67): A landing waiting in Detect after a down declaration finds a link partner and returns to training. -/
def execPartnerAppears (ld : Ld) (s : State) : Host.Outcome State Fault Refusal :=
  onUnit ld s fun d => d.partnerAppears ld

/-- HOST_RETRAIN_REQUEST (R42): The host directs a retrain of the link, and the landing re-enters training and tries full speed again. -/
def execHostRetrainRequest (ld : Ld) (s : State) : Host.Outcome State Fault Refusal :=
  onUnit ld s fun d => d.hostRetrain ld

end Sys2Proof.Machine
end

