-- ==== Sys2Proof/Machine/ExecDram.lean ====
section
/-! DEFINITION. Meanings of the commands, rows 53 to 63 of the opcode table: DRAM channels and service classes. -/
namespace Sys2Proof.Machine

/-- DIMM_TEMP_POLL (R276): Every 10 ms the DIMM temperature sensors are read and DRC.STAT.TEMP updated. -/
def execDimmTempPoll (ch : Ch) (reading : Option Int) (s : State) : Host.Outcome State Fault Refusal :=
  onUnit ch s fun d => d.tempPoll ch reading

/-- REFRESH_DUE (R284): A same-bank refresh falls due at tREFI and issues, postponed up to its limit. -/
def execRefreshDue (ch : Ch) (bank : Nat) (busy : Bool) (s : State) : Host.Outcome State Fault Refusal :=
  onUnit ch s fun d => d.refreshDue ch bank busy

/-- TREFW_CLEAR (R285): At each tREFW boundary the row-activation tracker clears every table. -/
def execTrefwClear (ch : Ch) (s : State) : Host.Outcome State Fault Refusal :=
  onUnit ch s fun d => d.trefw ch

/-- RFM_THRESHOLD (R286): A bank's RAA count reaching the DIMM's threshold issues RFMsb. -/
def execRfmThreshold (ch : Ch) (bank : Nat) (s : State) : Host.Outcome State Fault Refusal :=
  onUnit ch s fun d => d.rfm ch bank

/-- ENTRY_STARVE (R280): A scheduler entry waiting longer than tSTARVE rises to the head of its group. -/
def execEntryStarve (ch : Ch) (quad : BitVec 37) (s : State) : Host.Outcome State Fault Refusal :=
  onUnit ch s fun d => d.starve ch quad.toNat

/-- RETRAINING_PAUSE (R287): Each tRETRAIN a channel takes its retraining pause, repeating it after 100 µs if the margin stays low. -/
def execRetrainingPause (ch : Ch) (low : Bool) (s : State) : Host.Outcome State Fault Refusal :=
  onUnit ch s fun d => d.retrainPause ch low

/-- ALERT_N_ERROR (R295): A write-CRC or CA-parity error on ALERT_n replays commands and fences the channel if it recurs. -/
def execAlertNError (ch : Ch) (off : Nat) (chk : Chk) (s : State) : Host.Outcome State Fault Refusal :=
  onUnit ch s fun d => d.alertN ch off chk

/-- PATROL_SCRUB (R296): Patrol scrub reads each burst once per tSCRUB, correcting and reporting errors. -/
def execPatrolScrub (ch : Ch) (ph : Phys) (s : State) : Host.Outcome State Fault Refusal :=
  onUnit ch s fun d => d.patrol ch ph

/-- SOFT_REPAIR (R298): A queued row is repaired by sPPR in one channel pause. -/
def execSoftRepair (ch : Ch) (clean : Bool) (s : State) : Host.Outcome State Fault Refusal :=
  onUnit ch s fun d => d.softRepair ch clean

/-- DELIVERABLE_RECOMPUTE (R317): After a lasting change the power manager recomputes and broadcasts D_W, D_Q and D_I. -/
def execDeliverableRecompute (s : State) : Host.Outcome State Fault Refusal :=
  onDev s fun d => d.recompute

/-- QOS_WINDOW_BOUNDARY (R314): At each 4 µs window boundary units apply admitted changes and scaled shares and measure class receipt. -/
def execQosWindowBoundary (rs : List Receipt) (s : State) : Host.Outcome State Fault Refusal :=
  onDev s fun d => d.windowEnd rs

end Sys2Proof.Machine
end

