-- ==== Sys2Proof/Machine/ExecFault.lean ====
section
/-! DEFINITION. Meanings of the commands, rows 214 to 231 of the opcode table: Faults, counters, time, sensors, wakes. -/
namespace Sys2Proof.Machine

/-- FAULT_REPORT (R441): A source asserts its reporting pair and the Lookout records, merges, escalates, fences and signals it. -/
def execFaultReport (src : Fin 2048) (det0 det1 : BitVec 64) (full : Bool) (s : State) : Host.Outcome State Fault Refusal :=
  onDev s fun d => d.faultReport src det0.toNat det1.toNat full

/-- WIRE_BROKEN (R442): A report pair with equal rails on a third sample is taken as asserting and a wire-fault record is made. -/
def execWireBroken (src : Fin 2048) (s : State) : Host.Outcome State Fault Refusal :=
  onDev s fun d => d.wireBroken src

/-- WIRE_RESTORED (R442): Rails differing again restore a broken report wire. -/
def execWireRestored (src : Fin 2048) (s : State) : Host.Outcome State Fault Refusal :=
  onDev s fun d => d.wireRestored src

/-- SOURCE_FORCE (R465): Setting a source's FORCE bit makes the Lookout take it as asserting with INJ set. -/
def execSourceForce (src : Fin 2048) (on : Bool) (s : State) : Host.Outcome State Fault Refusal :=
  onDev s fun d => d.setForce src on

/-- FERRYMAN_RESTART (R39): Syust restarts, rebuilds its view, resumes journalled commands and drains held records and alerts. -/
def execFerrymanRestart (s : State) : Host.Outcome State Fault Refusal :=
  onDev s fun d => d.fmnRestart

/-- KEEP_ALIVE_TIMEOUT (R464): No Lookout keep-alive for 100 µs makes the Mooring island record 702h and assert FATAL_N. -/
def execKeepAliveTimeout (s : State) : Host.Outcome State Fault Refusal :=
  onDev s fun d => d.keepAliveLost

/-- MOORING_LINK_UP (R464): The mooring link comes up and retention records are delivered to the Lookout. -/
def execMooringLinkUp (s : State) : Host.Outcome State Fault Refusal :=
  onDev s fun d => d.linkUp

/-- COUNTER_WINDOW_BOUNDARY (R471): At each WINLEN boundary accumulators and meters latch and counter pages update. -/
def execCounterWindowBoundary (s : State) : Host.Outcome State Fault Refusal :=
  onDev s fun d => d.windowBoundary

/-- PTM_DIALOG (R478): Every 10 ms the time-source landing runs a PTM dialog and slews or steps device time. -/
def execPtmDialog (offset : Int) (s : State) : Host.Outcome State Fault Refusal :=
  onDev s fun d => d.ptmDialog offset

/-- PTM_SYNC_TIMEOUT (R478): No successful PTM dialog for 100 ms clears SYNC. -/
def execPtmSyncTimeout (s : State) : Host.Outcome State Fault Refusal :=
  onDev s fun d => d.ptmTimeout

/-- SENSOR_SAMPLE (R479): Every 1 ms the sensor ADCs sample and write TEL.SENS. -/
def execSensorSample (vals : List Int) (s : State) : Host.Outcome State Fault Refusal :=
  onDev s fun d => d.sensorSample vals

/-- THROTTLE_STEP_RISE (R492): Each millisecond above the junction or DIMM limit raises throttle steps. -/
def execThrottleStepRise (s : State) : Host.Outcome State Fault Refusal :=
  onDev s fun d => d.throttleRise

/-- THROTTLE_STEP_FALL (R492): Every 10 ms below the limit by the margin lowers a throttle step. -/
def execThrottleStepFall (s : State) : Host.Outcome State Fault Refusal :=
  onDev s fun d => d.throttleFall

/-- THERMTRIP (R493): A junction reaching p0083 asserts THERMTRIP_N and records a Fatal fault. -/
def execThermtrip (sensor : Fin 22) (s : State) : Host.Outcome State Fault Refusal :=
  onDev s fun d => d.thermTrip sensor

/-- ASPM_L1_ENTRY (R484): A Moored landing idle for 1 µs requests ASPM L1 entry. -/
def execAspmL1Entry (ld : Ld) (s : State) : Host.Outcome State Fault Refusal :=
  onUnit ld s fun d => d.aspmEntry ld

/-- I3C_ADDRESS_MATCH (R488): An I3C private write to the target address wakes the device. -/
def execI3cAddressMatch (s : State) : Host.Outcome State Fault Refusal :=
  onDev s fun d => d.i3cMatch

/-- WAKE_PIN (R488): A WAKE_N pin held active for 1 µs wakes the device. -/
def execWakePin (pin : Fin 4) (high : Bool) (ns : Nat) (s : State) : Host.Outcome State Fault Refusal :=
  onDev s fun d => d.wakePin pin high ns

/-- LINK_ACTIVITY_WAKE (R488): Electrical-idle exit on a landing in L1 wakes a Moored device. -/
def execLinkActivityWake (ld : Ld) (s : State) : Host.Outcome State Fault Refusal :=
  onUnit ld s fun d => d.linkActivity ld

end Sys2Proof.Machine
end

