-- ==== Sys2Proof/Machine/ExecLink.lean ====
section
/-! DEFINITION. Meanings of the commands, rows 15 to 32 of the opcode table: Landings: flits, link, IDE, decoder. -/
namespace Sys2Proof.Machine

/-- FLIT_RECEIVED (R62): A landing accepts a flit in sequence, applying its credit returns and passing its messages to the receive pool. -/
def execFlitReceived (ld : Ld) (f : Flit) (s : State) : Host.Outcome State Fault Refusal :=
  onUnit ld s fun d => (d.flitHook ld f).flitIn ld f

/-- INGRESS_DEPARTURE (R312): A waiting M2S message departs the receive pool to the fabric under class order, freeing its slots and returning credit. -/
def execIngressDeparture (ld : Ld) (ph : Phys) (s : State) : Host.Outcome State Fault Refusal :=
  onUnit ld s fun d => d.ingressDepart ld ph

/-- CREDIT_RETURN_TIMER (R57): When no flit is due within tCRET, the landing transmits a flit carrying only credit returns. -/
def execCreditReturnTimer (ld : Ld) (s : State) : Host.Outcome State Fault Refusal :=
  onUnit ld s fun d => d.creditTimer ld

/-- FLIT_ACKNOWLEDGE (R61): An acknowledgement from the partner frees replay-buffer entries. -/
def execFlitAcknowledge (ld : Ld) (seq : Nat) (s : State) : Host.Outcome State Fault Refusal :=
  onUnit ld s fun d => d.flitAck ld seq

/-- FLIT_REPLAY (R60): A NAK or retry request makes the landing replay flits from its replay buffer. -/
def execFlitReplay (ld : Ld) (seq : Nat) (s : State) : Host.Outcome State Fault Refusal :=
  onUnit ld s fun d => d.flitReplay ld seq

/-- REPLAY_LIMIT (R63): A flit replayed four times without progress sends the landing into Recovery to retrain. -/
def execReplayLimit (ld : Ld) (s : State) : Host.Outcome State Fault Refusal :=
  onUnit ld s fun d => d.replayLimit ld

/-- LINK_TRAINED (R42): Training of a landing completes at a speed, width and flit mode, enabling CXL.mem only at 8 GT/s or above. -/
def execLinkTrained (ld : Ld) (t : Train) (s : State) : Host.Outcome State Fault Refusal :=
  onUnit ld s fun d => d.trained ld t

/-- LOCK_LOST (R65): Loss of symbol, block or flit lock puts the landing into recovery with its state kept. -/
def execLockLost (ld : Ld) (s : State) : Host.Outcome State Fault Refusal :=
  onUnit ld s fun d => d.lockLost ld

/-- LOCK_REGAINED (R65): Lock returns before tDOWN and the landing resumes by replay. -/
def execLockRegained (ld : Ld) (s : State) : Host.Outcome State Fault Refusal :=
  onUnit ld s fun d => d.lockRegained ld

/-- TDOWN_EXPIRY (R64): Lock lost continuously for tDOWN declares the landing down. -/
def execTdownExpiry (ld : Ld) (s : State) : Host.Outcome State Fault Refusal :=
  onUnit ld s fun d => d.tdown ld

/-- PERST_ASSERT (R69): PERST_N held asserted for at least 1 µs resets its landing. -/
def execPerstAssert (ld : Ld) (ns : Nat) (s : State) : Host.Outcome State Fault Refusal :=
  onUnit ld s fun d => d.perstOn ld ns

/-- PERST_DEASSERT (R69): Deassertion of PERST_N makes the landing enter Detect within 20 ms. -/
def execPerstDeassert (ld : Ld) (s : State) : Host.Outcome State Fault Refusal :=
  onUnit ld s fun d => d.perstOff ld

/-- HOT_RESET (R64): An in-band hot reset or link disable from the host declares the landing down. -/
def execHotReset (ld : Ld) (s : State) : Host.Outcome State Fault Refusal :=
  onUnit ld s fun d => d.declareDown ld 3 .down

/-- PARTNER_DETECT (R64): Training sets showing the partner has passed through Detect declare the landing down. -/
def execPartnerDetect (ld : Ld) (s : State) : Host.Outcome State Fault Refusal :=
  onUnit ld s fun d => d.declareDown ld 4 .down

/-- IDE_MAC_EPOCH (R73): The MAC of an IDE epoch arrives and is verified, releasing or confirming the epoch's messages. -/
def execIdeMacEpoch (ld : Ld) (stream : IdeStream) (dir : Dir) (ok newSlot : Bool) (s : State) : Host.Outcome State Fault Refusal :=
  onUnit ld s fun d => d.macEpoch ld stream dir ok newSlot

/-- KEY_PROG (R75): IDE_KM KEY_PROG loads a key into the idle slot of a stream direction. -/
def execKeyProg (ld : Ld) (stream : IdeStream) (dir : Dir) (slot : Bool) (key : BitVec 256) (s : State) : Host.Outcome State Fault Refusal :=
  onUnit ld s fun d => d.keyProg ld stream dir slot key

/-- K_SET_GO (R75): IDE_KM K_SET_GO switches a stream direction to the named key slot. -/
def execKSetGo (ld : Ld) (stream : IdeStream) (dir : Dir) (slot : Bool) (s : State) : Host.Outcome State Fault Refusal :=
  onUnit ld s fun d => d.kSetGo ld stream dir slot

/-- HDM_DECODER_COMMIT (R81): The host commits the landing's HDM decoder, which is refused if its size, base or alias fields are invalid. -/
def execHdmDecoderCommit (ld : Ld) (hbase size dbase : BitVec 64) (iw ig : Nat) (s : State) : Host.Outcome State Fault Refusal :=
  onUnit ld s fun d => d.commitDecoder ld hbase.toNat size.toNat dbase.toNat iw ig

end Sys2Proof.Machine
end

