-- ==== Sys2Proof/Machine/ExecMail.lean ====
section
/-! DEFINITION. Meanings of the commands, rows 133 to 176 of the opcode table: Rhaboind commands. -/
namespace Sys2Proof.Machine

/-- STAGE_EXTENT_ATTRIBUTES (R371): Stages homing, writability and context for the next add of a block range. -/
def execStageExtentAttributes (p : CmdPath) (payload : List Byte) (s : State) : Host.Outcome State Fault Refusal :=
  onMail p s fun d pn => d.stageAttrs pn payload

/-- GET_EXTENT_RECORDS (R370): Returns extent records. -/
def execGetExtentRecords (p : CmdPath) (payload : List Byte) (s : State) : Host.Outcome State Fault Refusal :=
  onMail p s fun d pn => d.getExtents pn payload

/-- WITHDRAW_OFFER (R372): Moves an Offered record to Free and sends the host the release. -/
def execWithdrawOffer (p : CmdPath) (payload : List Byte) (s : State) : Host.Outcome State Fault Refusal :=
  onMail p s fun d pn => d.withdraw pn payload

/-- GET_PAGE_MAP_ENTRIES (R475): Returns page-map entries with tallies against the current epoch. -/
def execGetPageMapEntries (p : CmdPath) (payload : List Byte) (s : State) : Host.Outcome State Fault Refusal :=
  onMail p s fun d pn => d.getEntries pn payload

/-- ADVANCE_TALLY_EPOCH (R128): Advances the global tally epoch in every slice and starts the sweep. -/
def execAdvanceTallyEpoch (p : CmdPath) (payload : List Byte) (s : State) : Host.Outcome State Fault Refusal :=
  onMail p s fun d pn => d.advanceEpoch pn payload

/-- SET_PAGE_PIN (R109): Sets or clears the PIN bit of page-map entries. -/
def execSetPagePin (p : CmdPath) (payload : List Byte) (s : State) : Host.Outcome State Fault Refusal :=
  onMail p s fun d pn => d.setPagePin pn payload

/-- WHARF_PIN (R187): Pins or unpins Wharf lines of a range within the per-set limit. -/
def execWharfPin (p : CmdPath) (payload : List Byte) (s : State) : Host.Outcome State Fault Refusal :=
  onMail p s fun d pn => d.wharfPin pn payload

/-- WHARF_MAINTENANCE (R198): Cleans or invalidates the Wharf lines of a range. -/
def execWharfMaintenance (p : CmdPath) (payload : List Byte) (s : State) : Host.Outcome State Fault Refusal :=
  onMail p s fun d pn => d.wharfMaint pn payload

/-- CLEAR_ADRIFT (R230): Ends the Adrift state of lines in a range by zero-fill or last copy. -/
def execClearAdrift (p : CmdPath) (payload : List Byte) (s : State) : Host.Outcome State Fault Refusal :=
  onMail p s fun d pn => d.clearAdriftCmd pn payload

/-- PAGE_MAP_AUDIT (R374): Counts and optionally frees used granules that no entry references. -/
def execPageMapAudit (p : CmdPath) (payload : List Byte) (s : State) : Host.Outcome State Fault Refusal :=
  onMail p s fun d pn => d.pageAudit pn payload

/-- SET_HOST_QUEUE_PERMISSION (R346): Sets or clears HOSTOK of a landing's host Barge queue. -/
def execSetHostQueuePermission (p : CmdPath) (payload : List Byte) (s : State) : Host.Outcome State Fault Refusal :=
  onMail p s fun d pn => d.hostQueue pn payload

/-- GET_CAPACITY_STATUS (R370): Returns per-channel or per-extent capacity figures. -/
def execGetCapacityStatus (p : CmdPath) (payload : List Byte) (s : State) : Host.Outcome State Fault Refusal :=
  onMail p s fun d pn => d.capacityStatus pn payload

/-- ENABLE_CONTEXT (R238): Enables a context with a generated key or puts it in Awaiting key. -/
def execEnableContext (p : CmdPath) (payload : List Byte) (s : State) : Host.Outcome State Fault Refusal :=
  onMail p s fun d pn => d.enableCmd pn payload

/-- DISABLE_CONTEXT (R239): Disables an unused context and erases its keys. -/
def execDisableContext (p : CmdPath) (payload : List Byte) (s : State) : Host.Outcome State Fault Refusal :=
  onMail p s fun d pn => d.disableCmd pn payload

/-- GET_CONTEXT_RECORDS (R376): Returns context records. -/
def execGetContextRecords (p : CmdPath) (payload : List Byte) (s : State) : Host.Outcome State Fault Refusal :=
  onMail p s fun d pn => d.ctxRecords pn payload

/-- REKEY_EXTENT (R268): Sets a new context for an extent's records and posts REKEY for its pages. -/
def execRekeyExtent (p : CmdPath) (payload : List Byte) (s : State) : Host.Outcome State Fault Refusal :=
  onMail p s fun d pn => d.rekeyExtent pn payload

/-- RESEAL_SUBTREE (R265): Zeroes every page beneath a tree node and resets the node. -/
def execResealSubtree (p : CmdPath) (payload : List Byte) (s : State) : Host.Outcome State Fault Refusal :=
  onMail p s fun d pn => d.resealCmd pn payload

/-- SET_CLASS_RECORD (R309): Writes a service-class record subject to admission control. -/
def execSetClassRecord (p : CmdPath) (payload : List Byte) (s : State) : Host.Outcome State Fault Refusal :=
  onMail p s fun d pn => d.setClass pn payload

/-- GET_CLASS_RECORDS (R370): Returns class records. -/
def execGetClassRecords (p : CmdPath) (payload : List Byte) (s : State) : Host.Outcome State Fault Refusal :=
  onMail p s fun d pn => d.getClasses pn payload

/-- SET_LABEL_TABLE (R306): Writes label-table entries of a landing subject to admission. -/
def execSetLabelTable (p : CmdPath) (payload : List Byte) (s : State) : Host.Outcome State Fault Refusal :=
  onMail p s fun d pn => d.setLabels pn payload

/-- GET_CLASS_OCCUPANCY (R370): Returns a class's occupancy per slice and landing. -/
def execGetClassOccupancy (p : CmdPath) (payload : List Byte) (s : State) : Host.Outcome State Fault Refusal :=
  onMail p s fun d pn => d.occupancy pn payload

/-- GET_FAULT_RECORDS (R445): Returns fault records from the Lookout. -/
def execGetFaultRecords (p : CmdPath) (payload : List Byte) (s : State) : Host.Outcome State Fault Refusal :=
  onMail p s fun d pn => d.getFaults pn payload

/-- ACKNOWLEDGE_FAULT (R459): Sets ACK on a fault record. -/
def execAcknowledgeFault (p : CmdPath) (payload : List Byte) (s : State) : Host.Outcome State Fault Refusal :=
  onMail p s fun d pn => d.ackCmd pn payload

/-- INJECT_FAULT (R466): Sets a force bit or inverts check bits at a source's checker. -/
def execInjectFault (p : CmdPath) (payload : List Byte) (s : State) : Host.Outcome State Fault Refusal :=
  onMail p s fun d pn => d.injectFault pn payload

/-- FENCE_UNIT (R379): Applies the fence of a lane, Wharf slice, landing, link or channel. -/
def execFenceUnit (p : CmdPath) (payload : List Byte) (s : State) : Host.Outcome State Fault Refusal :=
  onMail p s fun d pn => d.fenceUnit pn payload

/-- RESTORE_UNIT (R379): Re-enables a fenced landing. -/
def execRestoreUnit (p : CmdPath) (payload : List Byte) (s : State) : Host.Outcome State Fault Refusal :=
  onMail p s fun d pn => d.restoreUnit pn payload

/-- RETRAIN_CHANNEL (R380): Retrains a channel in a series of pauses. -/
def execRetrainChannel (p : CmdPath) (payload : List Byte) (s : State) : Host.Outcome State Fault Refusal :=
  onMail p s fun d pn => d.retrainCmd pn payload

/-- LANDING_TO_MOORED (R483): Moors one landing, enabling eager ASPM L1 entry. -/
def execLandingToMoored (p : CmdPath) (ld : Ld) (s : State) : Host.Outcome State Fault Refusal :=
  onMail p s fun d pn => d.setPower pn (powerPayload 1 ld 2)

/-- LANDING_TO_UNDERWAY (R484): Returns one landing to Underway. -/
def execLandingToUnderway (p : CmdPath) (ld : Ld) (s : State) : Host.Outcome State Fault Refusal :=
  onMail p s fun d pn => d.setPower pn (powerPayload 1 ld 1)

/-- DEVICE_TO_MOORED (R485): Starts device Moored entry with a Wharf clean. -/
def execDeviceToMoored (p : CmdPath) (s : State) : Host.Outcome State Fault Refusal :=
  onMail p s fun d pn => d.setPower pn (powerPayload 0 0 2)

/-- DEVICE_TO_LAID_UP (R486): Starts device Laid-up entry preparation. -/
def execDeviceToLaidUp (p : CmdPath) (s : State) : Host.Outcome State Fault Refusal :=
  onMail p s fun d pn => d.setPower pn (powerPayload 0 0 3)

/-- DEVICE_TO_UNDERWAY (R488): Returns the device from Moored or Laid-up to Underway. -/
def execDeviceToUnderway (p : CmdPath) (s : State) : Host.Outcome State Fault Refusal :=
  onMail p s fun d pn => d.setPower pn (powerPayload 0 0 1)

/-- MOORED_COMMIT (R485): The Moored clean completes at the commit point and the frequency change follows. -/
def execMooredCommit (s : State) : Host.Outcome State Fault Refusal :=
  onDev s fun d => d.mooredCommit

/-- LAID_UP_COMMIT (R486): Laid-up preparation completes and the device powers down its islands. -/
def execLaidUpCommit (s : State) : Host.Outcome State Fault Refusal :=
  onDev s fun d => d.laidUpCommit

/-- GET_POWER_STATUS (R370): Returns the power section and landing states. -/
def execGetPowerStatus (p : CmdPath) (payload : List Byte) (s : State) : Host.Outcome State Fault Refusal :=
  onMail p s fun d pn => d.getPower pn payload

/-- WARM_DEVICE_RESET (R526): Begins a warm device reset 1 ms after returning. -/
def execWarmDeviceReset (p : CmdPath) (payload : List Byte) (s : State) : Host.Outcome State Fault Refusal :=
  onMail p s fun d pn => d.warmReset pn payload

/-- WARM_RESET_PREPARATION_DONE (R526): Warm reset preparation ends and the core islands are reset. -/
def execWarmResetPreparationDone (s : State) : Host.Outcome State Fault Refusal :=
  onDev s fun d => d.warmDone

/-- WARM_RESET_ESCALATION (R527): Preparation unfinished 200 ms after C802h turns the reset cold. -/
def execWarmResetEscalation (s : State) : Host.Outcome State Fault Refusal :=
  onDev s fun d => d.warmEscalate

/-- GET_GANGWAY_STATUS (R370): Returns Gangway readings and state. -/
def execGetGangwayStatus (p : CmdPath) (payload : List Byte) (s : State) : Host.Outcome State Fault Refusal :=
  onMail p s fun d pn => d.getGangway pn payload

/-- MANIFEST (R384): Takes or reads a Manifest snapshot part. -/
def execManifest (p : CmdPath) (payload : List Byte) (s : State) : Host.Outcome State Fault Refusal :=
  onMail p s fun d pn => d.manifest pn payload

/-- MANIFEST_SNAPSHOT_EXPIRY (R384): A path's snapshot not read for 60 s is dropped. -/
def execManifestSnapshotExpiry (p : CmdPath) (s : State) : Host.Outcome State Fault Refusal :=
  onDev s fun d => d.snapExpiry (pathNo p)

/-- GET_PARAMETER (R382): Returns parameter values, flags and pending values. -/
def execGetParameter (p : CmdPath) (payload : List Byte) (s : State) : Host.Outcome State Fault Refusal :=
  onMail p s fun d pn => d.getParam pn payload

/-- SET_PARAMETER (R382): Checks and applies parameter values all or none, live or pending. -/
def execSetParameter (p : CmdPath) (payload : List Byte) (s : State) : Host.Outcome State Fault Refusal :=
  onMail p s fun d pn => d.setParam pn payload

/-- GET_PERSISTENT_LOG (R383): Returns persistent-log entries. -/
def execGetPersistentLog (p : CmdPath) (payload : List Byte) (s : State) : Host.Outcome State Fault Refusal :=
  onMail p s fun d pn => d.getPlog pn payload

end Sys2Proof.Machine
end

