-- ==== Sys2Proof/Machine/ExecPath.lean ====
section
/-! DEFINITION. Meanings of the commands, rows 0 to 14 of the opcode table: Path of a request, page map, tallies, slips. -/
namespace Sys2Proof.Machine

/-- MEM_READ_REQUEST (R26): A CXL.mem read (MemRd, MemInv) received at a landing is decoded, checked and served at its home slice from the Wharf, a Z entry
or a DRAM fill. -/
def execMemReadRequest (ld : Ld) (q : ReadReq) (ph : Phys) (s : State) : Host.Outcome State Fault Refusal :=
  onUnit ld s fun d => (d.memHook ld).memReq ld q.toReq ph

/-- MEM_WRITE_REQUEST (R32): A CXL.mem MemWr or MemWrPtl received at a landing is checked, ordered and buffered at its home slice, and the landing returns
the completion. -/
def execMemWriteRequest (ld : Ld) (q : WriteReq) (ph : Phys) (s : State) : Host.Outcome State Fault Refusal :=
  onUnit ld s fun d => (d.memHook ld).memReq ld q.toReq ph

/-- MEM_CLN_EVCT (R213): A MemClnEvct from a host updates the shared-line state at the home slice. -/
def execMemClnEvct (ld : Ld) (hpa : BitVec 64) (tag : BitVec 16) (ph : Phys) (s : State) : Host.Outcome State Fault Refusal :=
  onUnit ld s fun d => (d.memHook ld).memReq ld { kind := .clnEvct, hpa, tag } ph

/-- DRAM_READ_DATA_RETURN (R26): Data of a DRAM read arrives at the slice, is ECC-checked, decrypted, verified and decoded, and is forwarded and filled into
the Wharf. -/
def execDramReadDataReturn (sl : Sl) (quad : BitVec 37) (ph : Phys) (s : State) : Host.Outcome State Fault Refusal :=
  onUnit sl s fun d => d.dramReturn sl quad.toNat ph

/-- MISS_TRACKER_ENTRY_FREE (R36): A freed quad-miss tracker entry is offered round-robin to landings with a request waiting for the home slice. -/
def execMissTrackerEntryFree (sl : Sl) (ph : Phys) (s : State) : Host.Outcome State Fault Refusal :=
  onUnit sl s fun d => d.offerMiss sl ph

/-- DIRTY_LINE_WRITEBACK (R34): A dirty line leaving the Wharf is gathered, compressed, encrypted, placed, stored and marked clean or released. -/
def execDirtyLineWriteback (sl : Sl) (page : BitVec 33) (mask : BitVec 16) (ph : Phys) (s : State) : Host.Outcome State Fault Refusal :=
  onUnit sl s fun d => d.cleanPage sl page.toNat mask ph

/-- HOLD_RELEASE (R134): When room appears, held writebacks are placed in the order they were held. -/
def execHoldRelease (sl : Sl) (ph : Phys) (s : State) : Host.Outcome State Fault Refusal :=
  onUnit sl s fun d => d.releaseHeld sl ph

/-- THOLD_EXPIRY (R134): A hold reaching tHOLD is placed from ballast or ends in capacity poison. -/
def execTholdExpiry (sl : Sl) (page : BitVec 33) (ph : Phys) (s : State) : Host.Outcome State Fault Refusal :=
  onUnit sl s fun d => d.holdExpires sl page.toNat ph

/-- GROWTH_TOKEN_REFILL (R132): The growth token bucket of a channel in Ebb or Ballast grants p0165 operations per 10 µs. -/
def execGrowthTokenRefill (ch : Ch) (s : State) : Host.Outcome State Fault Refusal :=
  onUnit ch s fun d => d.refillTokens ch

/-- CLEANING_TICK (R180): A cleaning tick of tDIRTY/8 passes at a slice, making lines urgent once two ticks have passed since their DTICK. -/
def execCleaningTick (sl : Sl) (s : State) : Host.Outcome State Fault Refusal :=
  onUnit sl s fun d => d.cleanTick sl

/-- IDLE_CLEANING (R181): The idle scanner issues writebacks of dirty lines while channel utilisation is below p0175. -/
def execIdleCleaning (sl : Sl) (util : Nat) (ph : Phys) (s : State) : Host.Outcome State Fault Refusal :=
  onUnit sl s fun d => d.idleClean sl util ph

/-- CLASS_TRIM (R178): A class over its Wharf maximum has its oldest lines invalidated or cleaned until it is at its maximum. -/
def execClassTrim (sl : Sl) (cls : Cls) (ph : Phys) (s : State) : Host.Outcome State Fault Refusal :=
  onUnit sl s fun d => d.trimClass sl cls ph

/-- PMC_TALLY_FLUSH (R121): The background flush writes back TALLY and TEPOCH of every dirty page-map-cache slot at least once a second. -/
def execPmcTallyFlush (sl : Sl) (s : State) : Host.Outcome State Fault Refusal :=
  onUnit sl s fun d => d.flushTallies sl

/-- TALLY_SWEEP_COMPLETE (R129): The sweep after a tally-epoch advance finishes and clears PGM.TEPOCH.SWEEP. -/
def execTallySweepComplete (s : State) : Host.Outcome State Fault Refusal :=
  onDev s fun d => d.sweepDone

/-- SLIP_STOP (R20): A slip handshake phase incomplete for tSLIP reports a slip-stop fault naming the suspect island. -/
def execSlipStop (suspect sender receiver : Island) (byReceiver : Bool) (cls phase : Nat) (s : State) : Host.Outcome State Fault Refusal :=
  onDev s fun d => d.slipStop suspect sender receiver byReceiver cls phase

end Sys2Proof.Machine
end

