-- ==== Sys2Proof/Machine/ExecPower.lean ====
section
/-! DEFINITION. Meanings of the commands, rows 232 to 249 of the opcode table: Auxiliary power and the Gangway. -/
namespace Sys2Proof.Machine

/-- AUX_POWER_APPLIED (R512): 3.3 V auxiliary power reaching threshold resets the Mooring island and loads the Gangway parameters. -/
def execAuxPowerApplied (s : State) : Host.Outcome State Fault Refusal :=
  onDev s fun d => d.auxOn s.otp.board.toNat

/-- AUX_POWER_LOST (R497): Loss of 3.3 V auxiliary power takes the device Off. -/
def execAuxPowerLost (s : State) : Host.Outcome State Fault Refusal :=
  onDev s fun d => d.auxOff

/-- PRESENCE_QUALIFIED (R505): PRESENT_N asserted for 20 ms qualifies presence. -/
def execPresenceQualified (vin : Nat) (s : State) : Host.Outcome State Fault Refusal :=
  onDev s fun d => d.presenceOn vin

/-- BOARD_PULL (R505): PRESENT_N deasserted for 20 ms turns the gate off and reloads retries. -/
def execBoardPull (s : State) : Host.Outcome State Fault Refusal :=
  onDev s fun d => d.boardPull

/-- VIN_OUT_OF_RANGE (R497): VIN below 9.6 V or above 14.5 V turns the gate off into Input fault. -/
def execVinOutOfRange (vin : Nat) (s : State) : Host.Outcome State Fault Refusal :=
  onDev s fun d => d.vinFault vin

/-- VIN_RECOVERED (R497): VIN in range for 20 ms returns the Gangway to Standby. -/
def execVinRecovered (vin : Nat) (s : State) : Host.Outcome State Fault Refusal :=
  onDev s fun d => d.vinBack vin

/-- RAMP_COMPLETE (R498): VOUT reaching VIN − 0.5 V fully enhances the gate and enters Qualifying. -/
def execRampComplete (vin vout : Nat) (s : State) : Host.Outcome State Fault Refusal :=
  onDev s fun d => d.rampDone vin vout

/-- CURRENT_LIMIT_REACHED (R499): Current reaching the limit regulates the gate and runs the breaker timer. -/
def execCurrentLimitReached (current : Nat) (s : State) : Host.Outcome State Fault Refusal :=
  onDev s fun d => d.limitOn current

/-- CURRENT_BELOW_LIMIT (R499): Current falling below the limit leaves Limiting, and 1 ms below 95 % clears the timer. -/
def execCurrentBelowLimit (held : Nat) (clear : Bool) (s : State) : Host.Outcome State Fault Refusal :=
  onDev s fun d => d.limitOff held clear

/-- BREAKER_TRIP (R499): Accumulated time at the limit reaching p00C2 trips the breaker. -/
def execBreakerTrip (held : Nat) (s : State) : Host.Outcome State Fault Refusal :=
  onDev s fun d => d.breaker held

/-- FAST_TRIP (R500): Current above the fast-trip level for 200 ns trips the gate. -/
def execFastTrip (current : Nat) (s : State) : Host.Outcome State Fault Refusal :=
  onDev s fun d => d.fastTrip current

/-- FET_MODEL_UPDATE (R501): Every 1 µs the FET thermal model updates each FET's junction estimate. -/
def execFetModelUpdate (vin vout current : Nat) (diode : Int) (s : State) : Host.Outcome State Fault Refusal :=
  onDev s fun d => d.fetModel vin vout current diode

/-- FET_SHORT (R503): VOUT above 1.0 V for 5 ms with the gate off enters Shorted and asserts DISCONNECT_N. -/
def execFetShort (vout : Nat) (s : State) : Host.Outcome State Fault Refusal :=
  onDev s fun d => d.fetShort vout

/-- RETRY_START (R504): After the retry interval with FETs cool enough, a retry starts a ramp. -/
def execRetryStart (s : State) : Host.Outcome State Fault Refusal :=
  onDev s fun d => d.retryStart

/-- RETRY_RELOAD (R504): PG held for 60 s reloads RETRIES. -/
def execRetryReload (s : State) : Host.Outcome State Fault Refusal :=
  onDev s fun d => d.retryReload

/-- PG_ASSERT (R507): A 2 ms qualification window with no fault timer asserts PG and latches the PG-fall threshold. -/
def execPgAssert (vin : Nat) (s : State) : Host.Outcome State Fault Refusal :=
  onDev s fun d => d.pgAssert vin

/-- PG_FALL (R507): VOUT below the PG-fall threshold drops PG, making the next start cold. -/
def execPgFall (vout : Nat) (s : State) : Host.Outcome State Fault Refusal :=
  onDev s fun d => d.pgFall vout

/-- BOARD_FUSE_PROGRAM (R510): The board fuse bank is programmed through JTAG. -/
def execBoardFuseProgram (v : BitVec 320) (s : State) : Host.Outcome State Fault Refusal :=
  .next (if s.dev.boardOpen then { s with otp := { s.otp with board := s.otp.board ||| v } } else s)

end Sys2Proof.Machine
end

