-- ==== Sys2Proof/Machine/ExecShare.lean ====
section
/-! DEFINITION. Meanings of the commands, rows 33 to 52 of the opcode table: Shared memory, extents, scratch, Wharf maintenance, sealing. -/
namespace Sys2Proof.Machine

/-- BIRSP_RECEIVED (R219): A back-invalidate response from a host completes a pending snoop at the landing or home slice. -/
def execBirspReceived (ld : Ld) (line : BitVec 39) (blk : Bool) (rsp : BiRsp) (s : State) : Host.Outcome State Fault Refusal :=
  onUnit ld s fun d => d.biRsp ld line.toNat blk rsp

/-- BICONFLICT (R222): A host BIConflict is answered with BIConflictAck after earlier completions have been sent. -/
def execBiconflict (ld : Ld) (line : BitVec 39) (s : State) : Host.Outcome State Fault Refusal :=
  onUnit ld s fun d => d.conflict ld line.toNat

/-- SHARED_CREDIT_REQUEST (R218): A home slice requests a shared boarding-queue credit from a landing, which grants it while shared entries are free. -/
def execSharedCreditRequest (sl : Sl) (ld : Ld) (s : State) : Host.Outcome State Fault Refusal :=
  onUnit sl s fun d => d.creditRequest sl ld

/-- BOARDING_HEAD_SERVE (R219): The owner landing snoops its host for the head of a sector's boarding queue once the hold has expired. -/
def execBoardingHeadServe (ld : Ld) (sector : BitVec 37) (s : State) : Host.Outcome State Fault Refusal :=
  onUnit ld s fun d => d.serveHead ld sector.toNat

/-- TMINHOLD_EXPIRY (R221): The minimum hold of a newly won sector expires, allowing snoops for it. -/
def execTminholdExpiry (ld : Ld) (sector : BitVec 37) (s : State) : Host.Outcome State Fault Refusal :=
  onUnit ld s fun d => d.holdEnds ld sector.toNat

/-- HANDOFF (R220): A handoff from the owner landing updates the filter entry and passes or returns the remaining queue entries. -/
def execHandoff (sl : Sl) (s : State) : Host.Outcome State Fault Refusal :=
  onUnit sl s fun d => d.applyHandoff sl

/-- TRANSFER_DATA_ARRIVAL (R224): A data response reaches the requesting landing, which accepts the first with its epoch and completes its host's request. -/
def execTransferDataArrival (ld : Ld) (s : State) : Host.Outcome State Fault Refusal :=
  onUnit ld s fun d => d.dataArrives ld

/-- TBIRSP_EXPIRY (R226): A snoop with no BIRsp after tBIRSP fences the landing with a Contained fault. -/
def execTbirspExpiry (ld : Ld) (line : BitVec 39) (s : State) : Host.Outcome State Fault Refusal :=
  onUnit ld s fun d => d.snoopTimeout ld line.toNat

/-- LOSS_REPORT (R227): A loss report from a down landing settles its in-flight transfers at the home slice. -/
def execLossReport (sl : Sl) (s : State) : Host.Outcome State Fault Refusal :=
  onUnit sl s fun d => d.applyLoss sl

/-- FILTER_MOVE_COMPLETE (R232): The filter entries of a bypassed Wharf slice finish moving to the partner slice. -/
def execFilterMoveComplete (sl : Sl) (s : State) : Host.Outcome State Fault Refusal :=
  onUnit sl s fun d => d.filterMove sl

/-- OFFER_EXPIRY (R90): An extent still Offered after tOFFER returns to Free with an event to the Pool owner. -/
def execOfferExpiry (n : Fin 32768) (s : State) : Host.Outcome State Fault Refusal :=
  onDev s fun d => d.offerExpires n

/-- RELEASE_DRAIN_COMPLETE (R93): A Releasing record whose admitted work has drained goes to Free or Reclaiming. -/
def execReleaseDrainComplete (n : Fin 32768) (s : State) : Host.Outcome State Fault Refusal :=
  onDev s fun d => d.drainDone n

/-- RECLAIM_COMPLETE (R94): Reclaiming of a record's blocks finishes with their entries Z and storage freed, and the record goes to Free. -/
def execReclaimComplete (n : Fin 32768) (s : State) : Host.Outcome State Fault Refusal :=
  onDev s fun d => d.reclaimDone n

/-- SCRATCH_ACCESS (R189): A Ferryman, Tollhouse or Barge access to the scratch window reads or writes a scratch way, or ends in an access error. -/
def execScratchAccess (ag : ScrAgent) (off : Nat) (acc : ScrAcc) (s : State) : Host.Outcome State Fault Refusal :=
  onDev s fun d => d.scratchOp ag off acc

/-- WAY_CONVERSION_COMPLETE (R192): A scratch-way conversion finishes in every slice and Set Parameter returns. -/
def execWayConversionComplete (s : State) : Host.Outcome State Fault Refusal :=
  onDev s fun d => d.convDone

/-- RANGE_OPERATION_SLICE_DONE (R202): A slice reports completion of a range maintenance operation once every line before its marker is settled. -/
def execRangeOperationSliceDone (sl : Sl) (id : Nat) (s : State) : Host.Outcome State Fault Refusal :=
  onUnit sl s fun d => d.rangeDone sl id

/-- WHARF_SLICE_DRAIN_COMPLETE (R203): A fenced Wharf slice finishes draining and enters bypass. -/
def execWharfSliceDrainComplete (sl : Sl) (ph : Phys) (s : State) : Host.Outcome State Fault Refusal :=
  onUnit sl s fun d => d.drainComplete sl ph

/-- QUAD_BUFFER_GATHER_TIMEOUT (R204): Full-line writes gathered 100 ns in a bypassed slice's quad buffer are completed and written back. -/
def execQuadBufferGatherTimeout (sl : Sl) (quad : BitVec 37) (ph : Phys) (s : State) : Host.Outcome State Fault Refusal :=
  onUnit sl s fun d => d.gatherEnds sl quad.toNat ph

/-- SEAL_NODE_CLEAN (R257): A dirty tree node is cleaned or evicted, advancing its parent counter and writing both copies. -/
def execSealNodeClean (sl : Sl) (blk lvl idx : Nat) (s : State) : Host.Outcome State Fault Refusal :=
  onUnit sl s fun d => d.nodeClean sl blk lvl idx

/-- KEY_IMPORT (R426): A host's vendor-defined SPDM request imports a context key into an Awaiting-key context. -/
def execKeyImport (ld : Ld) (ctx keys : Nat) (k0 k1 : BitVec 256) (s : State) : Host.Outcome State Fault Refusal :=
  onUnit ld s fun d => d.importDoe ld ctx keys k0 k1

end Sys2Proof.Machine
end

