-- ==== Sys2Proof/Machine/ExecStd.lean ====
section
/-! DEFINITION. Meanings of the commands, rows 84 to 132 of the opcode table: Standard CXL commands. -/
namespace Sys2Proof.Machine

/-- UNSUPPORTED_COMMAND (R366): A command with an opcode not supported or not permitted to the role is answered Unsupported. -/
def execUnsupportedCommand (p : CmdPath) (opcode : BitVec 16) (s : State) : Host.Outcome State Fault Refusal :=
  onMail p s fun d pn => d.unsupported pn opcode.toNat

/-- BACKGROUND_COMPLETE (R361): A background command finishes and its final return code becomes readable. -/
def execBackgroundComplete (p : CmdPath) (done : Nat) (ph : Phys) (s : State) : Host.Outcome State Fault Refusal :=
  onDev s fun d => d.bgComplete1 (pathNo p) done ph

/-- IDENTIFY (R366): The Identify command returns device identity. -/
def execIdentify (p : CmdPath) (s : State) : Host.Outcome State Fault Refusal :=
  onMail p s fun d pn => d.identify pn

/-- BACKGROUND_OPERATION_STATUS (R361): Returns progress and return code of the path's background command. -/
def execBackgroundOperationStatus (p : CmdPath) (s : State) : Host.Outcome State Fault Refusal :=
  onMail p s fun d pn => d.bgStatus pn

/-- REQUEST_ABORT_BACKGROUND_OPERATION (R361): Stops an abortable background command at its next page or step. -/
def execRequestAbortBackgroundOperation (p : CmdPath) (s : State) : Host.Outcome State Fault Refusal :=
  onMail p s fun d pn => d.bgAbort pn

/-- GET_RESPONSE_MESSAGE_LIMIT (R366): Returns the CCI response message limit. -/
def execGetResponseMessageLimit (p : CmdPath) (s : State) : Host.Outcome State Fault Refusal :=
  onMail p s fun d pn => d.getLimit pn

/-- SET_RESPONSE_MESSAGE_LIMIT (R366): Sets the CCI response message limit from 256 B to 64 KiB. -/
def execSetResponseMessageLimit (p : CmdPath) (log2 : BitVec 8) (s : State) : Host.Outcome State Fault Refusal :=
  onMail p s fun d pn => d.setLimit pn log2.toNat

/-- GET_EVENT_RECORDS (R366): Returns event records from the issuer's logs. -/
def execGetEventRecords (p : CmdPath) (log : BitVec 8) (s : State) : Host.Outcome State Fault Refusal :=
  onMail p s fun d pn => d.getEvents pn log.toNat

/-- CLEAR_EVENT_RECORDS (R366): Clears event records from the issuer's logs. -/
def execClearEventRecords (p : CmdPath) (log : BitVec 8) (all : Bool) (handles : List Nat) (s : State) : Host.Outcome State Fault Refusal :=
  onMail p s fun d pn => d.clearEvents pn log.toNat all handles

/-- GET_EVENT_INTERRUPT_POLICY (R366): Returns the event interrupt policy. -/
def execGetEventInterruptPolicy (p : CmdPath) (s : State) : Host.Outcome State Fault Refusal :=
  onMail p s fun d pn => d.getPolicy pn

/-- SET_EVENT_INTERRUPT_POLICY (R366): Sets the event interrupt policy. -/
def execSetEventInterruptPolicy (p : CmdPath) (modes : List Nat) (s : State) : Host.Outcome State Fault Refusal :=
  onMail p s fun d pn => d.setPolicy pn modes

/-- GET_FW_INFO (R366): Returns the firmware slots and versions. -/
def execGetFwInfo (p : CmdPath) (s : State) : Host.Outcome State Fault Refusal :=
  onMail p s fun d pn => d.fwInfo pn

/-- TRANSFER_FW (R530): Writes a firmware image into the inactive bank. -/
def execTransferFw (p : CmdPath) (slot : BitVec 8) (img : Bank) (s : State) : Host.Outcome State Fault Refusal :=
  onMail p s fun d pn => d.transferFw pn slot.toNat img

/-- ACTIVATE_FW (R365): Activates the inactive bank online through quiesce, verification and restart, or offline at the next reset. -/
def execActivateFw (p : CmdPath) (slot : BitVec 8) (online : Bool) (s : State) : Host.Outcome State Fault Refusal :=
  onMail p s fun d pn => d.activateFw pn slot.toNat online

/-- PLDM_FW_UPDATE (R365): PLDM firmware update over MCTP installs Syust or Pilot packages. -/
def execPldmFwUpdate (pkg : PldmPkg) (s : State) : Host.Outcome State Fault Refusal :=
  onDev s fun d => d.pldm pkg

/-- GET_TIMESTAMP (R366): Returns device time. -/
def execGetTimestamp (p : CmdPath) (s : State) : Host.Outcome State Fault Refusal :=
  onMail p s fun d pn => d.getTime pn

/-- SET_TIMESTAMP (R478): Steps device time, refused while PTM-synchronised. -/
def execSetTimestamp (p : CmdPath) (time : BitVec 64) (s : State) : Host.Outcome State Fault Refusal :=
  onMail p s fun d pn => d.setTime pn time

/-- GET_SUPPORTED_LOGS (R366): Returns the supported log list. -/
def execGetSupportedLogs (p : CmdPath) (s : State) : Host.Outcome State Fault Refusal :=
  onMail p s fun d pn => d.supportedLogs pn

/-- GET_LOG (R366): Returns the Command Effects Log. -/
def execGetLog (p : CmdPath) (cel : Bool) (s : State) : Host.Outcome State Fault Refusal :=
  onMail p s fun d pn => d.getLog pn cel

/-- GET_SUPPORTED_FEATURES (R366): Returns the supported maintenance features. -/
def execGetSupportedFeatures (p : CmdPath) (s : State) : Host.Outcome State Fault Refusal :=
  onMail p s fun d pn => d.supportedFeatures pn

/-- GET_FEATURE (R366): Returns a maintenance feature setting. -/
def execGetFeature (p : CmdPath) (k : Nat) (s : State) : Host.Outcome State Fault Refusal :=
  onMail p s fun d pn => d.getFeature pn k

/-- SET_FEATURE (R366): Sets a maintenance feature. -/
def execSetFeature (p : CmdPath) (k : Nat) (v : List Byte) (s : State) : Host.Outcome State Fault Refusal :=
  onMail p s fun d pn => d.setFeature pn k v

/-- PERFORM_MAINTENANCE (R299): Queues a row for soft repair, retiring used granules first. -/
def execPerformMaintenance (p : CmdPath) (cls sub : BitVec 8) (ch : Nat) (bank row : Nat) (s : State) : Host.Outcome State Fault Refusal :=
  onMail p s fun d pn => d.performMaint pn cls.toNat sub.toNat ch { bank, row }

/-- IDENTIFY_MEMORY_DEVICE (R366): Returns memory-device identity with all capacity dynamic. -/
def execIdentifyMemoryDevice (p : CmdPath) (s : State) : Host.Outcome State Fault Refusal :=
  onMail p s fun d pn => d.identifyMem pn

/-- GET_HEALTH_INFO (R479): Returns health information including device temperature. -/
def execGetHealthInfo (p : CmdPath) (s : State) : Host.Outcome State Fault Refusal :=
  onMail p s fun d pn => d.health pn

/-- GET_ALERT_CONFIGURATION (R366): Returns the alert configuration. -/
def execGetAlertConfiguration (p : CmdPath) (s : State) : Host.Outcome State Fault Refusal :=
  onMail p s fun d pn => d.getAlert pn

/-- SET_ALERT_CONFIGURATION (R366): Sets the alert configuration. -/
def execSetAlertConfiguration (p : CmdPath) (v : List Byte) (s : State) : Host.Outcome State Fault Refusal :=
  onMail p s fun d pn => d.setAlert pn v

/-- GET_POISON_LIST (R367): Returns the landing's poison list of up to 512 entries. -/
def execGetPoisonList (p : CmdPath) (dpa len : BitVec 64) (s : State) : Host.Outcome State Fault Refusal :=
  onMail p s fun d pn => d.getPoison pn dpa.toNat len.toNat

/-- INJECT_POISON (R367): Sets the QPOIS bit of an address's quad, up to 16 per landing. -/
def execInjectPoison (p : CmdPath) (dpa : BitVec 64) (s : State) : Host.Outcome State Fault Refusal :=
  onMail p s fun d pn => d.injectPoison pn dpa.toNat

/-- CLEAR_POISON (R367): Writes 64 B to a line as a full-line host write. -/
def execClearPoison (p : CmdPath) (dpa : BitVec 64) (data : Line) (ph : Phys) (s : State) : Host.Outcome State Fault Refusal :=
  onMail p s fun d pn => d.clearPoison pn dpa.toNat data ph

/-- GET_SCAN_MEDIA_CAPABILITIES (R366): Returns scan-media capabilities. -/
def execGetScanMediaCapabilities (p : CmdPath) (dpa len : BitVec 64) (s : State) : Host.Outcome State Fault Refusal :=
  onMail p s fun d pn => d.scanCaps pn dpa.toNat len.toNat

/-- SCAN_MEDIA (R367): Runs a SCRUB of a range and adds lasting errors to the poison list. -/
def execScanMedia (p : CmdPath) (dpa len : BitVec 64) (s : State) : Host.Outcome State Fault Refusal :=
  onMail p s fun d pn => d.scanMedia pn dpa.toNat len.toNat

/-- GET_SCAN_MEDIA_RESULTS (R366): Returns scan-media results. -/
def execGetScanMediaResults (p : CmdPath) (s : State) : Host.Outcome State Fault Refusal :=
  onMail p s fun d pn => d.scanResults pn

/-- SANITIZE (R369): Zeroes every berth pool, discards caches and disables every context but 0. -/
def execSanitize (p : CmdPath) (s : State) : Host.Outcome State Fault Refusal :=
  onMail p s fun d pn => d.sanitize pn

/-- GET_DYNAMIC_CAPACITY_CONFIGURATION (R366): Returns the landing's dynamic-capacity configuration. -/
def execGetDynamicCapacityConfiguration (p : CmdPath) (s : State) : Host.Outcome State Fault Refusal :=
  onMail p s fun d pn => d.dcConfig pn

/-- GET_DYNAMIC_CAPACITY_EXTENT_LIST (R366): Returns the landing's extent list. -/
def execGetDynamicCapacityExtentList (p : CmdPath) (s : State) : Host.Outcome State Fault Refusal :=
  onMail p s fun d pn => d.dcList pn

/-- ADD_DYNAMIC_CAPACITY_RESPONSE (R90): The host's response grants the listed Offered extents and frees the rest of the answered add. -/
def execAddDynamicCapacityResponse (p : CmdPath) (exts : List (Nat × Nat)) (s : State) : Host.Outcome State Fault Refusal :=
  onMail p s fun d pn => d.addResponse pn exts

/-- RELEASE_DYNAMIC_CAPACITY (R92): The host releases Granted extents, which enter Releasing. -/
def execReleaseDynamicCapacity (p : CmdPath) (exts : List (Nat × Nat)) (s : State) : Host.Outcome State Fault Refusal :=
  onMail p s fun d pn => d.dcRelease pn exts

/-- GET_DCD_INFO (R366): Returns dynamic-capacity device information. -/
def execGetDcdInfo (p : CmdPath) (s : State) : Host.Outcome State Fault Refusal :=
  onMail p s fun d pn => d.dcdInfo pn

/-- GET_HOST_DC_REGION_CONFIGURATION (R366): Returns a host's region configuration. -/
def execGetHostDcRegionConfiguration (p : CmdPath) (host : Nat) (s : State) : Host.Outcome State Fault Refusal :=
  onMail p s fun d pn => d.hostRegion pn host

/-- SET_DC_REGION_CONFIGURATION (R368): Accepted only when it restates the fixed region with 256 MiB blocks. -/
def execSetDcRegionConfiguration (p : CmdPath) (region : Nat) (base len block : BitVec 64) (s : State) : Host.Outcome State Fault Refusal :=
  onMail p s fun d pn => d.setRegion pn region base.toNat len.toNat block.toNat

/-- GET_DC_REGION_EXTENT_LISTS (R366): Returns region extent lists. -/
def execGetDcRegionExtentLists (p : CmdPath) (host : Nat) (s : State) : Host.Outcome State Fault Refusal :=
  onMail p s fun d pn => d.regionExtents pn host

/-- INITIATE_DYNAMIC_CAPACITY_ADD (R88): Checks all listed extents and, if all pass, writes Offered records and sends add events. -/
def execInitiateDynamicCapacityAdd (p : CmdPath) (q : DcReq) (s : State) : Host.Outcome State Fault Refusal :=
  onMail p s fun d pn => d.initiateAdd pn q

/-- INITIATE_DYNAMIC_CAPACITY_RELEASE (R368): Requests release from the host, or forces it with the forced-removal flag. -/
def execInitiateDynamicCapacityRelease (p : CmdPath) (q : DcReq) (force : Bool) (s : State) : Host.Outcome State Fault Refusal :=
  onMail p s fun d pn => d.initiateRelease pn q force

/-- DYNAMIC_CAPACITY_ADD_REFERENCE (R366): Adds a reference to a tagged extent. -/
def execDynamicCapacityAddReference (p : CmdPath) (tag : BitVec 128) (s : State) : Host.Outcome State Fault Refusal :=
  onMail p s fun d pn => d.addRef pn tag

/-- DYNAMIC_CAPACITY_REMOVE_REFERENCE (R366): Removes a reference to a tagged extent. -/
def execDynamicCapacityRemoveReference (p : CmdPath) (tag : BitVec 128) (s : State) : Host.Outcome State Fault Refusal :=
  onMail p s fun d pn => d.removeRef pn tag

/-- DYNAMIC_CAPACITY_LIST_TAGS (R366): Lists extent tags. -/
def execDynamicCapacityListTags (p : CmdPath) (s : State) : Host.Outcome State Fault Refusal :=
  onMail p s fun d pn => d.listTags pn

/-- GET_MULTI_HEADED_INFO (R366): Returns multi-headed device information. -/
def execGetMultiHeadedInfo (p : CmdPath) (s : State) : Host.Outcome State Fault Refusal :=
  onMail p s fun d pn => d.multiHead pn

/-- GET_HEAD_INFO (R366): Returns head information. -/
def execGetHeadInfo (p : CmdPath) (head : Nat) (s : State) : Host.Outcome State Fault Refusal :=
  onMail p s fun d pn => d.headInfo pn head

end Sys2Proof.Machine
end

