-- ==== Sys2Proof/Machine/ExecTrust.lean ====
section
/-! DEFINITION. Meanings of the commands, rows 177 to 213 of the opcode table: Monitor calls, Tollhouse, Pilot modules, debug. -/
namespace Sys2Proof.Machine

/-- MCALL (R411): A monitor call enters the Toll world with a call block, or raises a sandbox fault if misused. -/
def execMcall (slot : Option (Fin 8)) (blk : Nat) (img : Img) (s : State) : Host.Outcome State Fault Refusal :=
  onDev s fun d => d.mcallAt (slot.map Fin.val) blk img

/-- TM_VERSION (R413): Returns monitor and Tollhouse versions. -/
def execTmVersion (blk : Fin 8) (s : State) : Host.Outcome State Fault Refusal :=
  onDev s fun d => d.tm blk 0 []

/-- TM_RESULT (R412): Returns the final status of a ticket. -/
def execTmResult (blk : Fin 8) (ticket : BitVec 64) (s : State) : Host.Outcome State Fault Refusal :=
  onDev s fun d => d.tm blk 1 [ticket.toNat]

/-- TM_REGION_SET (R417): Writes a region register unless fused or locked. -/
def execTmRegionSet (blk : Fin 8) (mem region lo hi : BitVec 64) (s : State) : Host.Outcome State Fault Refusal :=
  onDev s fun d => d.tm blk 2 [mem.toNat, region.toNat, lo.toNat, hi.toNat]

/-- TM_REGION_GET (R413): Reads a region register. -/
def execTmRegionGet (blk : Fin 8) (mem region : BitVec 64) (s : State) : Host.Outcome State Fault Refusal :=
  onDev s fun d => d.tm blk 3 [mem.toNat, region.toNat]

/-- TM_HOLD (R430): Sets or clears a secure-hold bit. -/
def execTmHold (blk : Fin 8) (slice set : BitVec 64) (s : State) : Host.Outcome State Fault Refusal :=
  onDev s fun d => d.tm blk 4 [slice.toNat, set.toNat]

/-- TM_CTX_ENABLE (R413): Posts a context enable to the Tollhouse. -/
def execTmCtxEnable (blk : Fin 8) (ctx flags mask : BitVec 64) (s : State) : Host.Outcome State Fault Refusal :=
  onDev s fun d => d.tm blk 5 [ctx.toNat, flags.toNat, mask.toNat]

/-- TM_CTX_DISABLE (R413): Posts a context disable to the Tollhouse. -/
def execTmCtxDisable (blk : Fin 8) (ctx : BitVec 64) (s : State) : Host.Outcome State Fault Refusal :=
  onDev s fun d => d.tm blk 6 [ctx.toNat]

/-- TM_IMG_VERIFY (R422): Posts an image verification to the Tollhouse. -/
def execTmImgVerify (blk : Fin 8) (kind addr len slot : BitVec 64) (img : Img) (s : State) : Host.Outcome State Fault Refusal :=
  onDev s fun d => d.tm blk 7 [kind.toNat, addr.toNat, len.toNat, slot.toNat] img

/-- TM_ARB_COMMIT (R413): Blows anti-rollback fuses up to an SVN. -/
def execTmArbCommit (blk : Fin 8) (kind svn : BitVec 64) (s : State) : Host.Outcome State Fault Refusal :=
  onDev s fun d => d.tm blk 8 [kind.toNat, svn.toNat]

/-- TM_MEASURE (R424): Appends a measurement-log entry. -/
def execTmMeasure (blk : Fin 8) (kind slot addr : BitVec 64) (s : State) : Host.Outcome State Fault Refusal :=
  onDev s fun d => d.tm blk 9 [kind.toNat, slot.toNat, addr.toNat]

/-- TM_SPDM_XFER (R425): Passes an SPDM message to the Tollhouse responder. -/
def execTmSpdmXfer (blk : Fin 8) (transport addr len out : BitVec 64) (s : State) : Host.Outcome State Fault Refusal :=
  onDev s fun d => d.tm blk 0xA [transport.toNat, addr.toNat, len.toNat, out.toNat]

/-- TM_RANDOM (R413): Returns random bytes from the DRBG. -/
def execTmRandom (blk : Fin 8) (addr len : BitVec 64) (s : State) : Host.Outcome State Fault Refusal :=
  onDev s fun d => d.tm blk 0xB [addr.toNat, len.toNat]

/-- TM_DEBUG_UNLOCK (R432): Verifies a debug unlock token and grants DBG access. -/
def execTmDebugUnlock (blk : Fin 8) (addr len : BitVec 64) (sigOk : Bool) (s : State) : Host.Outcome State Fault Refusal :=
  onDev s fun d => d.tm blk 0xC [addr.toNat, len.toNat] { sigOk }

/-- TM_TLH_STATUS (R413): Returns Tollhouse state and counts. -/
def execTmTlhStatus (blk : Fin 8) (s : State) : Host.Outcome State Fault Refusal :=
  onDev s fun d => d.tm blk 0xD []

/-- TOLLHOUSE_RESPONSE (R412): The Tollhouse answers a posted request and the Toll world raises the completion interrupt. -/
def execTollhouseResponse (s : State) : Host.Outcome State Fault Refusal :=
  onDev s fun d => d.tlhServe.activateNext

/-- TICKET_TIMEOUT (R412): A ticket pending 5 ms completes with TM_EBUSY_TLH. -/
def execTicketTimeout (ticket : Nat) (s : State) : Host.Outcome State Fault Refusal :=
  onDev s fun d => (d.ticketTimeout ticket).activateNext

/-- HEARTBEAT_TIMEOUT (R427): No Tollhouse heartbeat for 100 ms restarts the Tollhouse alone. -/
def execHeartbeatTimeout (s : State) : Host.Outcome State Fault Refusal :=
  onDev s fun d => d.tlhRestart

/-- TOLLHOUSE_RESTART_COMPLETE (R427): The Tollhouse restart finishes re-verification, key recovery and reconciliation, or ends Stopped. -/
def execTollhouseRestartComplete (readOk : Bool) (s : State) : Host.Outcome State Fault Refusal :=
  onDev s fun d => d.tlhRestartDone readOk

/-- STOP_CLOCK (R429): PWR.REQ stops a slice's clock unless it is secure-held. -/
def execStopClock (slice : Fin 64) (s : State) : Host.Outcome State Fault Refusal :=
  onDev s fun d => d.pwrReq slice 0

/-- START_CLOCK (R429): PWR.REQ starts a slice's clock. -/
def execStartClock (slice : Fin 64) (s : State) : Host.Outcome State Fault Refusal :=
  onDev s fun d => d.pwrReq slice 1

/-- REMOVE_POWER (R429): PWR.REQ removes a slice's power unless it is secure-held. -/
def execRemovePower (slice : Fin 64) (s : State) : Host.Outcome State Fault Refusal :=
  onDev s fun d => d.pwrReq slice 2

/-- RESTORE_POWER (R429): PWR.REQ restores a slice's power. -/
def execRestorePower (slice : Fin 64) (s : State) : Host.Outcome State Fault Refusal :=
  onDev s fun d => d.pwrReq slice 3

/-- PILOT_PACKAGE_ACTIVATION (R434): A newly installed Pilot package replaces the module in its slot at its next callback return. -/
def execPilotPackageActivation (slot : Fin 8) (s : State) : Host.Outcome State Fault Refusal :=
  onDev s fun d => d.activateModule slot

/-- PLT_CMD (R437): A Pilot module issues an Operator command. -/
def execPltCmd (slot : Fin 8) (opcode : BitVec 16) (payload : List Byte) (s : State) : Host.Outcome State Fault Refusal :=
  onDev s fun d => d.pltCmd slot opcode.toNat payload

/-- PLT_EVENT_WAIT (R437): A Pilot module waits for an event. -/
def execPltEventWait (slot : Fin 8) (ns : BitVec 64) (s : State) : Host.Outcome State Fault Refusal :=
  onDev s fun d => d.pltWait slot ns.toNat

/-- PLT_BARGE_CLAIM (R437): A Pilot module claims Barge channels within its limit. -/
def execPltBargeClaim (slot : Fin 8) (n : Nat) (s : State) : Host.Outcome State Fault Refusal :=
  onDev s fun d => d.pltClaim slot n

/-- PLT_BARGE_RELEASE (R437): A Pilot module releases a Barge channel. -/
def execPltBargeRelease (slot : Fin 8) (ch : Nat) (s : State) : Host.Outcome State Fault Refusal :=
  onDev s fun d => d.pltRelease slot ch

/-- PLT_BARGE_POST (R437): A Pilot module posts descriptors to a channel it holds. -/
def execPltBargePost (slot : Fin 8) (ch : Nat) (descs : List Line) (s : State) : Host.Outcome State Fault Refusal :=
  onDev s fun d => d.pltPost slot ch descs

/-- PLT_BALLAST_POST (R350): A Pilot module posts cold-page candidates to the BG63 ring. -/
def execPltBallastPost (slot : Fin 8) (pages : List Nat) (s : State) : Host.Outcome State Fault Refusal :=
  onDev s fun d => d.pltBallast slot pages

/-- PLT_SCRATCH_BASE (R437): Returns the module's scratch base. -/
def execPltScratchBase (slot : Fin 8) (s : State) : Host.Outcome State Fault Refusal :=
  onDev s fun d => d.pltScratch slot

/-- PLT_COUNTER_READ (R469): Reads a counter pair atomically. -/
def execPltCounterRead (slot : Fin 8) (pair : Nat) (s : State) : Host.Outcome State Fault Refusal :=
  onDev s fun d => d.pltCounter slot pair

/-- PLT_TIME (R437): Returns device time. -/
def execPltTime (slot : Fin 8) (s : State) : Host.Outcome State Fault Refusal :=
  onDev s fun d => d.pltTime slot

/-- PLT_LOG (R437): Writes a module log message. -/
def execPltLog (slot : Fin 8) (level : Nat) (msg : List Byte) (s : State) : Host.Outcome State Fault Refusal :=
  onDev s fun d => d.pltLog slot level msg

/-- PILOT_SCHEDULER_TICK (R436): At each 1 ms tick Syust enforces module time and callback limits. -/
def execPilotSchedulerTick (uses : List PilotUse) (s : State) : Host.Outcome State Fault Refusal :=
  onDev s fun d => d.pilotTick uses

/-- PILOT_RESTART (R439): One second after a sandbox fault the module is started again. -/
def execPilotRestart (slot : Fin 8) (s : State) : Host.Outcome State Fault Refusal :=
  onDev s fun d => d.pilotAgain slot

/-- DEBUG_READ (R270): A debug read is served or refused with zeros and logged. -/
def execDebugRead (target : DbgTarget) (s : State) : Host.Outcome State Fault Refusal :=
  onDev s fun d => d.debugRead target

end Sys2Proof.Machine
end

