-- ==== Sys2Proof/Machine/Dispatch.lean ====
section
/-! DEFINITION. The meaning of each command: one arm per row of the opcode table. -/
namespace Sys2Proof.Machine

def exec (i : Instr) (s : State) : Host.Outcome State Fault Refusal :=
  match i with
  | .memReadRequest ld q ph => Sys2Proof.Machine.execMemReadRequest ld q ph s
  | .memWriteRequest ld q ph => Sys2Proof.Machine.execMemWriteRequest ld q ph s
  | .memClnEvct ld hpa tag ph => Sys2Proof.Machine.execMemClnEvct ld hpa tag ph s
  | .dramReadDataReturn sl quad ph => Sys2Proof.Machine.execDramReadDataReturn sl quad ph s
  | .missTrackerEntryFree sl ph => Sys2Proof.Machine.execMissTrackerEntryFree sl ph s
  | .dirtyLineWriteback sl page mask ph => Sys2Proof.Machine.execDirtyLineWriteback sl page mask ph s
  | .holdRelease sl ph => Sys2Proof.Machine.execHoldRelease sl ph s
  | .tholdExpiry sl page ph => Sys2Proof.Machine.execTholdExpiry sl page ph s
  | .growthTokenRefill ch => Sys2Proof.Machine.execGrowthTokenRefill ch s
  | .cleaningTick sl => Sys2Proof.Machine.execCleaningTick sl s
  | .idleCleaning sl util ph => Sys2Proof.Machine.execIdleCleaning sl util ph s
  | .classTrim sl cls ph => Sys2Proof.Machine.execClassTrim sl cls ph s
  | .pmcTallyFlush sl => Sys2Proof.Machine.execPmcTallyFlush sl s
  | .tallySweepComplete => Sys2Proof.Machine.execTallySweepComplete s
  | .slipStop suspect sender receiver byReceiver cls phase => Sys2Proof.Machine.execSlipStop suspect sender receiver byReceiver cls phase s
  | .flitReceived ld f => Sys2Proof.Machine.execFlitReceived ld f s
  | .ingressDeparture ld ph => Sys2Proof.Machine.execIngressDeparture ld ph s
  | .creditReturnTimer ld => Sys2Proof.Machine.execCreditReturnTimer ld s
  | .flitAcknowledge ld seq => Sys2Proof.Machine.execFlitAcknowledge ld seq s
  | .flitReplay ld seq => Sys2Proof.Machine.execFlitReplay ld seq s
  | .replayLimit ld => Sys2Proof.Machine.execReplayLimit ld s
  | .linkTrained ld t => Sys2Proof.Machine.execLinkTrained ld t s
  | .lockLost ld => Sys2Proof.Machine.execLockLost ld s
  | .lockRegained ld => Sys2Proof.Machine.execLockRegained ld s
  | .tdownExpiry ld => Sys2Proof.Machine.execTdownExpiry ld s
  | .perstAssert ld ns => Sys2Proof.Machine.execPerstAssert ld ns s
  | .perstDeassert ld => Sys2Proof.Machine.execPerstDeassert ld s
  | .hotReset ld => Sys2Proof.Machine.execHotReset ld s
  | .partnerDetect ld => Sys2Proof.Machine.execPartnerDetect ld s
  | .ideMacEpoch ld stream dir ok newSlot => Sys2Proof.Machine.execIdeMacEpoch ld stream dir ok newSlot s
  | .keyProg ld stream dir slot key => Sys2Proof.Machine.execKeyProg ld stream dir slot key s
  | .kSetGo ld stream dir slot => Sys2Proof.Machine.execKSetGo ld stream dir slot s
  | .hdmDecoderCommit ld hbase size dbase iw ig => Sys2Proof.Machine.execHdmDecoderCommit ld hbase size dbase iw ig s
  | .birspReceived ld line blk rsp => Sys2Proof.Machine.execBirspReceived ld line blk rsp s
  | .biconflict ld line => Sys2Proof.Machine.execBiconflict ld line s
  | .sharedCreditRequest sl ld => Sys2Proof.Machine.execSharedCreditRequest sl ld s
  | .boardingHeadServe ld sector => Sys2Proof.Machine.execBoardingHeadServe ld sector s
  | .tminholdExpiry ld sector => Sys2Proof.Machine.execTminholdExpiry ld sector s
  | .handoff sl => Sys2Proof.Machine.execHandoff sl s
  | .transferDataArrival ld => Sys2Proof.Machine.execTransferDataArrival ld s
  | .tbirspExpiry ld line => Sys2Proof.Machine.execTbirspExpiry ld line s
  | .lossReport sl => Sys2Proof.Machine.execLossReport sl s
  | .filterMoveComplete sl => Sys2Proof.Machine.execFilterMoveComplete sl s
  | .offerExpiry n => Sys2Proof.Machine.execOfferExpiry n s
  | .releaseDrainComplete n => Sys2Proof.Machine.execReleaseDrainComplete n s
  | .reclaimComplete n => Sys2Proof.Machine.execReclaimComplete n s
  | .scratchAccess ag off acc => Sys2Proof.Machine.execScratchAccess ag off acc s
  | .wayConversionComplete => Sys2Proof.Machine.execWayConversionComplete s
  | .rangeOperationSliceDone sl id => Sys2Proof.Machine.execRangeOperationSliceDone sl id s
  | .wharfSliceDrainComplete sl ph => Sys2Proof.Machine.execWharfSliceDrainComplete sl ph s
  | .quadBufferGatherTimeout sl quad ph => Sys2Proof.Machine.execQuadBufferGatherTimeout sl quad ph s
  | .sealNodeClean sl blk lvl idx => Sys2Proof.Machine.execSealNodeClean sl blk lvl idx s
  | .keyImport ld ctx keys k0 k1 => Sys2Proof.Machine.execKeyImport ld ctx keys k0 k1 s
  | .dimmTempPoll ch reading => Sys2Proof.Machine.execDimmTempPoll ch reading s
  | .refreshDue ch bank busy => Sys2Proof.Machine.execRefreshDue ch bank busy s
  | .trefwClear ch => Sys2Proof.Machine.execTrefwClear ch s
  | .rfmThreshold ch bank => Sys2Proof.Machine.execRfmThreshold ch bank s
  | .entryStarve ch quad => Sys2Proof.Machine.execEntryStarve ch quad s
  | .retrainingPause ch low => Sys2Proof.Machine.execRetrainingPause ch low s
  | .alertNError ch off chk => Sys2Proof.Machine.execAlertNError ch off chk s
  | .patrolScrub ch ph => Sys2Proof.Machine.execPatrolScrub ch ph s
  | .softRepair ch clean => Sys2Proof.Machine.execSoftRepair ch clean s
  | .deliverableRecompute => Sys2Proof.Machine.execDeliverableRecompute s
  | .qosWindowBoundary rs => Sys2Proof.Machine.execQosWindowBoundary rs s
  | .bargeDoorbell bg tail => Sys2Proof.Machine.execBargeDoorbell bg tail s
  | .bargeDescriptorFetch bg ph => Sys2Proof.Machine.execBargeDescriptorFetch bg ph s
  | .bargeDescriptorComplete bg ph => Sys2Proof.Machine.execBargeDescriptorComplete bg ph s
  | .copy bg lines ph => Sys2Proof.Machine.execCopy bg lines ph s
  | .zero bg lines ph => Sys2Proof.Machine.execZero bg lines ph s
  | .fill bg lines ph => Sys2Proof.Machine.execFill bg lines ph s
  | .pack bg pages ph => Sys2Proof.Machine.execPack bg pages ph s
  | .unpack bg pages ph => Sys2Proof.Machine.execUnpack bg pages ph s
  | .repack bg pages ph => Sys2Proof.Machine.execRepack bg pages ph s
  | .migrate bg pages ph => Sys2Proof.Machine.execMigrate bg pages ph s
  | .pageRetirement bg pages ph => Sys2Proof.Machine.execPageRetirement bg pages ph s
  | .rekey bg pages ph => Sys2Proof.Machine.execRekey bg pages ph s
  | .scrub bg pages ph => Sys2Proof.Machine.execScrub bg pages ph s
  | .dictUnpack bg lines ph => Sys2Proof.Machine.execDictUnpack bg lines ph s
  | .dictPack bg lines ph => Sys2Proof.Machine.execDictPack bg lines ph s
  | .bargeStop bg => Sys2Proof.Machine.execBargeStop bg s
  | .bargeRun bg => Sys2Proof.Machine.execBargeRun bg s
  | .bargeEnable bg ringlog2 irqen => Sys2Proof.Machine.execBargeEnable bg ringlog2 irqen s
  | .bargeDisable bg => Sys2Proof.Machine.execBargeDisable bg s
  | .busErrorRetry bg ok => Sys2Proof.Machine.execBusErrorRetry bg ok s
  | .unsupportedCommand p opcode => Sys2Proof.Machine.execUnsupportedCommand p opcode s
  | .backgroundComplete p done ph => Sys2Proof.Machine.execBackgroundComplete p done ph s
  | .identify p => Sys2Proof.Machine.execIdentify p s
  | .backgroundOperationStatus p => Sys2Proof.Machine.execBackgroundOperationStatus p s
  | .requestAbortBackgroundOperation p => Sys2Proof.Machine.execRequestAbortBackgroundOperation p s
  | .getResponseMessageLimit p => Sys2Proof.Machine.execGetResponseMessageLimit p s
  | .setResponseMessageLimit p log2 => Sys2Proof.Machine.execSetResponseMessageLimit p log2 s
  | .getEventRecords p log => Sys2Proof.Machine.execGetEventRecords p log s
  | .clearEventRecords p log all handles => Sys2Proof.Machine.execClearEventRecords p log all handles s
  | .getEventInterruptPolicy p => Sys2Proof.Machine.execGetEventInterruptPolicy p s
  | .setEventInterruptPolicy p modes => Sys2Proof.Machine.execSetEventInterruptPolicy p modes s
  | .getFwInfo p => Sys2Proof.Machine.execGetFwInfo p s
  | .transferFw p slot img => Sys2Proof.Machine.execTransferFw p slot img s
  | .activateFw p slot online => Sys2Proof.Machine.execActivateFw p slot online s
  | .pldmFwUpdate pkg => Sys2Proof.Machine.execPldmFwUpdate pkg s
  | .getTimestamp p => Sys2Proof.Machine.execGetTimestamp p s
  | .setTimestamp p time => Sys2Proof.Machine.execSetTimestamp p time s
  | .getSupportedLogs p => Sys2Proof.Machine.execGetSupportedLogs p s
  | .getLog p cel => Sys2Proof.Machine.execGetLog p cel s
  | .getSupportedFeatures p => Sys2Proof.Machine.execGetSupportedFeatures p s
  | .getFeature p k => Sys2Proof.Machine.execGetFeature p k s
  | .setFeature p k v => Sys2Proof.Machine.execSetFeature p k v s
  | .performMaintenance p cls sub ch bank row => Sys2Proof.Machine.execPerformMaintenance p cls sub ch bank row s
  | .identifyMemoryDevice p => Sys2Proof.Machine.execIdentifyMemoryDevice p s
  | .getHealthInfo p => Sys2Proof.Machine.execGetHealthInfo p s
  | .getAlertConfiguration p => Sys2Proof.Machine.execGetAlertConfiguration p s
  | .setAlertConfiguration p v => Sys2Proof.Machine.execSetAlertConfiguration p v s
  | .getPoisonList p dpa len => Sys2Proof.Machine.execGetPoisonList p dpa len s
  | .injectPoison p dpa => Sys2Proof.Machine.execInjectPoison p dpa s
  | .clearPoison p dpa data ph => Sys2Proof.Machine.execClearPoison p dpa data ph s
  | .getScanMediaCapabilities p dpa len => Sys2Proof.Machine.execGetScanMediaCapabilities p dpa len s
  | .scanMedia p dpa len => Sys2Proof.Machine.execScanMedia p dpa len s
  | .getScanMediaResults p => Sys2Proof.Machine.execGetScanMediaResults p s
  | .sanitize p => Sys2Proof.Machine.execSanitize p s
  | .getDynamicCapacityConfiguration p => Sys2Proof.Machine.execGetDynamicCapacityConfiguration p s
  | .getDynamicCapacityExtentList p => Sys2Proof.Machine.execGetDynamicCapacityExtentList p s
  | .addDynamicCapacityResponse p exts => Sys2Proof.Machine.execAddDynamicCapacityResponse p exts s
  | .releaseDynamicCapacity p exts => Sys2Proof.Machine.execReleaseDynamicCapacity p exts s
  | .getDcdInfo p => Sys2Proof.Machine.execGetDcdInfo p s
  | .getHostDcRegionConfiguration p host => Sys2Proof.Machine.execGetHostDcRegionConfiguration p host s
  | .setDcRegionConfiguration p region base len block => Sys2Proof.Machine.execSetDcRegionConfiguration p region base len block s
  | .getDcRegionExtentLists p host => Sys2Proof.Machine.execGetDcRegionExtentLists p host s
  | .initiateDynamicCapacityAdd p q => Sys2Proof.Machine.execInitiateDynamicCapacityAdd p q s
  | .initiateDynamicCapacityRelease p q force => Sys2Proof.Machine.execInitiateDynamicCapacityRelease p q force s
  | .dynamicCapacityAddReference p tag => Sys2Proof.Machine.execDynamicCapacityAddReference p tag s
  | .dynamicCapacityRemoveReference p tag => Sys2Proof.Machine.execDynamicCapacityRemoveReference p tag s
  | .dynamicCapacityListTags p => Sys2Proof.Machine.execDynamicCapacityListTags p s
  | .getMultiHeadedInfo p => Sys2Proof.Machine.execGetMultiHeadedInfo p s
  | .getHeadInfo p head => Sys2Proof.Machine.execGetHeadInfo p head s
  | .stageExtentAttributes p payload => Sys2Proof.Machine.execStageExtentAttributes p payload s
  | .getExtentRecords p payload => Sys2Proof.Machine.execGetExtentRecords p payload s
  | .withdrawOffer p payload => Sys2Proof.Machine.execWithdrawOffer p payload s
  | .getPageMapEntries p payload => Sys2Proof.Machine.execGetPageMapEntries p payload s
  | .advanceTallyEpoch p payload => Sys2Proof.Machine.execAdvanceTallyEpoch p payload s
  | .setPagePin p payload => Sys2Proof.Machine.execSetPagePin p payload s
  | .wharfPin p payload => Sys2Proof.Machine.execWharfPin p payload s
  | .wharfMaintenance p payload => Sys2Proof.Machine.execWharfMaintenance p payload s
  | .clearAdrift p payload => Sys2Proof.Machine.execClearAdrift p payload s
  | .pageMapAudit p payload => Sys2Proof.Machine.execPageMapAudit p payload s
  | .setHostQueuePermission p payload => Sys2Proof.Machine.execSetHostQueuePermission p payload s
  | .getCapacityStatus p payload => Sys2Proof.Machine.execGetCapacityStatus p payload s
  | .enableContext p payload => Sys2Proof.Machine.execEnableContext p payload s
  | .disableContext p payload => Sys2Proof.Machine.execDisableContext p payload s
  | .getContextRecords p payload => Sys2Proof.Machine.execGetContextRecords p payload s
  | .rekeyExtent p payload => Sys2Proof.Machine.execRekeyExtent p payload s
  | .resealSubtree p payload => Sys2Proof.Machine.execResealSubtree p payload s
  | .setClassRecord p payload => Sys2Proof.Machine.execSetClassRecord p payload s
  | .getClassRecords p payload => Sys2Proof.Machine.execGetClassRecords p payload s
  | .setLabelTable p payload => Sys2Proof.Machine.execSetLabelTable p payload s
  | .getClassOccupancy p payload => Sys2Proof.Machine.execGetClassOccupancy p payload s
  | .getFaultRecords p payload => Sys2Proof.Machine.execGetFaultRecords p payload s
  | .acknowledgeFault p payload => Sys2Proof.Machine.execAcknowledgeFault p payload s
  | .injectFault p payload => Sys2Proof.Machine.execInjectFault p payload s
  | .fenceUnit p payload => Sys2Proof.Machine.execFenceUnit p payload s
  | .restoreUnit p payload => Sys2Proof.Machine.execRestoreUnit p payload s
  | .retrainChannel p payload => Sys2Proof.Machine.execRetrainChannel p payload s
  | .landingToMoored p ld => Sys2Proof.Machine.execLandingToMoored p ld s
  | .landingToUnderway p ld => Sys2Proof.Machine.execLandingToUnderway p ld s
  | .deviceToMoored p => Sys2Proof.Machine.execDeviceToMoored p s
  | .deviceToLaidUp p => Sys2Proof.Machine.execDeviceToLaidUp p s
  | .deviceToUnderway p => Sys2Proof.Machine.execDeviceToUnderway p s
  | .mooredCommit => Sys2Proof.Machine.execMooredCommit s
  | .laidUpCommit => Sys2Proof.Machine.execLaidUpCommit s
  | .getPowerStatus p payload => Sys2Proof.Machine.execGetPowerStatus p payload s
  | .warmDeviceReset p payload => Sys2Proof.Machine.execWarmDeviceReset p payload s
  | .warmResetPreparationDone => Sys2Proof.Machine.execWarmResetPreparationDone s
  | .warmResetEscalation => Sys2Proof.Machine.execWarmResetEscalation s
  | .getGangwayStatus p payload => Sys2Proof.Machine.execGetGangwayStatus p payload s
  | .manifest p payload => Sys2Proof.Machine.execManifest p payload s
  | .manifestSnapshotExpiry p => Sys2Proof.Machine.execManifestSnapshotExpiry p s
  | .getParameter p payload => Sys2Proof.Machine.execGetParameter p payload s
  | .setParameter p payload => Sys2Proof.Machine.execSetParameter p payload s
  | .getPersistentLog p payload => Sys2Proof.Machine.execGetPersistentLog p payload s
  | .mcall slot blk img => Sys2Proof.Machine.execMcall slot blk img s
  | .tmVersion blk => Sys2Proof.Machine.execTmVersion blk s
  | .tmResult blk ticket => Sys2Proof.Machine.execTmResult blk ticket s
  | .tmRegionSet blk mem region lo hi => Sys2Proof.Machine.execTmRegionSet blk mem region lo hi s
  | .tmRegionGet blk mem region => Sys2Proof.Machine.execTmRegionGet blk mem region s
  | .tmHold blk slice set => Sys2Proof.Machine.execTmHold blk slice set s
  | .tmCtxEnable blk ctx flags mask => Sys2Proof.Machine.execTmCtxEnable blk ctx flags mask s
  | .tmCtxDisable blk ctx => Sys2Proof.Machine.execTmCtxDisable blk ctx s
  | .tmImgVerify blk kind addr len slot img => Sys2Proof.Machine.execTmImgVerify blk kind addr len slot img s
  | .tmArbCommit blk kind svn => Sys2Proof.Machine.execTmArbCommit blk kind svn s
  | .tmMeasure blk kind slot addr => Sys2Proof.Machine.execTmMeasure blk kind slot addr s
  | .tmSpdmXfer blk transport addr len out => Sys2Proof.Machine.execTmSpdmXfer blk transport addr len out s
  | .tmRandom blk addr len => Sys2Proof.Machine.execTmRandom blk addr len s
  | .tmDebugUnlock blk addr len sigOk => Sys2Proof.Machine.execTmDebugUnlock blk addr len sigOk s
  | .tmTlhStatus blk => Sys2Proof.Machine.execTmTlhStatus blk s
  | .tollhouseResponse => Sys2Proof.Machine.execTollhouseResponse s
  | .ticketTimeout ticket => Sys2Proof.Machine.execTicketTimeout ticket s
  | .heartbeatTimeout => Sys2Proof.Machine.execHeartbeatTimeout s
  | .tollhouseRestartComplete readOk => Sys2Proof.Machine.execTollhouseRestartComplete readOk s
  | .stopClock slice => Sys2Proof.Machine.execStopClock slice s
  | .startClock slice => Sys2Proof.Machine.execStartClock slice s
  | .removePower slice => Sys2Proof.Machine.execRemovePower slice s
  | .restorePower slice => Sys2Proof.Machine.execRestorePower slice s
  | .pilotPackageActivation slot => Sys2Proof.Machine.execPilotPackageActivation slot s
  | .pltCmd slot opcode payload => Sys2Proof.Machine.execPltCmd slot opcode payload s
  | .pltEventWait slot ns => Sys2Proof.Machine.execPltEventWait slot ns s
  | .pltBargeClaim slot n => Sys2Proof.Machine.execPltBargeClaim slot n s
  | .pltBargeRelease slot ch => Sys2Proof.Machine.execPltBargeRelease slot ch s
  | .pltBargePost slot ch descs => Sys2Proof.Machine.execPltBargePost slot ch descs s
  | .pltBallastPost slot pages => Sys2Proof.Machine.execPltBallastPost slot pages s
  | .pltScratchBase slot => Sys2Proof.Machine.execPltScratchBase slot s
  | .pltCounterRead slot pair => Sys2Proof.Machine.execPltCounterRead slot pair s
  | .pltTime slot => Sys2Proof.Machine.execPltTime slot s
  | .pltLog slot level msg => Sys2Proof.Machine.execPltLog slot level msg s
  | .pilotSchedulerTick uses => Sys2Proof.Machine.execPilotSchedulerTick uses s
  | .pilotRestart slot => Sys2Proof.Machine.execPilotRestart slot s
  | .debugRead target => Sys2Proof.Machine.execDebugRead target s
  | .faultReport src det0 det1 full => Sys2Proof.Machine.execFaultReport src det0 det1 full s
  | .wireBroken src => Sys2Proof.Machine.execWireBroken src s
  | .wireRestored src => Sys2Proof.Machine.execWireRestored src s
  | .sourceForce src on => Sys2Proof.Machine.execSourceForce src on s
  | .ferrymanRestart => Sys2Proof.Machine.execFerrymanRestart s
  | .keepAliveTimeout => Sys2Proof.Machine.execKeepAliveTimeout s
  | .mooringLinkUp => Sys2Proof.Machine.execMooringLinkUp s
  | .counterWindowBoundary => Sys2Proof.Machine.execCounterWindowBoundary s
  | .ptmDialog offset => Sys2Proof.Machine.execPtmDialog offset s
  | .ptmSyncTimeout => Sys2Proof.Machine.execPtmSyncTimeout s
  | .sensorSample vals => Sys2Proof.Machine.execSensorSample vals s
  | .throttleStepRise => Sys2Proof.Machine.execThrottleStepRise s
  | .throttleStepFall => Sys2Proof.Machine.execThrottleStepFall s
  | .thermtrip sensor => Sys2Proof.Machine.execThermtrip sensor s
  | .aspmL1Entry ld => Sys2Proof.Machine.execAspmL1Entry ld s
  | .i3cAddressMatch => Sys2Proof.Machine.execI3cAddressMatch s
  | .wakePin pin high ns => Sys2Proof.Machine.execWakePin pin high ns s
  | .linkActivityWake ld => Sys2Proof.Machine.execLinkActivityWake ld s
  | .auxPowerApplied => Sys2Proof.Machine.execAuxPowerApplied s
  | .auxPowerLost => Sys2Proof.Machine.execAuxPowerLost s
  | .presenceQualified vin => Sys2Proof.Machine.execPresenceQualified vin s
  | .boardPull => Sys2Proof.Machine.execBoardPull s
  | .vinOutOfRange vin => Sys2Proof.Machine.execVinOutOfRange vin s
  | .vinRecovered vin => Sys2Proof.Machine.execVinRecovered vin s
  | .rampComplete vin vout => Sys2Proof.Machine.execRampComplete vin vout s
  | .currentLimitReached current => Sys2Proof.Machine.execCurrentLimitReached current s
  | .currentBelowLimit held clear => Sys2Proof.Machine.execCurrentBelowLimit held clear s
  | .breakerTrip held => Sys2Proof.Machine.execBreakerTrip held s
  | .fastTrip current => Sys2Proof.Machine.execFastTrip current s
  | .fetModelUpdate vin vout current diode => Sys2Proof.Machine.execFetModelUpdate vin vout current diode s
  | .fetShort vout => Sys2Proof.Machine.execFetShort vout s
  | .retryStart => Sys2Proof.Machine.execRetryStart s
  | .retryReload => Sys2Proof.Machine.execRetryReload s
  | .pgAssert vin => Sys2Proof.Machine.execPgAssert vin s
  | .pgFall vout => Sys2Proof.Machine.execPgFall vout s
  | .boardFuseProgram v => Sys2Proof.Machine.execBoardFuseProgram v s
  | .coreResetRelease testen spimode => Sys2Proof.Machine.execCoreResetRelease testen spimode s
  | .coreRailTimeout => Sys2Proof.Machine.execCoreRailTimeout s
  | .coreRailLost => Sys2Proof.Machine.execCoreRailLost s
  | .tollhouseBoot fuseOk sramOk => Sys2Proof.Machine.execTollhouseBoot fuseOk sramOk s
  | .landingsReleased storeOk => Sys2Proof.Machine.execLandingsReleased storeOk s
  | .channelBringUpComplete ch spd => Sys2Proof.Machine.execChannelBringUpComplete ch spd s
  | .sramSelfTestComplete fails => Sys2Proof.Machine.execSramSelfTestComplete fails s
  | .laneSelfTest bad => Sys2Proof.Machine.execLaneSelfTest bad s
  | .memoryActive saveOk stateOk => Sys2Proof.Machine.execMemoryActive saveOk stateOk s
  | .arbCommitTimer => Sys2Proof.Machine.execArbCommitTimer s
  | .refclkAppear pair => Sys2Proof.Machine.execRefclkAppear pair s
  | .refclkLost pair => Sys2Proof.Machine.execRefclkLost pair s
  | .jtagBallInstruction lands chans => Sys2Proof.Machine.execJtagBallInstruction lands chans s
  | .registerWrite reg v => Sys2Proof.Machine.execRegisterWrite reg v s
  | .spdmRequest ld session msg => Sys2Proof.Machine.execSpdmRequest ld session msg s
  | .debugUnlockExpiry => Sys2Proof.Machine.execDebugUnlockExpiry s
  | .partnerAppears ld => Sys2Proof.Machine.execPartnerAppears ld s
  | .hostRetrainRequest ld => Sys2Proof.Machine.execHostRetrainRequest ld s

end Sys2Proof.Machine
end

