-- ==== Sys2Proof/Machine/Pins.lean ====
section
/-! DEFINITION. What the block drives on its output balls, read off its state (R430, R453, R493, R503, R504, R507, R514, R539, R548). No command reads these; they
are views of State. -/
namespace Sys2Proof.Machine

/-- Conditions of Table 19.3, and the device running. -/
inductive PinCond where
  | auxAbsent | unpowered | coldReset | keptReset | running
  deriving DecidableEq, Repr

/-- What an output does (Table 19.3). `working` is what the chapter on the interface says of it; `unstated` where the table names no level. -/
inductive PinOut where
  | highZ | pullDown | low | high | released | electricalIdle | stopped | retained | nack | busy | working | unstated
  deriving DecidableEq, Repr

/-- Output groups of Table 19.3. -/
inductive PinGroup where
  | hostTx | resetN | addrCmd | chipSelN | memClock | spdI3c | i3cTarget | spiCsN | spiSck | uartTx | tdo | gpio | thermtripN | fatalN | gate | pg | fltN | disconnectN
  deriving DecidableEq, Repr

/-- The condition of Table 19.3 that holds (R514): until the landings are released the core die counts as in reset, and so it does in test mode (R546). -/
def Dev.pinCond (d : Dev) : PinCond :=
  match d.boot.phase with
  | .off => .auxAbsent
  | .aux => if d.gwy.pg then .coldReset else .unpowered
  | .test => .coldReset
  | .laidUp => .keptReset
  | .trust => if d.boot.kind.keeps then .keptReset else .coldReset
  | .starting => if d.boot.released then .running else if d.boot.kind.keeps then .keptReset else .coldReset
  | .active => .running

/-- An open-drain output: low while asserted. -/
def openDrain (asserted : Bool) : PinOut := if asserted then .low else .released

/-- Groups that the mooring die drives while 3.3 V auxiliary is present (Table 19.3); none for a group of the core die. -/
def Dev.mooringPin (d : Dev) : PinGroup → Option PinOut
  | .thermtripN => some (openDrain d.pwr.trip)
  | .fatalN => some (openDrain d.fatalN)
  | .gate => some (if d.gwy.st.gate then .high else .low)
  | .pg => some (if d.gwy.pg then .released else .low)
  | .fltN => some (openDrain d.gwy.flt)
  | .disconnectN => some (openDrain d.gwy.disc)
  | .tdo => some .highZ
  | _ => none

/-- Groups of the core die, and the I3C target, with the core die unpowered, in reset, or running (Table 19.3). -/
def corePin (cond : PinCond) (g : PinGroup) : PinOut :=
  match cond with
  | .auxAbsent => .highZ
  | .unpowered => if g = .i3cTarget then .nack else .highZ
  | .running => .working
  | .coldReset | .keptReset =>
    let cold := decide (cond = .coldReset)
    match g with
    | .hostTx => .electricalIdle
    | .resetN => if cold then .low else .high
    | .addrCmd | .chipSelN => if !cold then .retained else if g = .chipSelN then .high else .unstated
    | .memClock => .stopped
    | .i3cTarget => .nack
    | .spiCsN | .uartTx => .high
    | .spiSck => .low
    | .gpio => .pullDown
    | _ => .highZ

/-- What an output group drives (R514, Table 19.3). The I3C target answers Busy once the MCTP block is powered, and works while the Ferryman runs (R364). -/
def Dev.output (d : Dev) (g : PinGroup) : PinOut :=
  let c := d.pinCond
  if c = .auxAbsent then .highZ
  else match d.mooringPin g with
    | some x => x
    | none =>
      if g = .i3cTarget ∧ (c = .keptReset ∨ c = .coldReset) then (if d.coreOn then .busy else .nack) else corePin c g

end Sys2Proof.Machine
end

