-- ==== Sys2Proof/Machine/RegView.lean ====
section
/-! DEFINITION. Registers as a read shows them, where no command reads them: the layouts of the register tables and of the host pages (R10, R13, R401 to R409).
A read of a register changes nothing and has no row; these are views of State. -/
namespace Sys2Proof.Machine

/-- LND[nn].ALIAS (Table 3.1). -/
def Dev.aliasReg (d : Dev) (n : Nat) : Nat :=
  let a := (d.ld n).acc
  word [(0, a.lbits.toNat), (8, a.lpos.toNat)]

/-- LND[nn].ACCVIOL (Table 3.6); CLR reads 0. -/
def Dev.accviolReg (d : Dev) (n : Nat) : Nat :=
  let a := (d.ld n).acc
  word [(0, a.count.toNat), (24, a.first.toNat)]

/-- LND[nn].BOARD (Table 7.4). -/
def Dev.boardReg (d : Dev) (n : Nat) : Nat :=
  let c := (d.ld n).coh
  word [(0, c.board.length), (6, c.peak), (16, c.returns.toNat)]

/-- WHF.PINLOSS (Table 6.4); CLR reads 0. -/
def Dev.pinlossReg (d : Dev) : Nat := d.pinLoss

/-- QOS.DELIV (Table 10.6). -/
def Dev.delivReg (d : Dev) : Nat := word [(0, d.qos.dw), (16, d.qos.dq), (32, d.qos.scaleEv)]

/-- BRG[cc].CFG (Table 11.8). -/
def BrgCh.cfgReg (b : BrgCh) : Nat :=
  word [(0, b.pri), (2, b.owner.code), (4, b.cls), (10, bit b.irqen), (11, b.ringlog2), (15, bit b.enable), (16, bit b.hostok)]

/-- BRG[cc].RING (Table 11.9). -/
def BrgCh.ringReg (b : BrgCh) : Nat := word [(6, b.base / 64), (62, b.space)]

/-- BRG[cc].PTR (Table 11.10). -/
def BrgCh.ptrReg (b : BrgCh) : Nat := word [(0, b.head.toNat), (32, b.tail.toNat)]

/-- BRG[cc].STAT (Table 11.11); RUN reads 0. -/
def BrgCh.statReg (b : BrgCh) : Nat :=
  word [(0, b.st.code), (3, bit b.stop), (5, bit b.doneirq), (6, bit b.haltirq), (16, b.lastcode), (32, b.retries), (48, b.descs.toNat)]

/-- STATE of Table 12.6. -/
def FmnSt.code : FmnSt → Nat
  | .booting => 0
  | .running => 1
  | .restarting => 2
  | .updating => 3
  | .quiescing => 4

/-- FMN.STATE (Table 12.6). -/
def Dev.fmnReg (d : Dev) : Nat := word [(0, d.fmn.st.code), (16, d.fmn.restarts)]

/-- PWR.REQ (Table 14.12); GO reads 0. -/
def Dev.pwrReqReg (d : Dev) : Nat := word [(0, d.pwr.target), (6, d.pwr.action), (9, d.pwr.result)]

/-- PWR.SECHOLD (Table 14.13, R431). -/
def Dev.secholdReg (d : Dev) : Nat := d.secHold.toNat

/-- FENCE of Table 15.14. -/
def Fence.code : Fence → Nat
  | .lane => 1
  | .landing => 2
  | .link => 3
  | .wharf => 4
  | .channel => 5
  | .cmp | .dec0 | .dec1 => 6

/-- LKO[sss].SRC (Table 15.14): none for a reserved source ID. -/
def Dev.srcReg (d : Dev) (s : Nat) : Option Nat :=
  (sourceInfo s).map fun i =>
    let x := tget {} d.lko.src s
    word [(0, bit x.asrt), (1, bit x.wiref), (2, bit x.force), (3, x.inj), (11, i.cls.code), (14, (d.arrival s i).code),
          (17, match i.fence with
            | some f => f.code
            | none => 0), (20, i.merge), (32, x.count)]

/-- LKO.STAT (Table 15.15). -/
def Dev.lkoStat (d : Dev) : Nat :=
  let n := d.lko.recs.length
  word [(0, n), (13, bit d.lko.fatal), (14, bit (decide (n = 4096))), (16, d.lko.storms), (32, d.lko.next)]

/-- A selection register (Table 16.1). -/
def Sel.reg (s : Sel) : Nat :=
  word [(0, s.ev), (12, s.inst), (16, bit s.all), (17, s.cls), (23, bit s.clsen), (24, bit s.chain), (25, bit s.enable)]

/-- CTR[ccc].SEL (Table 16.1): none once the standard layout stands, whose selections the spec describes and does not print (R470). -/
def Dev.selReg (d : Dev) (k : Nat) : Option Nat := if d.std then none else some (tget ({} : Sel) d.sel k).reg

/-- CTR[ppp].ACC (Table 16.4). -/
def Dev.accReg (d : Dev) (k : Nat) : Nat :=
  let a := tget ({} : Acc) d.tele.acc k
  word [(0, a.last.toNat), (32, bit a.wrap)]

/-- CTR.CHBW[nn] (Table 16.5). -/
def Dev.chbwReg (d : Dev) (c : Nat) : Nat :=
  let m := tget ({} : Meter) d.tele.chm c
  word [(0, m.rdL), (64, m.wrL)]

/-- A receipt meter (Table 16.6); CLR reads 0. -/
def Rcpt.reg (r : Rcpt) : Nat :=
  word [(0, r.minq), (11, r.maxq), (22, bit r.shortq), (23, bit r.overq), (24, r.minw), (35, r.maxw), (46, bit r.shortw), (47, bit r.overw),
        (48, r.mini), (59, bit r.shorti), (60, bit r.overi)]

/-- QOS[cc].RCPT (Table 16.6). -/
def Dev.rcptReg (d : Dev) (c : Nat) : Nat := (tget ({} : Rcpt) d.tele.rcpt c).reg

/-- TEL.PTMSTAT (Table 16.8), OFFSET in two's complement. -/
def Dev.ptmReg (d : Dev) : Nat :=
  word [(0, bit d.tele.sync), (1, bit d.tele.stepped), (8, d.tele.src), (16, (BitVec.ofInt 32 d.tele.offset).toNat)]

/-- TEL.SENS[k] (Table 16.10), VALUE in two's complement. -/
def Dev.sensReg (d : Dev) (k : Nat) : Nat :=
  let s := tget (0, false) d.tele.sens k
  word [(0, (BitVec.ofInt 12 s.1).toNat), (12, bit s.2)]

/-- DEV of Table 17.8. -/
def PwrSt.code : PwrSt → Nat
  | .underway => 0
  | .enterMoored => 1
  | .moored => 2
  | .leaveMoored => 3
  | .enterLaidUp => 4
  | .leaveLaidUp => 5

/-- PWR.STATE (Table 17.8). -/
def Dev.pwrStateReg (d : Dev) : Nat :=
  word ((0, d.pwr.st.code) :: (List.range 16).map fun n => (3 + n, bit (d.ldMoored n)))

/-- PWR.REFSTAT (Table 17.9). -/
def Dev.refstatReg (d : Dev) : Nat :=
  word [(0, d.pwr.code), (8, d.pwr.inst), (16, d.pwr.reason), (24, bit d.pwr.abort), (25, d.pwr.req), (32, d.pwr.total)]

/-- PWR.REFCNT[r] (Table 17.10). -/
def Dev.refcntReg (d : Dev) (r : Nat) : Nat := tget 0 d.pwr.refcnt r

/-- PWR.WAKE (Table 17.11). -/
def Dev.wakeReg (d : Dev) : Nat := word [(0, d.pwr.wake.toNat), (8, d.pwr.wakeLd)]

/-- PWR.THROT (Table 17.12). -/
def Dev.throtReg (d : Dev) : Nat := word ((0, bit d.pwr.jact) :: (List.range 16).map fun c => (16 + 3 * c, d.step c))

/-- The Rhaboind landing page (Table 13.5). -/
def Dev.landingPage (d : Dev) (n : Nat) : List Byte :=
  le 4 (d.lnkstat n) ++ le 4 (d.crdpool n) ++ le 4 (d.aliasReg n) ++ le 4 (d.accviolReg n) ++ d.lblmap n ++ le 4 (d.boardReg n) ++ le 4 (d.qosi n)

/-- The Barge host-queue page (Table 13.4, R403): RING.SPACE reads 00b. -/
def Dev.hostQueuePage (d : Dev) (n : Nat) : List Byte :=
  let b := d.bg n
  le 8 b.cfgReg ++ le 8 ({ b with space := 0 } : BrgCh).ringReg ++ le 8 b.ptrReg ++ le 8 b.statReg

/-- The counter page (Table 13.8, R406, R469): all zeros while p0200 + nn is 0. -/
def Dev.counterPage (d : Dev) (n : Nat) : List Byte :=
  if d.p (0x200 + n) = 0 then []
  else
    let c := tget ({} : CPage) d.tele.pages n
    le 8 (word [(0, 1), (1, bit d.tele.sync), (8, 1), (16, n)]) ++ le 8 c.seq ++ le 8 c.time ++ le 8 c.window ++ le 8 d.tele.winlen
      ++ le 4 d.tele.epoch ++ le 4 c.base ++ le 8 c.rd ++ le 8 c.wr ++ le 8 c.rdT ++ le 8 c.wrT ++ zeros 48
      ++ (List.range 16).flatMap fun i => le 8 (pairValue d.ctr (c.base + i))

/-- The byte at an offset of BAR0/1 (Table 13.4): none in the blocks whose layout CXL and PCIe give, zero outside every block (R401). -/
def Dev.bar0 (d : Dev) (n off : Nat) : Option Byte :=
  if off < 0x11000 ∨ (0x20000 ≤ off ∧ off < 0x60000) ∨ (0xA0000 ≤ off ∧ off < 0xA2000) then none
  else if 0x80000 ≤ off ∧ off < 0x81000 then some ((d.landingPage n).getD (off - 0x80000) 0#8)
  else if 0x90000 ≤ off ∧ off < 0x91000 then some ((d.hostQueuePage n).getD (off - 0x90000) 0#8)
  else some 0#8

/-- The byte at an offset of BAR2/3: the counter page, zero beyond it (R401, Table 13.4). -/
def Dev.bar2 (d : Dev) (n off : Nat) : Byte := if off < 0x1000 then (d.counterPage n).getD off 0#8 else 0#8

end Sys2Proof.Machine
end

