-- ==== Sys2Proof/WellFormed.lean ====
section
/-! DEFINITION. Which commands are well formed: the operands of the outside world lie in the ranges that the world can give. What the device itself checks
is no condition here. -/
namespace Sys2Proof

/-- Bytes that fit a mailbox payload (12 T12.1). -/
def bytesOk (p : List Byte) : Bool := decide (p.length ≤ 65536)

/-- A slip class and one of the four phases of a handshake (R20, 15 T15.9). -/
def slipOk (cls phase : Nat) : Bool := decide (cls < 16) && decide (phase < 4)

/-- A trained speed and width have a code of Table 2.7. -/
def trainOk (t : Train) : Bool := decide (t.speed.toNat ≤ 4) && decide (1 ≤ t.width.toNat) && decide (t.width.toNat ≤ 5)

/-- A scratch access moves at least a byte and at most a page. -/
def accOk : ScrAcc → Bool
  | .read n _ => decide (1 ≤ n) && decide (n ≤ 4096)
  | .write bs => decide (1 ≤ bs.length) && decide (bs.length ≤ 4096)

/-- A tree node of some block (08 R249). -/
def nodeOk (blk lvl idx : Nat) : Bool := decide (blk < 131072) && decide (lvl < 8) && decide (idx < 65536)

/-- A bank number of the mapping (09 R277). -/
def bankNoOk (bank : Nat) : Bool := decide (bank < 65536)

/-- A row number of a bank (09 R277). -/
def rowOk (row : Nat) : Bool := decide (row < 2 ^ 24)

/-- Extents lie in 64-bit addresses and have a length. -/
def extsOk (xs : List (Nat × Nat)) : Bool := xs.all fun x => decide (0 < x.2) && decide (x.1 + x.2 ≤ 2 ^ 64)

/-- What an SPD can say (09 T9.1): up to two DIMMs, ranks and stack heights not zero. -/
def spdOk (x : SpdRead) : Bool := decide (x.dpc ≤ 2) && decide (1 ≤ x.ranks) && decide (1 ≤ x.stack)

/-- Self-test failures name a unit of their array (19 T19.4). -/
def failsOk (fs : List SramFail) : Bool := fs.all fun f => decide (f.unit < 64)

/-- The command is well formed. -/
def Instr.wf : Instr → Bool
  | .memReadRequest _ _ _ => true
  | .memWriteRequest _ _ _ => true
  | .memClnEvct _ _ _ _ => true
  | .dramReadDataReturn _ _ _ => true
  | .missTrackerEntryFree _ _ => true
  | .dirtyLineWriteback _ _ _ _ => true
  | .holdRelease _ _ => true
  | .tholdExpiry _ _ _ => true
  | .growthTokenRefill _ => true
  | .cleaningTick _ => true
  | .idleCleaning _ util _ => decide (util ≤ 100)
  | .classTrim _ _ _ => true
  | .pmcTallyFlush _ => true
  | .tallySweepComplete => true
  | .slipStop _ _ _ _ cls phase => slipOk cls phase
  | .flitReceived _ _ => true
  | .ingressDeparture _ _ => true
  | .creditReturnTimer _ => true
  | .flitAcknowledge _ _ => true
  | .flitReplay _ _ => true
  | .replayLimit _ => true
  | .linkTrained _ t => trainOk t
  | .lockLost _ => true
  | .lockRegained _ => true
  | .tdownExpiry _ => true
  | .perstAssert _ _ => true
  | .perstDeassert _ => true
  | .hotReset _ => true
  | .partnerDetect _ => true
  | .ideMacEpoch _ _ _ _ _ => true
  | .keyProg _ _ _ _ _ => true
  | .kSetGo _ _ _ _ => true
  | .hdmDecoderCommit _ _ _ _ _ _ => true
  | .birspReceived _ _ _ _ => true
  | .biconflict _ _ => true
  | .sharedCreditRequest _ _ => true
  | .boardingHeadServe _ _ => true
  | .tminholdExpiry _ _ => true
  | .handoff _ => true
  | .transferDataArrival _ => true
  | .tbirspExpiry _ _ => true
  | .lossReport _ => true
  | .filterMoveComplete _ => true
  | .offerExpiry _ => true
  | .releaseDrainComplete _ => true
  | .reclaimComplete _ => true
  | .scratchAccess _ off acc => decide (off < 2 ^ 27) && accOk acc
  | .wayConversionComplete => true
  | .rangeOperationSliceDone _ _ => true
  | .wharfSliceDrainComplete _ _ => true
  | .quadBufferGatherTimeout _ _ _ => true
  | .sealNodeClean _ blk lvl idx => nodeOk blk lvl idx
  | .keyImport _ ctx keys _ _ => decide (ctx < 16384) && decide (keys < 4)
  | .dimmTempPoll _ _ => true
  | .refreshDue _ bank _ => bankNoOk bank
  | .trefwClear _ => true
  | .rfmThreshold _ bank => bankNoOk bank
  | .entryStarve _ _ => true
  | .retrainingPause _ _ => true
  | .alertNError _ off _ => decide (off < 2 ^ 44)
  | .patrolScrub _ _ => true
  | .softRepair _ _ => true
  | .deliverableRecompute => true
  | .qosWindowBoundary _ => true
  | .bargeDoorbell _ _ => true
  | .bargeDescriptorFetch _ _ => true
  | .bargeDescriptorComplete _ _ => true
  | .copy _ _ _ => true
  | .zero _ _ _ => true
  | .fill _ _ _ => true
  | .pack _ _ _ => true
  | .unpack _ _ _ => true
  | .repack _ _ _ => true
  | .migrate _ _ _ => true
  | .pageRetirement _ _ _ => true
  | .rekey _ _ _ => true
  | .scrub _ _ _ => true
  | .dictUnpack _ _ _ => true
  | .dictPack _ _ _ => true
  | .bargeStop _ => true
  | .bargeRun _ => true
  | .bargeEnable _ _ _ => true
  | .bargeDisable _ => true
  | .busErrorRetry _ _ => true
  | .unsupportedCommand _ _ => true
  | .backgroundComplete _ _ _ => true
  | .identify _ => true
  | .backgroundOperationStatus _ => true
  | .requestAbortBackgroundOperation _ => true
  | .getResponseMessageLimit _ => true
  | .setResponseMessageLimit _ _ => true
  | .getEventRecords _ _ => true
  | .clearEventRecords _ _ _ handles => decide (handles.length ≤ 256)
  | .getEventInterruptPolicy _ => true
  | .setEventInterruptPolicy _ modes => decide (modes.length = 5)
  | .getFwInfo _ => true
  | .transferFw _ _ _ => true
  | .activateFw _ _ _ => true
  | .pldmFwUpdate _ => true
  | .getTimestamp _ => true
  | .setTimestamp _ _ => true
  | .getSupportedLogs _ => true
  | .getLog _ _ => true
  | .getSupportedFeatures _ => true
  | .getFeature _ _ => true
  | .setFeature _ _ v => bytesOk v
  | .performMaintenance _ _ _ _ bank row => bankNoOk bank && rowOk row
  | .identifyMemoryDevice _ => true
  | .getHealthInfo _ => true
  | .getAlertConfiguration _ => true
  | .setAlertConfiguration _ v => bytesOk v
  | .getPoisonList _ _ _ => true
  | .injectPoison _ _ => true
  | .clearPoison _ _ _ _ => true
  | .getScanMediaCapabilities _ _ _ => true
  | .scanMedia _ _ _ => true
  | .getScanMediaResults _ => true
  | .sanitize _ => true
  | .getDynamicCapacityConfiguration _ => true
  | .getDynamicCapacityExtentList _ => true
  | .addDynamicCapacityResponse _ exts => extsOk exts
  | .releaseDynamicCapacity _ exts => extsOk exts
  | .getDcdInfo _ => true
  | .getHostDcRegionConfiguration _ _ => true
  | .setDcRegionConfiguration _ _ _ _ _ => true
  | .getDcRegionExtentLists _ _ => true
  | .initiateDynamicCapacityAdd _ q => extsOk q.exts
  | .initiateDynamicCapacityRelease _ q _ => extsOk q.exts
  | .dynamicCapacityAddReference _ _ => true
  | .dynamicCapacityRemoveReference _ _ => true
  | .dynamicCapacityListTags _ => true
  | .getMultiHeadedInfo _ => true
  | .getHeadInfo _ _ => true
  | .stageExtentAttributes _ payload => bytesOk payload
  | .getExtentRecords _ payload => bytesOk payload
  | .withdrawOffer _ payload => bytesOk payload
  | .getPageMapEntries _ payload => bytesOk payload
  | .advanceTallyEpoch _ payload => bytesOk payload
  | .setPagePin _ payload => bytesOk payload
  | .wharfPin _ payload => bytesOk payload
  | .wharfMaintenance _ payload => bytesOk payload
  | .clearAdrift _ payload => bytesOk payload
  | .pageMapAudit _ payload => bytesOk payload
  | .setHostQueuePermission _ payload => bytesOk payload
  | .getCapacityStatus _ payload => bytesOk payload
  | .enableContext _ payload => bytesOk payload
  | .disableContext _ payload => bytesOk payload
  | .getContextRecords _ payload => bytesOk payload
  | .rekeyExtent _ payload => bytesOk payload
  | .resealSubtree _ payload => bytesOk payload
  | .setClassRecord _ payload => bytesOk payload
  | .getClassRecords _ payload => bytesOk payload
  | .setLabelTable _ payload => bytesOk payload
  | .getClassOccupancy _ payload => bytesOk payload
  | .getFaultRecords _ payload => bytesOk payload
  | .acknowledgeFault _ payload => bytesOk payload
  | .injectFault _ payload => bytesOk payload
  | .fenceUnit _ payload => bytesOk payload
  | .restoreUnit _ payload => bytesOk payload
  | .retrainChannel _ payload => bytesOk payload
  | .landingToMoored _ _ => true
  | .landingToUnderway _ _ => true
  | .deviceToMoored _ => true
  | .deviceToLaidUp _ => true
  | .deviceToUnderway _ => true
  | .mooredCommit => true
  | .laidUpCommit => true
  | .getPowerStatus _ payload => bytesOk payload
  | .warmDeviceReset _ payload => bytesOk payload
  | .warmResetPreparationDone => true
  | .warmResetEscalation => true
  | .getGangwayStatus _ payload => bytesOk payload
  | .manifest _ payload => bytesOk payload
  | .manifestSnapshotExpiry _ => true
  | .getParameter _ payload => bytesOk payload
  | .setParameter _ payload => bytesOk payload
  | .getPersistentLog _ payload => bytesOk payload
  | .mcall _ _ _ => true
  | .tmVersion _ => true
  | .tmResult _ _ => true
  | .tmRegionSet _ _ _ _ _ => true
  | .tmRegionGet _ _ _ => true
  | .tmHold _ _ _ => true
  | .tmCtxEnable _ _ _ _ => true
  | .tmCtxDisable _ _ => true
  | .tmImgVerify _ _ _ _ _ _ => true
  | .tmArbCommit _ _ _ => true
  | .tmMeasure _ _ _ _ => true
  | .tmSpdmXfer _ _ _ _ _ => true
  | .tmRandom _ _ _ => true
  | .tmDebugUnlock _ _ _ _ => true
  | .tmTlhStatus _ => true
  | .tollhouseResponse => true
  | .ticketTimeout _ => true
  | .heartbeatTimeout => true
  | .tollhouseRestartComplete _ => true
  | .stopClock _ => true
  | .startClock _ => true
  | .removePower _ => true
  | .restorePower _ => true
  | .pilotPackageActivation _ => true
  | .pltCmd _ _ payload => bytesOk payload
  | .pltEventWait _ _ => true
  | .pltBargeClaim _ _ => true
  | .pltBargeRelease _ _ => true
  | .pltBargePost _ _ descs => decide (descs.length ≤ 65536)
  | .pltBallastPost _ _ => true
  | .pltScratchBase _ => true
  | .pltCounterRead _ _ => true
  | .pltTime _ => true
  | .pltLog _ _ msg => bytesOk msg
  | .pilotSchedulerTick uses => decide (uses.length ≤ 8)
  | .pilotRestart _ => true
  | .debugRead _ => true
  | .faultReport _ _ _ _ => true
  | .wireBroken _ => true
  | .wireRestored _ => true
  | .sourceForce _ _ => true
  | .ferrymanRestart => true
  | .keepAliveTimeout => true
  | .mooringLinkUp => true
  | .counterWindowBoundary => true
  | .ptmDialog _ => true
  | .ptmSyncTimeout => true
  | .sensorSample vals => decide (vals.length = 24)
  | .throttleStepRise => true
  | .throttleStepFall => true
  | .thermtrip _ => true
  | .aspmL1Entry _ => true
  | .i3cAddressMatch => true
  | .wakePin _ _ _ => true
  | .linkActivityWake _ => true
  | .auxPowerApplied => true
  | .auxPowerLost => true
  | .presenceQualified _ => true
  | .boardPull => true
  | .vinOutOfRange _ => true
  | .vinRecovered _ => true
  | .rampComplete _ _ => true
  | .currentLimitReached _ => true
  | .currentBelowLimit _ _ => true
  | .breakerTrip _ => true
  | .fastTrip _ => true
  | .fetModelUpdate _ _ _ diode => decide (-2732 ≤ diode)
  | .fetShort _ => true
  | .retryStart => true
  | .retryReload => true
  | .pgAssert _ => true
  | .pgFall _ => true
  | .boardFuseProgram _ => true
  | .coreResetRelease _ _ => true
  | .coreRailTimeout => true
  | .coreRailLost => true
  | .tollhouseBoot _ _ => true
  | .landingsReleased _ => true
  | .channelBringUpComplete _ spd => spdOk spd
  | .sramSelfTestComplete fails => failsOk fails
  | .laneSelfTest bad => bad.all fun b => decide (b.1 < 16)
  | .memoryActive _ _ => true
  | .arbCommitTimer => true
  | .refclkAppear _ => true
  | .refclkLost _ => true
  | .jtagBallInstruction lands chans => lands.all (fun n => decide (n < 16)) && chans.all fun n => decide (n < 16)
  | .registerWrite _ _ => true
  | .spdmRequest _ _ msg => bytesOk msg
  | .debugUnlockExpiry => true
  | .partnerAppears _ => true
  | .hostRetrainRequest _ => true

end Sys2Proof
end

