-- ==== Sys2Proof/Safety.lean ====
section
/-! DEFINITION. The terms in which claims speak of a run: steps, the conditions a machine keeps between steps, a device with no internal work waiting. -/
namespace Sys2Proof.Machine

/-- `s` steps to `t`. -/
def Steps (s t : State) : Prop := step s = .next t

/-- `t` is reached from `s` by steps alone, in `n` of them. -/
def ReachesIn (s t : State) : Nat → Prop
  | 0 => t = s
  | n + 1 => ∃ u, ReachesIn s u n ∧ Steps u t

/-- No fuse of either die is cleared between two states (R421, R510). -/
def FusesGrow (s t : State) : Prop := s.otp.map ||| t.otp.map = t.otp.map ∧ s.otp.board ||| t.otp.board = t.otp.board

/-- What holds between steps: no fence is still to be applied, no fuse still to be blown. -/
def Between (s : State) : Prop := s.dev.fenceQ = [] ∧ s.dev.blow = 0#2048

/-- A slice has no request, snoop collection or credit request waiting. -/
def Slice.atRest (x : Slice) : Bool := x.waitq.isEmpty && x.filt.colls.isEmpty && x.filt.credReq.isEmpty

/-- The places of a sparse table rise strictly from `lo`. -/
def Tbl.risesFrom {α : Type} : Nat → Tbl α → Bool
  | _, [] => true
  | lo, (k, _) :: t => decide (lo ≤ k) && Tbl.risesFrom (k + 1) t

/-- A sparse table is in its one form. -/
def Tbl.rises {α : Type} (t : Tbl α) : Bool := Tbl.risesFrom 0 t

/-- The tables of units, parameters, paths, contexts and Pilot slots are in their one form. -/
def Dev.tidy (d : Dev) : Bool :=
  Tbl.rises d.lnd && Tbl.rises d.slc && Tbl.rises d.chn && Tbl.rises d.brg && Tbl.rises d.prm && Tbl.rises d.mg.paths && Tbl.rises d.ctx && Tbl.rises d.plt

/-- A record that Syust has logged and that waits for its acknowledgement (R459 to R461). -/
def FRec.held (r : FRec) : Bool := r.logged && !r.ack && decide (r.fin ≠ .corrected)

/-- The device has no internal work waiting: no fence or fuse to apply, no request, response, snoop collection or credit request held back, no power
entry in preparation, no berth to retire, no overcommit event due, no record for Syust to log; and its tables are in their one form. -/
def Dev.atRest (d : Dev) : Bool :=
  d.fenceQ.isEmpty && decide (d.blow = 0#2048) && (d.slc.all fun x => x.2.atRest) && (d.lnd.all fun x => x.2.pool.txq.isEmpty) && d.mg.entry.isNone
    && (d.fmnBusy || (d.chn.all fun x => x.2.retQ.isEmpty)) && (!d.active || (decide (d.nominal < d.usedBlocks) == d.ext.ovr))
    && (d.fmnBusy || d.lko.recs.all FRec.held) && d.tidy

/-- The DRAM bytes are in their one canonical form. -/
def Dev.memWf (d : Dev) : Bool := Memory.wf d.mem

/-- `s` with another device. -/
def State.to (s : State) (d : Dev) : State := { s with dev := d }

/-- No check is to be inverted: every INJCNT is 0 (R466). -/
def Dev.noInj (d : Dev) : Bool := d.lko.src.all fun x => decide (x.2.inj = 0)

/-- Landing `n` can send its host a response at once: Up, with room in its replay buffer, a credit of the host in hand, no response held. -/
def Dev.hears (d : Dev) (n : Nat) : Bool :=
  decide ((d.ld n).link.st = .up) && decide ((d.ld n).pool.replay.length < 256) && decide (0 < (d.ld n).pool.hostCred)

/-- A landing that sends one response: the flit in its replay buffer, one credit of the host used, the pending credit returns gone with it. -/
def Landing.sent (l : Landing) (r : Rsp) : Landing :=
  ({ l with pool := { l.pool with hostCred := l.pool.hostCred - 1 } } : Landing).sendFlit (some r) none

/-- A page stored whole in a berth of a usable channel, under an Open context, its entry in the page-map cache of its slice. -/
def Dev.plainP (d : Dev) (sl page : Nat) : Bool :=
  decide ((d.ent page).form = .p) && !(d.ent page).sld && ((d.ms sl).pmcFind page).isSome && d.chOk (d.ent page).chan

/-- All four lines of a quad are Dirty in a Wharf at the places `k`, unpoisoned, with no snapshot, at places in use. -/
def Wharf.dirtyQuad (w : Wharf) (quad : Nat) (k : Nat → Nat) : Bool :=
  (List.range 4).all fun j => decide (w.find (quad * 4 + j) = some (k j)) && decide ((w.get (k j)).st = .dirty) && (w.get (k j)).snap.isNone
    && !(w.get (k j)).pois && !decide (k j ∈ w.disabled)

/-- Data of the quad at four places of a Wharf. -/
def Wharf.quadData (w : Wharf) (k : Nat → Nat) : Quad := Quad.ofLines (w.get (k 0)).data (w.get (k 1)).data (w.get (k 2)).data (w.get (k 3)).data

/-- Nothing of landing `n` is outstanding: no request waits at a slice or a landing, no line moves, no filter entry exists, its receive pool is empty. -/
def Dev.still (d : Dev) (n : Nat) : Bool :=
  (d.slc.all fun x => x.2.waitq.isEmpty && x.2.misses.isEmpty && decide (x.2.filt = {})) &&
    (d.lnd.all fun x => x.2.wait.isEmpty && x.2.coh.board.isEmpty) && (d.ld n).coh.xfers.isEmpty && (d.ld n).pool.msgs.isEmpty

/-- Path `pn` brings commands and the Ferryman takes them (R353, R357, R358 check 1): its landing or module is there, its VDM messages are enabled, and a
private write over I3C wakes nothing. -/
def Dev.takes (d : Dev) (pn : Nat) : Bool :=
  d.pathLive pn && d.fmnUp && !(decide (33 ≤ pn) && decide (pn ≤ 48) && decide (bits (d.p 0x1E1) (pn - 33) 1 = 0))
    && (decide (pn ≠ 32) || decide (d.pwr.st ≠ .moored))

/-- The device is Active and no warm reset is in preparation (R358 check 5). -/
def Dev.works (d : Dev) : Bool := d.active && d.mg.warm.isNone

/-- A command with a side effect has been carried out (Table 12.14 STATESEQ). -/
def Dev.acted (d : Dev) : Dev := { d with mg := { d.mg with stateseq := (d.mg.stateseq + 1) % 2 ^ 32 } }

end Sys2Proof.Machine
end

