-- ==== Sys2Proof/Certificates/Slice0/Obligations.lean ====
section
/-! DEFINITION. The statements for the provers: one per family of commands and kind of state, what each command does and what it leaves, and what every step and run keeps. -/
open Sys2Proof Sys2Proof.Machine

/-- R24, Table 1.4: the home slice of a page is picked by the fold of DPA[44:12] to four bits, on both ordering codes and in both homing modes. -/
def Obligations.HomeSliceFollowsTheFold : Prop :=
  ∀ (d : Dev) (dpa ld : Nat), dpa < 2 ^ 45 → ld < 16 →
    let n := fun b => dpa / 2 ^ b % 16
    let s := n 12 ^^^ n 16 ^^^ n 20 ^^^ n 24 ^^^ n 28 ^^^ n 32 ^^^ n 36 ^^^ n 40 ^^^ (dpa / 2 ^ 44 % 2)
    (d.codeH = false → d.spread (dpa / 4096) = s ∧ d.nearHome ld (dpa / 4096) = 4 * (ld / 4) + (s % 4 ^^^ s / 4)) ∧
    (d.codeH = true → d.spread (dpa / 4096) = [0, 1, 4, 5, 8, 9, 12, 13].getD (s % 8 ^^^ s / 8) 0 ∧
      d.nearHome ld (dpa / 4096) = 4 * (ld / 4) + (s % 2 ^^^ s / 2 % 2 ^^^ s / 4 % 2 ^^^ s / 8))

/-- R113: both copies of a page's entry lie where the rule computes; within one block every storage slot has its pages at indices of their own, and every index is used, so that a slot has
exactly 4,096 pages on the CQ8160-F and 8,192 on the CQ8160-H. -/
def Obligations.EveryPageHasItsOwnEntry : Prop :=
  ∀ (d : Dev) (b g : Nat), (tget {} d.pm.blocks b).seg = some g →
    let chunk := if d.codeH then 0x20000 else 0x10000
    let idx := fun page : Nat => if d.codeH then page * 4096 / 2 ^ 15 % 2 ^ 13 else page * 4096 / 2 ^ 16 % 2 ^ 12
    (∀ page, page / 2 ^ 16 = b →
      let c := d.spread page
      d.entOffsets page = (d.pmbase c + g * chunk + idx page * 16, d.pmbase (c ^^^ 8) + d.pm.segs * chunk + g * chunk + idx page * 16)) ∧
    (∀ p q, p / 2 ^ 16 = b → q / 2 ^ 16 = b → d.spread p = d.spread q → idx p = idx q → p = q) ∧
    (∀ c i, c ∈ (if d.codeH then [0, 1, 4, 5, 8, 9, 12, 13] else List.range 16) → i < (if d.codeH then 8192 else 4096) → ∃ p, p / 2 ^ 16 = b ∧ d.spread p = c ∧ idx p = i)

/-- R99: with every enabled channel fenced, in use or empty, the nominal limit is p0140 sixteenths of what is installed on the channels neither fused off nor fenced, in whole blocks, and never more than
the region; a block that several records hold counts once against it. -/
def Obligations.NominalLimitFollowsTheDram : Prop :=
  ∀ d : Dev,
    ((∀ c, c < 16 → d.on c = true → (d.ch c).st = .fenced ∨ (d.ch c).usable = true ∨ (d.ch c).pop.dpc = 0) →
      d.nominal = min (d.p 0x140 * (((List.range 16).filter fun c => d.on c && decide ((d.ch c).st ≠ .fenced)).map fun c =>
        (d.ch c).pop.gib * (d.ch c).pop.dpc * 2 ^ 30).sum / (16 * 2 ^ 28)) (if d.codeH then 2 ^ 16 else 2 ^ 17)) ∧
    ((∀ r ∈ d.recList, r.2.base + r.2.nblk1 < d.regionBlocks) →
      d.usedBlocks = ((List.range d.regionBlocks).filter fun b => d.recList.any fun r => decide (r.2.base ≤ b) && decide (b ≤ r.2.base + r.2.nblk1)).length)

/-- R26 to R29, R44, R184, R195: a read of a private line that is in the Wharf of its home slice is answered with the line's bytes, its AGE becomes 0, its
latency counts, and the landing begins to watch the stream. -/
def Obligations.ReadHitAnswersFromWharf : Prop :=
  ∀ (s : State) (n : Ld) (q : ReadReq) (sl k : Nat) (w : Work), s.dev.atRest = true → s.dev.on n = true → s.dev.noInj = true → s.dev.hears n = true →
    (s.dev.ld n).link.memen = true → q.minv = false → s.dev.checkReq n q.toReq = .ok sl w → w.shared = false → (s.dev.ms sl).wharf.find w.line = some k →
    (s.dev.ld n).strides = [] → (s.dev.ld n).wait = [] →
    let x := (s.dev.ms sl).wharf.get k
    let c := some w.cls
    let lat := ((s.dev.ld n).rxtx + 40 + 20 * s.dev.hop n sl) / 10 + 8
    let d := s.dev.bump 0x101 sl 1 (some n) c
    let d := if x.pf then d.bump 0x007 n 1 none c else d
    let d := d.modW sl fun v => v.put k { x with age := 0, pf := false }
    let d := d.modLd n fun l => l.sent (.data q.tag x.data x.pois .noOp lat)
    let d := ((d.bump 0x001 n 1 none c).bump 0x003 n 64 none c).bump 0x005 n lat none c
    let d := if x.pois then d.bump 0x00A n 1 none c else d
    ∃ label dpa, (s.dev.ld n).acc.decode q.hpa.toNat = some (label, dpa) ∧
      exec (.memReadRequest n q {}) s = .next (s.to (d.modLd n fun l => (l.watch w.line label (s.dev.p 0x174)).1))

/-- R32, R33, R180, R213: a full-line write of a private line that is dirty in the Wharf is completed to its host and replaces the line's bytes; a MemClnEvct
of a private line is completed and changes nothing else. -/
def Obligations.WriteHitReplacesTheLine : Prop :=
  ∀ (s : State) (n : Ld) (sl k : Nat) (w : Work), s.dev.atRest = true → s.dev.on n = true → s.dev.noInj = true → s.dev.hears n = true →
    (s.dev.ld n).link.memen = true → (s.dev.ld n).wait = [] → w.shared = false →
    (∀ q : WriteReq, q.ptl = false → s.dev.checkReq n q.toReq = .ok sl w → (s.dev.ld n).ideMem.mode ≠ .skid → (s.dev.ms sl).wharf.find w.line = some k →
      ((s.dev.ms sl).wharf.get k).st = .dirty → (s.dev.ms sl).misses = [] →
      let c := some w.cls
      let d := s.dev.modLd n fun l => l.sent (.cmp q.tag .noOp)
      let d := ((d.bump 0x002 n 1 none c).bump 0x004 n 64 none c).bump 0x101 sl 1 (some n) c
      exec (.memWriteRequest n q {}) s = .next (s.to (d.modW sl fun v =>
        v.put k { (s.dev.ms sl).wharf.get k with data := q.data, pois := q.poison, whole := true, cls := w.cls, age := 0, pf := false }))) ∧
    (∀ (hpa : BitVec 64) (tag : BitVec 16), s.dev.checkReq n { kind := .clnEvct, hpa, tag } = .ok sl w →
      exec (.memClnEvct n hpa tag {}) s = .next (s.to (s.dev.modLd n fun l => l.sent (.cmp tag .noOp))))

/-- R97: a read or write that fails a check, whatever the cause, does not leave its landing: the read is answered with poisoned zeros, the write is completed and its data discarded, no
slice and no byte of memory changes, and COUNT counts it (Table 3.6); a back-invalidate response that matches no outstanding snoop is discarded. -/
def Obligations.FailedCheckNeverReachesMemory : Prop :=
  ∀ (s : State) (n : Ld) (cause label : Nat), s.dev.atRest = true → s.dev.on n = true → s.dev.hears n = true → (s.dev.ld n).link.memen = true →
    (∀ q : ReadReq, q.minv = false → s.dev.checkReq n q.toReq = .fail cause label →
      ∃ t, exec (.memReadRequest n q {}) s = .next t ∧ t.dev.mem = s.dev.mem ∧ t.dev.slc = s.dev.slc ∧ t.dev.pm = s.dev.pm ∧
        (t.dev.ld n).acc.count = (if (s.dev.ld n).acc.count = 0xFFFFFF#24 then (s.dev.ld n).acc.count else (s.dev.ld n).acc.count + 1#24) ∧
        ((t.dev.ld n).pool.replay.getLast?.map (·.body)) = some (some (.data q.tag 0#512 true .noOp (((s.dev.ld n).rxtx + 40) / 10)))) ∧
    (∀ q : WriteReq, s.dev.checkReq n q.toReq = .fail cause label →
      ∃ t, exec (.memWriteRequest n q {}) s = .next t ∧ t.dev.mem = s.dev.mem ∧ t.dev.slc = s.dev.slc ∧ t.dev.pm = s.dev.pm ∧
        ((t.dev.ld n).pool.replay.getLast?.map (·.body)) = some (some (.cmp q.tag .noOp))) ∧
    (∀ (line : BitVec 39) (rsp : BiRsp), (∀ x ∈ (s.dev.ld n).coh.snoops, x.line ≠ line.toNat) → exec (.birspReceived n line false rsp) s = .next s)

/-- R34, R181, R182: the writeback of one quad whose four lines are dirty, on a page stored whole in a berth of a channel in use, under an Open context, stores
its ciphertext at the quad's place and no other byte; the lines are Clean; the idle scanner does the same for the first dirty line it meets. -/
def Obligations.WritebackStoresOneQuad : Prop :=
  ∀ (s : State) (sl : Sl) (page quad : Nat) (k : Nat → Nat), s.dev.atRest = true → s.dev.on sl = true → s.dev.noInj = true → s.dev.plainP sl page = true →
    quad / 16 = page → (s.dev.ms sl).wharf.dirtyQuad quad k = true → (s.dev.ms sl).held = [] →
    let e := s.dev.ent page
    let w := (s.dev.ms sl).wharf
    let Done := fun t : State => t.pending = s.pending ∧ t.otp = s.otp ∧ t.dev.lnd = s.dev.lnd ∧ t.dev.lko = s.dev.lko ∧ (∀ m, m ≠ sl.val → t.dev.ms m = s.dev.ms m) ∧
      t.dev.mem = memPut s.dev.mem (chBase e.chan + (e.frame * 4096 + quad % 16 * 256)) (s.dev.encOpen sl e.ctx quad (bytesOf 256 (w.quadData k))) ∧
      (∀ x, (t.dev.ms sl).wharf.get x = if x ∈ [k 0, k 1, k 2, k 3] then { w.get x with st := .clean } else w.get x)
    (∀ (pg : BitVec 33) (mask : BitVec 16), pg.toNat = page → maskQuads page mask = [quad] →
      ∃ t, exec (.dirtyLineWriteback sl pg mask {}) s = .next t ∧ Done t) ∧
    (∀ (util : Nat) (x : Nat × WLine), util < s.dev.p 0x175 →
      argMin (fun y : Nat × WLine => (y.1 / 16 + 16384 - w.scan) % 16384) (w.lines.filter fun y => y.2.st = .dirty) = some x →
      (((w.lines.filter fun y => y.2.st = .dirty).filter fun y => y.1 / 16 = x.1 / 16).map (·.2.addr)) = [quad * 4] →
      ∃ t, exec (.idleCleaning sl util {}) s = .next t ∧ Done t)

/-- R134, R204: when room appears, and when the hold of a page reaches tHOLD with room at hand, a held quad is stored at its place, its hold ends and its lines are
released; so is a quad buffer of a bypassed slice whose four lines have gathered. -/
def Obligations.HeldQuadsAndQuadBuffersAreStored : Prop :=
  (∀ (s : State) (sl : Sl) (h : Held) (x : Nat × Quad × Bool × Bool), s.dev.atRest = true → s.dev.on sl = true → s.dev.noInj = true →
    s.dev.plainP sl h.page = true → (s.dev.ms sl).held = [h] → h.quads = [x] →
    let e := s.dev.ent h.page
    let Done := fun t : State => t.pending = s.pending ∧ (t.dev.ms sl).held = [] ∧ (∀ m, m ≠ sl.val → t.dev.ms m = s.dev.ms m) ∧
      t.dev.mem = memPut s.dev.mem (chBase e.chan + (e.frame * 4096 + x.1 % 16 * 256)) (s.dev.encOpen sl e.ctx x.1 (bytesOf 256 x.2.1))
    (∃ t, exec (.holdRelease sl {}) s = .next t ∧ Done t) ∧
    (∀ pg : BitVec 33, pg.toNat = h.page → ∃ t, exec (.tholdExpiry sl pg {}) s = .next t ∧ Done t)) ∧
  (∀ (s : State) (sl : Sl) (quad : BitVec 37) (a b c e : Line) (cls : Nat), s.dev.atRest = true → s.dev.on sl = true → s.dev.noInj = true →
    (s.dev.ms sl).wharf.qbuf = [{ quad := quad.toNat, lines := [(0, a, false), (1, b, false), (2, c, false), (3, e, false)], cls }] → (s.dev.ms sl).held = [] →
    s.dev.plainP sl (quad.toNat / 16) = true →
    let x := s.dev.ent (quad.toNat / 16)
    ∃ t, exec (.quadBufferGatherTimeout sl quad {}) s = .next t ∧ (t.dev.ms sl).wharf.qbuf = [] ∧ (∀ m, m ≠ sl.val → t.dev.ms m = s.dev.ms m) ∧
      t.dev.mem = memPut s.dev.mem (chBase x.chan + (x.frame * 4096 + quad.toNat % 16 * 256))
        (s.dev.encOpen sl x.ctx quad.toNat (bytesOf 256 (Quad.ofLines a b c e))))

/-- R26, R36, R213: the data of a DRAM read, decrypted, answers the request that waits for it, and the tracker entry is free; a freed tracker entry is offered to
the next landing in turn, whose request is served: here one whose line has come into the Wharf. -/
def Obligations.DramReturnAnswersTheWaiter : Prop :=
  ∀ (s : State) (sl : Sl), s.dev.atRest = true → s.dev.on sl = true → s.dev.noInj = true →
    (∀ (quad : BitVec 37) (m : Miss) (w : Work) (n : Nat), (s.dev.ms sl).misses = [m] → (∀ j, j ≠ sl.val → (s.dev.ms j).misses = []) → m.quad = quad.toNat →
      m.doomed = true → m.pf = false → m.ws = [w] → w.ld = some n → w.req.kind = .rd .none → w.pf = false → w.dead = false → w.line / 4 = quad.toNat →
      s.dev.hears n = true → s.dev.plainP sl (quad.toNat / 16) = true → s.dev.unqueued sl m = false → (s.dev.ent (quad.toNat / 16)).qpois = 0#16 →
      (s.dev.ms sl).sl.reload = [] →
      let e := s.dev.ent (quad.toNat / 16)
      ∃ t lat, exec (.dramReadDataReturn sl quad {}) s = .next t ∧ (t.dev.ms sl).misses = [] ∧ t.dev.mem = s.dev.mem ∧ t.dev.pm = s.dev.pm ∧
        (t.dev.ld n).pool.replay = (s.dev.ld n).pool.replay ++ [{ seq := (s.dev.ld n).pool.txSeq, credits := (s.dev.ld n).pool.pend
                                                                  body := some (.data w.req.tag (Quad.line (ofBytes 2048 (s.dev.decOpen sl e.ctx quad.toNat
                                                                    (memRead s.dev.mem (chBase e.chan + (e.frame * 4096 + quad.toNat % 16 * 256)) 256)))
                                                                    (w.line % 4)) false (w.grant.getD .noOp) lat) }]) ∧
    (∀ (n i k : Nat) (w : Work), (s.dev.ms sl).misses.length < 512 → s.dev.nextOffered sl (s.dev.ms sl).offer = some n → s.dev.firstWaiting n sl = some (i, w) →
      w.ld = some n → w.req.kind = .minv → w.pf = false → w.dead = false → w.shared = false → s.dev.hears n = true → (s.dev.ms sl).wharf.find w.line = some k →
      ((s.dev.ms sl).wharf.get k).pf = false → ((s.dev.ms sl).wharf.get k).pois = false →
      ∃ t, exec (.missTrackerEntryFree sl {}) s = .next t ∧ (t.dev.ld n).wait = (s.dev.ld n).wait.eraseIdx i ∧ (t.dev.ms sl).offer = (n + 1) % 16 ∧
        t.dev.mem = s.dev.mem ∧ ((t.dev.ld n).pool.replay.getLast?.map (·.body)) = some (some (.cmp w.req.tag (w.grant.getD .noOp))))

/-- R121, R129, R132, R178, R180: a cleaning tick moves the tick on; the growth bucket of a channel in Ebb or Ballast is filled to p0165; a class over its
Wharf maximum loses its oldest Clean lines; the flush writes a dirty slot's tally back to its entry; the sweep's end clears SWEEP and the tallies of the epoch
to come. -/
def Obligations.SliceUpkeepRuns : Prop :=
  ∀ (s : State) (sl : Sl), s.dev.atRest = true → s.dev.on sl = true →
    exec (.cleaningTick sl) s = .next (s.to (s.dev.modW sl fun w => { w with tick := (w.tick + 1) % 8, tickLen := s.dev.p 0x170 / 8 })) ∧
    ((s.dev.ch sl).tide = .ebb ∨ (s.dev.ch sl).tide = .ballast →
      exec (.growthTokenRefill sl) s = .next (s.to (s.dev.modCh sl fun x => { x with tokens := s.dev.p 0x165 }))) ∧
    (∀ c : Cls,
      let w := (s.dev.ms sl).wharf
      let ovr := w.occ c - s.dev.wX w c
      let clean := w.lines.filter fun x => decide (x.2.cls = c.val) && !x.2.pin && decide (x.1 % 16 ∈ w.cacheWays) && decide (x.2.st = .clean)
      let oldest := (List.range 8).reverse.flatMap fun a => clean.filter fun x => x.2.age = a
      0 < ovr → ovr ≤ oldest.length →
      exec (.classTrim sl c {}) s = .next (s.to ((oldest.take ovr).foldl (fun d x => d.modW sl fun v => v.put x.1 {}) s.dev))) ∧
    (∀ (k : Nat) (x : PmSlot), (s.dev.ms sl).pmc = [(k, x)] → x.valid = true → x.dirty = true →
      exec (.pmcTallyFlush sl) s = .next (s.to ((s.dev.setEnt x.page { s.dev.ent x.page with tally := x.tally, tepoch := x.tepoch }).modMs sl fun y =>
        { y with pmc := [(k, { x with dirty := false, since := 0 })] }))) ∧
    (s.dev.pm.sweep = true → (∀ x ∈ s.dev.pm.ents, (s.dev.ent x.1).tepoch ≠ s.dev.pm.epoch + 1#4) →
      (∀ x ∈ s.dev.pm.ents, (s.dev.ent x.1).form = .z ∨ s.dev.chOk (s.dev.ent x.1).chan = true) →
      ∃ t, exec .tallySweepComplete s = .next t ∧ t.dev.pm = { s.dev.pm with sweep := false } ∧ t.dev.mem = s.dev.mem ∧
        (∀ m ∈ s.dev.units, (t.dev.ms m).pmc = (s.dev.ms m).pmc.map fun y =>
          (y.1, if y.2.valid && decide (y.2.tepoch = s.dev.pm.epoch + 1#4) then { y.2 with tally := 0#8 } else y.2)))

/-- R42, R64, R65, R67, R69: a landing that is Up and loses lock, or is told to retrain, recovers with its state kept; lock regained brings it back Up; a partner
that appears after a down declaration, and the release of PERST_N, start training; PERST_N asserted for less than 1 µs is ignored. Nothing else changes. -/
def Obligations.RecoveryKeepsState : Prop :=
  ∀ (s : State) (n : Ld), s.dev.atRest = true → s.dev.on n = true →
    let link := fun f : Link → Link => s.to (s.dev.modLd n fun l => { l with link := f l.link })
    let k := (s.dev.ld n).link
    (k.st = .up → exec (.lockLost n) s = .next (link fun k => { k with st := .recovering, lost := some (s.dev.p 0x100) })) ∧
    (k.lost.isSome → exec (.lockRegained n) s = .next (link fun k => { k with st := .up, lost := none })) ∧
    (k.st = .up → exec (.hostRetrainRequest n) s = .next (link fun k => { k with st := .recovering, lost := none })) ∧
    (k.st = .down → exec (.partnerAppears n) s = .next (link fun k => { k with st := .training })) ∧
    (k.st = .reset → k.released = true → exec (.perstDeassert n) s = .next (link fun k => { k with perst := false, st := .training })) ∧
    (∀ ns : Nat, ns < 1000 → exec (.perstAssert n ns) s = .next s)

/-- R42 to R46, R52, R55, R81: training that ends brings the landing Up at the lower of what both sides and its unfenced lanes allow, and CXL.mem is enabled
exactly when the device is memory-active, the decoder committed and the speed 8 GT/s or above. -/
def Obligations.TrainingEndsUp : Prop :=
  ∀ (s : State) (n : Ld) (t : Train), s.dev.atRest = true → s.dev.on n = true →
    let k := (s.dev.ld n).link
    (k.st = .training ∨ k.st = .recovering) →
    let speed := min t.speed.toNat (min (speedCode k.maxSpeed) (if k.flitFor t = 0#2 then 3 else 4))
    ∃ u, exec (.linkTrained n t) s = .next u ∧ (u.dev.ld n).link.st = .up ∧ (u.dev.ld n).link.lost = none ∧
      (u.dev.ld n).link.speed.toNat = speed ∧ (u.dev.ld n).link.width.toNat = min t.width.toNat (k.widest t.reversed) ∧
      (u.dev.ld n).link.memen = (s.dev.active && decide (1 ≤ speed) && (s.dev.ld n).acc.dec.committed) ∧
      (k.st = .recovering → (u.dev.ld n).pool = (s.dev.ld n).pool) ∧
      (speed = 0 → u.dev.pool = s.dev.pool.add { kind := .speedLimited, args := [n.val], sev := 1, time := s.dev.time }) ∧
      u.dev.mem = s.dev.mem ∧ u.dev.slc = s.dev.slc ∧ u.dev.pm = s.dev.pm

/-- R62: a flit out of sequence or damaged changes nothing, so the returns in a duplicate are discarded; a good one in sequence advances the receive sequence, adds the
credits it returns, and its read enters the receive pool against one credit of its class; a message sent consumes one host credit and takes the pending returns with it into its
flit; a replay consumes no credit and leaves every flit as it was sent. -/
def Obligations.CreditsFollowTheirFlits : Prop :=
  ∀ (s : State) (n : Ld) (f : Flit), s.dev.atRest = true → s.dev.on n = true →
    (f.good = false ∨ f.seq ≠ (s.dev.ld n).pool.rxSeq → exec (.flitReceived n f) s = .next s) ∧
    (∀ q : ReadReq, (s.dev.ld n).link.st = .up → f.good = true → f.seq = (s.dev.ld n).pool.rxSeq → f.msgs = [.rd q] →
      (s.dev.ld n).pool.msgs = [] → 1 ≤ (s.dev.ld n).pool.held.getD 0 0 →
      ∃ t, exec (.flitReceived n f) s = .next t ∧ (t.dev.ld n).pool.rxSeq = (s.dev.ld n).pool.rxSeq + 1 ∧
        (t.dev.ld n).pool.hostCred = (s.dev.ld n).pool.hostCred + f.credits ∧ (t.dev.ld n).pool.msgs.map (·.msg) = [.rd q] ∧
        (t.dev.ld n).pool.held.getD 0 0 = (s.dev.ld n).pool.held.getD 0 0 - 1 ∧ t.dev.mem = s.dev.mem ∧ t.dev.slc = s.dev.slc) ∧
    (∀ line : BitVec 39, s.dev.hears n = true → ∃ t, exec (.biconflict n line) s = .next t ∧ (t.dev.ld n).pool.hostCred = (s.dev.ld n).pool.hostCred - 1 ∧
      (t.dev.ld n).pool.replay = (s.dev.ld n).pool.replay ++
        [{ seq := (s.dev.ld n).pool.txSeq, credits := (s.dev.ld n).pool.pend, body := some (.biConflictAck line.toNat) }] ∧ (t.dev.ld n).pool.pend = {}) ∧
    (∀ seq : Nat, s.dev.fmnBusy = true → (∀ f ∈ (s.dev.ld n).pool.replay, seq ≤ f.seq) → (s.dev.ld n).pool.replay ≠ [] → s.dev.linkLive n = true →
      ∃ t, exec (.flitReplay n seq) s = .next t ∧ (t.dev.ld n).pool = { (s.dev.ld n).pool with replays := (s.dev.ld n).pool.replays + 1 })

/-- R53, R57, R60 to R63: acknowledged flits leave the replay buffer; flits not acknowledged are sent again and the replay is counted and reported; after four
replays the landing retrains; when tCRET passes, the credits that wait go out in a flit that carries nothing else. -/
def Obligations.ReplayAndCreditsRun : Prop :=
  ∀ (s : State) (n : Ld), s.dev.atRest = true → s.dev.on n = true → s.dev.fmnBusy = true →
    let p := (s.dev.ld n).pool
    (∀ seq : Nat, (s.dev.ld n).coh.xfers = [] → (∃ f ∈ p.replay, f.seq ≤ seq) →
      exec (.flitAcknowledge n seq) s = .next (s.to (s.dev.modLd n fun l =>
        { l with pool := { l.pool with replay := l.pool.replay.filter fun f => decide (seq < f.seq), replays := 0 } }))) ∧
    (∀ seq : Nat, (∀ f ∈ p.replay, seq ≤ f.seq) → p.replay ≠ [] → s.dev.linkLive n = true →
      exec (.flitReplay n seq) s = .next (s.to (((s.dev.modLd n fun l => { l with pool := { l.pool with replays := l.pool.replays + 1 } }).bump 0x00D n
        p.replay.length).report { src := ldSrc n 0x00, det0 := p.replay.length }))) ∧
    (4 ≤ p.replays → (s.dev.ld n).link.st = .up → exec (.replayLimit n) s = .next (s.to ((s.dev.modLd n fun l =>
        { l with link := { l.link with st := .recovering, lost := none }, pool := { l.pool with replays := 0 } }).report { src := ldSrc n 0x00 }))) ∧
    ((s.dev.ld n).link.st = .up → p.pend.req + p.pend.rwd + p.pend.birsp ≠ 0 → p.replay.length < 256 → s.dev.mg.warm = none →
      ∃ t x, exec (.creditReturnTimer n) s = .next t ∧ (t.dev.ld n).pool.replay = p.replay ++ [x] ∧ x.body = none ∧ x.seq = p.txSeq ∧
        (t.dev.ld n).pool.pend = {} ∧ (t.dev.ld n).pool.txSeq = p.txSeq + 1 ∧ t.dev.mem = s.dev.mem)

/-- R53, R57, R59, R312: the message next in the departure order leaves the receive pool and executes: here an eviction notice of a private line among requests alone,
which is completed to its host and reaches no slice and no memory. -/
def Obligations.DepartureExecutesTheMessage : Prop :=
  ∀ (s : State) (n : Ld) (hpa : BitVec 64) (tag : BitVec 16) (m : PoolMsg) (sl : Nat) (w : Work), s.dev.atRest = true → s.dev.on n = true →
    s.dev.hears n = true → (s.dev.ld n).link.memen = true → (s.dev.ld n).wait = [] → (∀ x ∈ (s.dev.ld n).pool.msgs, msgClass x.msg < 2) →
    s.dev.nextDeparture n = some m → m.msg = .clnEvct hpa tag → s.dev.checkReq n { kind := .clnEvct, hpa, tag } = .ok sl w → w.shared = false →
    ∃ t, exec (.ingressDeparture n {}) s = .next t ∧ (t.dev.ld n).pool.msgs = (s.dev.ld n).pool.msgs.filter (fun x => x.ord ≠ m.ord) ∧
      (t.dev.ld n).pool.replay.length = (s.dev.ld n).pool.replay.length + 1 ∧
      ((t.dev.ld n).pool.replay.getLast?.map (·.body)) = some (some (.cmp tag .noOp)) ∧
      (t.dev.ld n).pool.hostCred = (s.dev.ld n).pool.hostCred - 1 ∧ t.dev.departed n m.cls = s.dev.departed n m.cls + 1 ∧
      t.dev.mem = s.dev.mem ∧ t.dev.slc = s.dev.slc ∧ t.dev.pm = s.dev.pm

/-- R64, R66, R68 to R70, R74, R82: each cause of a down declaration takes a live landing with nothing outstanding down: counted, its decoder, encryption,
pool and label map reset, its host's Barge channel disabled, the Pool owner told of the cause; every other landing, every slice and the memory stay. -/
def Obligations.DownDeclarationResetsTheLanding : Prop :=
  ∀ (s : State) (n : Ld), s.dev.atRest = true → s.dev.on n = true → s.dev.still n = true → (s.dev.ld n).link.st.live = true →
    (s.dev.ld n).link.merged = false → s.dev.mg.pend = [] → s.dev.fmnBusy = true →
    let Down := fun (st : LinkSt) (t : State) =>
      (t.dev.ld n).link.st = st ∧ (t.dev.ld n).link.memen = false ∧ (t.dev.ld n).link.speed = 0#3 ∧
      (t.dev.ld n).link.downcnt = (if (s.dev.ld n).link.downcnt = 0xFF#8 then 0xFF#8 else (s.dev.ld n).link.downcnt + 1#8) ∧
      (t.dev.ld n).acc.dec = {} ∧ (t.dev.ld n).acc.lbits = 0#3 ∧ (t.dev.ld n).acc.lpos = 0x2D#6 ∧ (t.dev.ld n).ideMem = {} ∧ (t.dev.ld n).ideIo = {} ∧
      (t.dev.ld n).pool.msgs = [] ∧ (t.dev.ld n).pool.replay = [] ∧ t.dev.bg n = (s.dev.bg n).disable ∧
      (∀ m, m ≠ n.val → t.dev.ld m = s.dev.ld m) ∧ (∀ m, t.dev.ms m = s.dev.ms m) ∧ t.dev.mem = s.dev.mem ∧ t.dev.pm = s.dev.pm
    let Told := fun (cause : Nat) (t : State) =>
      t.dev.pool = s.dev.pool.add { kind := .landingDown, args := [n.val, cause], sev := 1, time := s.dev.time }
    ((s.dev.ld n).link.lost.isSome → ∃ t, exec (.tdownExpiry n) s = .next t ∧ Down .down t ∧ Told 1 t) ∧
    (∀ ns : Nat, 1000 ≤ ns → (s.dev.ld n).link.released = true → ∃ t, exec (.perstAssert n ns) s = .next t ∧ Down .reset t ∧ Told 2 t ∧ (t.dev.ld n).link.perst = true) ∧
    (∃ t, exec (.hotReset n) s = .next t ∧ Down .down t ∧ Told 3 t) ∧
    (∃ t, exec (.partnerDetect n) s = .next t ∧ Down .down t ∧ Told 4 t)

/-- R72 to R75: a MAC that verifies in skid mode ends the epoch, and a sent one settles the direction on the slot of K_SET_GO; KEY_PROG loads a key
into a slot that is not in use and K_SET_GO names a slot that holds one, within a secure session; without one both are refused. -/
def Obligations.IdeKeysAndEpochs : Prop :=
  ∀ (s : State) (n : Ld) (i : IdeStream) (dir : Dir) (slot : Bool), s.dev.atRest = true → s.dev.on n = true →
    let x := (s.dev.ld n).ideDir i dir
    ((s.dev.ld n).ideMem.mode = .skid → (s.dev.ld n).link.st.live = true → (s.dev.ld n).pool.msgs = [] →
      exec (.ideMacEpoch n .mem .rx true false) s = .next (s.to (s.dev.modLd n fun l => { l with ideMem := { l.ideMem with skid := [] } }))) ∧
    ((s.dev.ld n).ideMem.mode = .skid → (s.dev.ld n).link.st.live = true →
      exec (.ideMacEpoch n .mem .tx true slot) s = .next (s.to (s.dev.modLd n fun l => { l with ideMem := { l.ideMem with tx := match l.ideMem.tx.go with
        | some g => { l.ideMem.tx with act1 := g, go := none }
        | none => l.ideMem.tx } }))) ∧
    (s.dev.tlhBusy = false → s.dev.hasSession n = true → (x.act1 = slot → x.has slot = false) → ∀ key : BitVec 256,
      exec (.keyProg n i dir slot key) s = .next (s.to (s.dev.modLd n fun l =>
        { (l.modIde i dir fun x => if slot then { x with k1 := some key } else { x with k0 := some key }) with doeRsp := 1, doeOut := [] }))) ∧
    (s.dev.tlhBusy = false → s.dev.hasSession n = true → x.has slot = true →
      exec (.kSetGo n i dir slot) s = .next (s.to (s.dev.modLd n fun l => { (l.modIde i dir fun x => { x with go := some slot }) with doeRsp := 1, doeOut := [] }))) ∧
    (s.dev.tlhBusy = false → s.dev.hasSession n = false → ∀ key : BitVec 256,
      exec (.keyProg n i dir slot key) s = .next (s.to (s.dev.modLd n fun l => { l with doeRsp := 2, doeOut := [] })) ∧
      exec (.kSetGo n i dir slot) s = .next (s.to (s.dev.modLd n fun l => { l with doeRsp := 2, doeOut := [] })))

/-- R81: a decoder whose size is the interleave ways times the label window, whose device base is aligned and inside the region, whose label fields are in range (and whose interleave
is one that R79 supports) is committed; any other is refused with the error-not-committed indication and CXL.mem left disabled. The label fields are stored as written, out of range
too, until the commit locks them, and a committed decoder keeps its values. -/
def Obligations.DecoderCommitIsChecked : Prop :=
  ∀ (s : State) (n : Ld) (hbase size dbase : BitVec 64) (iw ig : Nat), s.dev.atRest = true → s.dev.on n = true → s.dev.linkLive n = true →
    let l := s.dev.ld n
    let cmd := Instr.hdmDecoderCommit n hbase size dbase iw ig
    let ok := size.toNat = iw * 2 ^ (l.acc.lpos.toNat + l.acc.lbits.toNat) ∧ dbase.toNat % 2 ^ 28 = 0 ∧
      dbase.toNat + 2 ^ l.acc.lpos.toNat ≤ s.dev.regionBlocks * 2 ^ 28 ∧ l.acc.lbits.toNat ≤ 4 ∧ 28 ≤ l.acc.lpos.toNat ∧ l.acc.lpos.toNat ≤ 45 ∧
      iw ∈ [1, 2, 4, 8] ∧ ig ∈ [256, 512, 1024, 2048, 4096, 8192, 16384]
    (∀ v : BitVec 64, exec (.registerWrite (.landingPage n 8 4) v) s = .next (if l.acc.dec.committed then s else s.to (s.dev.modLd n fun l =>
      { l with acc := { l.acc with lbits := BitVec.ofNat 3 v.toNat, lpos := BitVec.ofNat 6 (v.toNat / 256) } }))) ∧
    (l.acc.dec.committed = true → exec cmd s = .next s) ∧
    (l.acc.dec.committed = false → ok → exec cmd s = .next (s.to (s.dev.modLd n fun l =>
      { l with acc := { l.acc with dec := { hbase := hbase.toNat, size := size.toNat, dbase := dbase.toNat, iw, ig, committed := true, errNot := false } }
               link := { l.link with memen := s.dev.active && decide (l.link.st = .up) && decide (1 ≤ l.link.speed.toNat) } }))) ∧
    (l.acc.dec.committed = false → ¬ ok → ∃ t, exec cmd s = .next t ∧ (t.dev.ld n).acc.dec.committed = false ∧ (t.dev.ld n).acc.dec.errNot = true ∧
      (t.dev.ld n).link.memen = false)

/-- R58: a message that no credit covers is discarded: DROPPED is set, the host's CXL RAS status shows the link-protocol error, a fault of the landing is reported; the landing
stays as it was otherwise, and no other landing, no slice and no byte of memory is affected. -/
def Obligations.UncoveredMessageIsDiscarded : Prop :=
  ∀ (s : State) (n : Ld) (f : Flit) (m : Msg), s.dev.atRest = true → s.dev.on n = true → (s.dev.ld n).link.st = .up → f.good = true →
    f.seq = (s.dev.ld n).pool.rxSeq → f.msgs = [m] → msgClass m ≠ 5 → (s.dev.ld n).pool.held.getD (msgClass m) 0 < msgCredit m →
    (s.dev.ld n).pool.msgs = [] → s.dev.fmnBusy = true → s.dev.lko.recs = [] → s.dev.arrival (ldSrc n 2) { cls := .corrected } = .corrected →
    ∃ t, exec (.flitReceived n f) s = .next t ∧ (t.dev.ld n).pool.dropped = true ∧ (t.dev.ld n).rasUnc = true ∧ (t.dev.ld n).pool.msgs = [] ∧
      (t.dev.ld n).pool.held = (s.dev.ld n).pool.held ∧ (t.dev.ld n).link = (s.dev.ld n).link ∧ (t.dev.ld n).acc = (s.dev.ld n).acc ∧
      t.dev.lko.recs.map (·.src) = [ldSrc n 2] ∧ (∀ k, k ≠ n.val → t.dev.ld k = s.dev.ld k) ∧ t.dev.slc = s.dev.slc ∧ t.dev.mem = s.dev.mem

/-- R217 to R222: the owner landing snoops its host for the head of a sector whose hold has expired; the end of a hold ends it; a BIConflict is answered. -/
def Obligations.OwnerSnoopsForTheHead : Prop :=
  ∀ (s : State) (n : Ld), s.dev.atRest = true → s.dev.on n = true → s.dev.hears n = true →
    let c := (s.dev.ld n).coh
    (∀ (sector : BitVec 37) (f : Fwd) (fs : List Fwd) (loc : FLoc) (e : FEnt), c.ofSector sector.toNat = f :: fs → sector.toNat ∉ c.hold →
      (∀ x ∈ c.snoops, x.line / 4 = sector.toNat → x.why ≠ .board) → s.dev.fent f.home sector.toNat = some (loc, e) →
      let owned := e.linesIn 2
      let blk := decide (2 ≤ owned.length)
      let line := sector.toNat * 4 + owned.headD f.line
      let kind := (wantOf f.req.kind f.rdonly).snp
      exec (.boardingHeadServe n sector) s = .next (s.to (((s.dev.modLd n fun l =>
        { l with coh := { l.coh with snoops := l.coh.snoops ++ [{ line, blk, kind, home := f.home, why := .board, limit := s.dev.p 0x181 }] } }).modLd n fun l =>
          l.sent (.snp kind blk line)).bump 0x00B n 1))) ∧
    (∀ sector : BitVec 37, sector.toNat ∈ c.hold →
      exec (.tminholdExpiry n sector) s = .next (s.to (s.dev.modLd n fun l => { l with coh := { l.coh with hold := l.coh.hold.erase sector.toNat } }))) ∧
    (∀ line : BitVec 39, exec (.biconflict n line) s = .next (s.to (s.dev.modLd n fun l => l.sent (.biConflictAck line.toNat))))

/-- R213, R219, R220: the host's answer ends the service of a head that wanted a line with no data to send: the entry leaves the boarding queue and a handoff
goes to the home slice; the home slice applies it, the requester becomes the owner and the ownership epoch moves on. -/
def Obligations.AnswerHandsTheSectorOver : Prop :=
  (∀ (s : State) (n : Ld) (f : Fwd) (x : Snoop) (rsp : BiRsp), s.dev.atRest = true → s.dev.on n = true → s.dev.hears n = true →
    (s.dev.ld n).coh.board = [f] → (s.dev.ld n).coh.snoops = [x] → x.why = .board → x.blk = false → x.got = [] → x.line = f.sector * 4 + f.line → f.line < 4 →
    x.line < 2 ^ 39 → f.req.kind = .rd .inv → f.rdonly = false →
    ∃ t h, exec (.birspReceived n (BitVec.ofNat 39 x.line) false rsp) s = .next t ∧ (t.dev.ld n).coh.board = [] ∧ (t.dev.ld n).coh.snoops = [] ∧
      (t.dev.ms f.home).filt.handoffs = (s.dev.ms f.home).filt.handoffs ++ [h] ∧ h.from_ = n.val ∧ h.head = some f ∧ h.rsp = rsp ∧ h.data = [] ∧ h.back = [] ∧
      t.dev.mem = s.dev.mem) ∧
  (∀ (s : State) (sl : Sl) (h : Handoff) (f : Fwd) (r : Nat) (loc : FLoc) (e : FEnt), s.dev.atRest = true → s.dev.on sl = true →
    (s.dev.ms sl).filt.handoffs = [h] → h.head = some f → h.back = [] → h.data = [] → h.sent = true → f.ld = some r → f.line < 4 → f.req.kind = .rd .inv →
    f.rdonly = false → s.dev.fent sl f.sector = some (loc, e) → (s.dev.ms sl).filt.lossWait = [] → (∀ x ∈ (s.dev.ld r).coh.xfers, x.got = false) →
    ∃ t, exec (.handoff sl) s = .next t ∧ (t.dev.ms sl).filt.handoffs = [] ∧
      (let other := fun y : Fwd => !decide (f.sector = y.sector ∧ f.line = y.line ∧ f.ld = y.ld ∧ f.req = y.req)
       ∀ m, t.dev.ms m = ((s.dev.modF sl fun x => { x with handoffs := [], fwds := x.fwds.filter other }).putFent sl loc (e.handed h f)).ms m) ∧
      (e.handed h f).ls f.line = 2 ∧ (e.handed h f).owner = Fin.ofNat 16 r ∧ (e.handed h f).epoch = e.epoch + 1#4)

/-- R218: a home slice whose request waits for the owner's boarding queue, its reserved entry there being in use, is granted a shared credit while shared
entries are free, and its request is remembered while none is; what follows every command then follows. -/
def Obligations.SharedCreditIsAsked : Prop :=
  ∀ (s : State) (sl : Sl) (n : Ld), s.dev.on sl = true →
    (((s.dev.ms sl).waitq.any fun w => w.shared && w.grant.isNone && (match s.dev.fent sl (w.line / 4) with
      | some (_, e) => e.owned && decide (e.owner.val = n) && decide (w.ld ≠ some n.val)
      | none => false)) = true) →
    ((s.dev.ld n).coh.board.any fun f => decide (f.home = sl) && !f.shared) = true → sl.val ∉ (s.dev.ld n).coh.shared →
    let ask := s.dev.modF sl fun f => { f with credReq := if n.val ∈ f.credReq then f.credReq else f.credReq ++ [n.val] }
    let give := (s.dev.modLd n fun l => { l with coh := { l.coh with shared := l.coh.shared ++ [sl.val] } }).modF sl fun f =>
      { f with credReq := f.credReq.erase n.val }
    (s.dev.sharedFree n = 0 → (settle s.dev ask).blow = 0#2048 → exec (.sharedCreditRequest sl n) s = .next (s.to (settle s.dev ask))) ∧
    (0 < s.dev.sharedFree n → (settle s.dev give).blow = 0#2048 → exec (.sharedCreditRequest sl n) s = .next (s.to (settle s.dev give)))

/-- R219, R224: the first data message with the transfer's epoch completes the host's request with its data and the state granted; one with another epoch
is discarded. -/
def Obligations.TransferCompletesTheRequest : Prop :=
  ∀ (s : State) (n : Ld) (x : Xfer) (ep : BitVec 4) (data : Line) (pois : Bool) (rest : List (BitVec 4 × Line × Bool)), s.dev.atRest = true → s.dev.on n = true →
    s.dev.hears n = true → (s.dev.ld n).coh.xfers = [x] → x.inFlight = (ep, data, pois) :: rest → x.got = false →
    (ep = x.epoch → ∃ t lat, exec (.transferDataArrival n) s = .next t ∧ (t.dev.ld n).coh.xfers = [{ x with inFlight := rest, got := true }] ∧
      (t.dev.ld n).pool.replay = (s.dev.ld n).pool.replay ++
        [⟨(s.dev.ld n).pool.txSeq, some (.data x.tag data pois x.grant lat), (s.dev.ld n).pool.pend, some (x.epoch.toNat, x.sector)⟩] ∧ t.dev.slc = s.dev.slc ∧ t.dev.mem = s.dev.mem) ∧
    (ep ≠ x.epoch → ∃ t, exec (.transferDataArrival n) s = .next t ∧ (t.dev.ld n).coh.xfers = [{ x with inFlight := rest }] ∧
      (t.dev.ld n).pool = (s.dev.ld n).pool ∧ t.dev.slc = s.dev.slc ∧ t.dev.mem = s.dev.mem)

/-- R227, R232: a loss report of a transfer whose data the host never acknowledged gives the line up: it is in state I and has no owner; the filter of a bypassed slice that
holds no entry finishes moving: MOVED at the slice, HOSTING at its partner. -/
def Obligations.LostLinesAndMovedFiltersSettle : Prop :=
  (∀ (s : State) (sl : Sl) (ld sector line : Nat) (ep : BitVec 4) (loc : FLoc) (e : FEnt), s.dev.atRest = true → s.dev.on sl = true →
    (s.dev.ms sl).filt.losses = [{ ld, xfers := [(sector, line, ep, false)] }] → (s.dev.ms sl).filt.handoffs = [] → (s.dev.ms sl).filt.fwds = [] →
    s.dev.fent sl sector = some (loc, e) → e.ls line = 2 → e.owner.val = ld →
    exec (.lossReport sl) s = .next (s.to ((s.dev.modF sl fun f => { f with losses := [] }).putFent sl loc ((e.setLs line 0).disown true)))) ∧
  (∀ (s : State) (sl : Sl), s.dev.atRest = true → s.dev.on sl = true → (s.dev.ms sl).filt.moving = true → (s.dev.ms (partner sl)).wharf.fenced = false →
    (s.dev.ms sl).filt.ents = [] →
    exec (.filterMoveComplete sl) s = .next (s.to ((s.dev.modF sl fun f => { f with ents := [], moving := false, moved := true }).modF (partner sl) fun f =>
      { f with hosting := true })))

/-- R90, R93, R94: the three ends of a record whose blocks other records hold too: an offer that expires, told to the Pool owner, and a release whose admitted
work has drained leave it Free with its sequence number kept; so does a reclaim, and a record that alone holds its blocks goes to Reclaiming first. -/
def Obligations.RecordsEnd : Prop :=
  ∀ (s : State) (n : Fin 32768), s.dev.atRest = true → s.dev.active = false →
    let r := s.dev.xrec n
    let free := ({ s.dev with ext := { s.dev.ext with
      recs := tput {} s.dev.ext.recs n { seq := r.seq }
      offers := (s.dev.ext.offers.map fun o => { o with recs := o.recs.filter (· ≠ n.val) }).filter fun o => !o.recs.isEmpty } } : Dev)
    let others := r.blocks.all fun b => s.dev.heldBut n b
    let quiet := s.dev.linkLive r.ld = false ∨ (s.dev.admitted r = false ∧ s.dev.bargeOn r = false ∧ (r.shared = true → ∀ sl ∈ s.dev.units, s.dev.heldSectors sl n = []))
    (others = true → r.st = .offered → exec (.offerExpiry n) s = .next (s.to (free.evPool .offerEnded [n, r.ld, r.base, r.nblk1 + 1]))) ∧
    (others = true → r.st = .releasing → quiet → exec (.releaseDrainComplete n) s = .next (s.to free)) ∧
    (others = false → r.st = .releasing → quiet → exec (.releaseDrainComplete n) s = .next (s.to (s.dev.modRec n fun r => { r with st := .reclaiming }))) ∧
    (others = true → r.st = .reclaiming → exec (.reclaimComplete n) s = .next (s.to free))

/-- R94, R111, R188: reclaim of the one block that only this record holds, all of whose pages are Z, frees it: no segment, no Wharf line, no filter entry, no
page-map-cache slot of it is left, and the record is Free. -/
def Obligations.ReclaimForgetsTheBlock : Prop :=
  ∀ (s : State) (n : Fin 32768), s.dev.atRest = true → s.dev.active = false →
    let r := s.dev.xrec n
    r.st = .reclaiming → r.nblk1 = 0 → s.dev.heldBut n r.base = false → (∀ e ∈ s.dev.pm.ents, pageBlock e.1 ≠ r.base) → (∀ x ∈ s.dev.slc, x.2.sl.roots = []) →
    ∃ t, exec (.reclaimComplete n) s = .next t ∧ (t.dev.xrec n).st = .free ∧ (t.dev.xrec n).seq = r.seq ∧ (tget {} t.dev.pm.blocks r.base).seg = none ∧
      t.dev.pm.ents = s.dev.pm.ents ∧ t.dev.mem = s.dev.mem ∧
      (∀ x ∈ t.dev.slc, (∀ l ∈ x.2.wharf.lines, l.2.st ≠ .invalid → l.2.addr / 2 ^ 22 ≠ r.base) ∧
        (∀ e ∈ x.2.filt.ents, e.2.valid = true → e.2.sector / 2 ^ 20 ≠ r.base) ∧ (∀ p ∈ x.2.pmc, pageBlock p.2.page ≠ r.base))

/-- R189, R190: an access to the scratch window that a region register allows reads and writes the bytes of the slice, way and offset it decodes to, and never DRAM. -/
def Obligations.ScratchReadsWhatWasWritten : Prop :=
  ∀ (s : State) (ag : ScrAgent) (off : Nat), s.dev.atRest = true → s.dev.noInj = true → s.dev.coreOn = true → off < 2 ^ 27 →
    (∀ n : Nat, off % 4096 + n ≤ 4096 → s.dev.allowed (scrAgent ag) (0x80000000 + off) n false = true → ∀ (sl x : Nat), s.dev.scratchAt off = some (sl, x) →
      exec (.scratchAccess ag off (.read n .ok)) s = .next (s.to { s.dev with dbgOut := (List.range n).map fun i => tget 0#8 (s.dev.ms sl).wharf.scratch (x + i) })) ∧
    (∀ bs : List Byte, off % 4096 + bs.length ≤ 4096 → s.dev.allowed (scrAgent ag) (0x80000000 + off) bs.length true = true →
      ∀ (sl x : Nat), s.dev.scratchAt off = some (sl, x) → Tbl.rises (s.dev.ms sl).wharf.scratch = true →
      ∃ t, exec (.scratchAccess ag off (.write bs)) s = .next t ∧ t.dev.mem = s.dev.mem ∧ t.dev.pm = s.dev.pm ∧ (∀ m, m ≠ sl → t.dev.ms m = s.dev.ms m) ∧
        (t.dev.ms sl).wharf.lines = (s.dev.ms sl).wharf.lines ∧
        (∀ a, tget 0#8 (t.dev.ms sl).wharf.scratch a = if x ≤ a ∧ a < x + bs.length then bs.getD (a - x) 0#8 else tget 0#8 (s.dev.ms sl).wharf.scratch a))

/-- R192, R202, R203: a way conversion with no line left in the converted ways ends with p0171 ways of scratch; a range operation with no line left reports
its slice done; a draining Wharf slice with no dirty line enters bypass, and its filter begins to move. -/
def Obligations.WharfMaintenanceEnds : Prop :=
  ∀ (s : State), s.dev.atRest = true →
    (∀ m : Nat, s.dev.mg.convTo = some m → (∀ k ∈ s.dev.units, (s.dev.ms k).wharf.lines = [] ∧ (s.dev.ms k).wharf.scratch = [] ∧ (s.dev.ms k).wharf.scrPois = []) →
      ∃ t, exec .wayConversionComplete s = .next t ∧ t.dev.mg.convTo = none ∧ (∀ k ∈ s.dev.units, (t.dev.ms k).wharf.m = m ∧ (t.dev.ms k).wharf.conv = false) ∧
        t.dev.mem = s.dev.mem) ∧
    (∀ (sl : Sl) (r : RangeOp), s.dev.on sl = true → (s.dev.ms sl).wharf.ranges = [r] → (s.dev.ms sl).wharf.rangeQ = [] → (s.dev.ms sl).wharf.lines = [] →
      (s.dev.ms sl).wharf.qbuf = [] → (s.dev.ms sl).held = [] →
      ∃ t, exec (.rangeOperationSliceDone sl r.id) s = .next t ∧ (t.dev.ms sl).wharf.ranges = [] ∧ t.dev.mem = s.dev.mem ∧ (∀ k, k ≠ sl.val → t.dev.ms k = s.dev.ms k)) ∧
    (∀ sl : Sl, s.dev.on sl = true → (s.dev.ms sl).wharf.draining = true → (∀ x ∈ (s.dev.ms sl).wharf.lines, x.2.st.isDirty = false) →
      exec (.wharfSliceDrainComplete sl {}) s = .next (s.to (s.dev.modMs sl fun x => { x with
        wharf := { x.wharf with fenced := true, draining := false, lines := [], scratch := [], scrPois := [] }
        filt := { x.filt with moving := !x.filt.moved } })))

/-- R257: cleaning a dirty top node of a subtree advances the root counter, computes the node's MAC under it and writes the node to both copies of its
area; the line is clean. -/
def Obligations.NodeCleanAdvancesTheRoot : Prop :=
  ∀ (s : State) (sl : Sl) (blk idx : Nat) (l : SLine), s.dev.atRest = true → s.dev.on sl = true → (s.dev.ms sl).sl.cache = [l] → l.dirty = true → l.blk = blk → l.idx = idx →
    let r := s.dev.root sl blk
    l.lvl = r.top → Tbl.rises (s.dev.ms sl).sl.roots = true → s.dev.chOk r.chA = true → s.dev.chOk r.chB = true →
    let c := if r.ctr = 0#64 then (s.dev.ms sl).sl.hw + 1#64 else r.ctr + 1#64
    let o := s.dev.nodeOff (s.dev.blockNear blk) l.lvl idx
    ∃ t, exec (.sealNodeClean sl blk l.lvl idx) s = .next t ∧ (t.dev.root sl blk).ctr = c ∧ (t.dev.root sl blk).mac = s.dev.nodeMac c sl blk l.lvl idx l.node ∧
      (t.dev.ms sl).sl.cache = [{ l with dirty := false }] ∧
      t.dev.mem = memPut (memPut s.dev.mem (chBase r.chA + (r.frA * 4096 + o)) (nodeBytes l.node)) (chBase r.chB + (r.frB * 4096 + o)) (nodeBytes l.node)

/-- R426: inside a secure session the import of a permitted landing enables an Awaiting-key context with the base keys it brings, one for a Sealed context and two for an Open one, and
answers 00h; every other request is answered with its error code and changes nothing but the answer; without a session it is a session error. -/
def Obligations.KeyImportEnablesOrRefuses : Prop :=
  ∀ (s : State) (n : Ld) (c keys : Nat) (k0 k1 : BitVec 256), s.dev.atRest = true → s.dev.on n = true →
    let x := s.dev.ctxOf c
    let cmd := Instr.keyImport n c keys k0 k1
    let Says := fun st : Nat => exec cmd s = .next (s.to (s.dev.doeAnswer n 1 (le 1 st ++ zeros 3)))
    let wrong := keys ≠ (if x.sld then 1 else 2) ∨ (keys = 1 ∧ k1 ≠ 0#256)
    (s.dev.tlhBusy = true → Says 5) ∧
    (s.dev.tlhBusy = false → s.dev.hasSession n = false → exec cmd s = .next (s.to (s.dev.doeAnswer n 3))) ∧
    (s.dev.tlhBusy = false → s.dev.hasSession n = true →
      (c = 0 ∨ 16384 ≤ c ∨ x.st ≠ .awaiting → Says 1) ∧
      (0 < c → c < 16384 → x.st = .awaiting →
        (x.mask.getLsbD n = false → Says 2) ∧
        (x.mask.getLsbD n = true → wrong → Says 3) ∧
        (x.mask.getLsbD n = true → ¬ wrong → keys = 2 → k0 = k1 → Says 4) ∧
        (x.mask.getLsbD n = true → ¬ wrong → (keys = 2 → k0 ≠ k1) →
          ∃ t, exec cmd s = .next t ∧ (t.dev.ctxOf c).st = .enabled ∧ (t.dev.ctxOf c).gen = (s.dev.ctxOf c).gen + 1#8 ∧
            tget none t.dev.tlh.wrapped c = some (k0, k1) ∧ (t.dev.ld n).doeRsp = 1 ∧ (t.dev.ld n).doeOut = [0#8, 0#8, 0#8, 0#8] ∧
            (∀ m ∈ s.dev.units, tget none (t.dev.ms m).sl.keys c =
              some (Config.workKey k0 s.dev.nonce c 0, Config.workKey k1 s.dev.nonce c 1)) ∧ t.dev.mem = s.dev.mem)))

/-- R276, R284 to R286: a poll sets the temperature, 1 °C at least; a second failed poll takes it away; a refresh that falls due while the bank is busy is postponed
up to four times, otherwise it issues and closes the bank's row; tREFW clears the activation tracker; RFM takes the threshold off the bank's count. -/
def Obligations.RefreshAndTemperature : Prop :=
  ∀ (s : State) (c : Ch), s.dev.atRest = true → s.dev.on c = true →
    let x := s.dev.ch c
    (∀ t : Int, x.pop.dpc ≠ 0 → exec (.dimmTempPoll c (some t)) s = .next (s.to (s.dev.modCh c fun x => { x with temp := min 255 (max 1 t.toNat), pollFail := 0 }))) ∧
    (x.pop.dpc ≠ 0 → 1 ≤ x.pollFail → exec (.dimmTempPoll c none) s = .next (s.to (s.dev.modCh c fun x => { x with pollFail := 2, temp := 0 }))) ∧
    (∀ bank : Nat, x.usable = true → tget 0 x.postponed bank < 4 → exec (.refreshDue c bank true) s =
      .next (s.to (s.dev.modCh c fun x => { x with postponed := tput 0 x.postponed bank (tget 0 x.postponed bank + 1) }))) ∧
    (∀ bank : Nat, x.usable = true → x.owed = [] → ∃ t, exec (.refreshDue c bank false) s = .next t ∧ t.dev.mem = s.dev.mem ∧ t.dev.slc = s.dev.slc ∧
      (∀ m, t.dev.ch m = if m = c.val then { x with openRow := tput none x.openRow bank none, postponed := tput 0 x.postponed bank 0 } else s.dev.ch m)) ∧
    exec (.trefwClear c) s = .next (s.to (s.dev.modCh c fun x => { x with rtrk := [] })) ∧
    (∀ (bank thr : Nat), x.pop.rfm = some thr → x.rfmEn = true → x.usable = true → thr ≤ tget 0 x.raa bank →
      exec (.rfmThreshold c bank) s = .next (s.to ((s.dev.modCh c fun y =>
        { y with raa := tput 0 y.raa bank (tget 0 y.raa bank - thr), openRow := tput none y.openRow bank none }).bump 0x405 c 1)))

/-- R280, R287, R295, R296: an entry that starves rises to the head of its group; a retraining pause with a low margin is tried once more, and with the margin
back the drift is counted; a command error that the replay clears is counted and reported; patrol scrub of a sound burst moves on by one burst. -/
def Obligations.ChannelUpkeepRuns : Prop :=
  ∀ (s : State) (c : Ch), s.dev.atRest = true → s.dev.on c = true → (s.dev.ch c).usable = true → s.dev.fmnBusy = true → s.dev.noInj = true →
    (∀ quad : BitVec 37, exec (.entryStarve c quad) s = .next (s.to (s.dev.modCh c fun x => { x with
      sched := ((x.sched.filter fun e => decide (e.quad = quad.toNat)).map fun e => { e with starved := true }) ++ x.sched.filter fun e => decide (e.quad ≠ quad.toNat) }))) ∧
    ((s.dev.ch c).repause = false → exec (.retrainingPause c true) s = .next (s.to (s.dev.modCh c fun y => { y with repause := true }))) ∧
    ((s.dev.ch c).repause = true → exec (.retrainingPause c false) s = .next (s.to (s.dev.modCh c fun y => { y with repause := false, drift := y.drift + 1 }))) ∧
    (∀ off : Nat, exec (.alertNError c off .transient) s =
      .next (s.to ((s.dev.modCh c fun y => { y with cmdErr := y.cmdErr + 1 }).report { src := sliceSrc c 0x06, det0 := off, det1 := noDpa }))) ∧
    exec (.patrolScrub c {}) s = .next (s.to (s.dev.modCh c fun y => { y with scrub := if y.scrub + 64 < y.bytes then y.scrub + 64 else 0 }))

/-- R298: the oldest row queued for soft repair, with a repair resource left and a clean re-read, is repaired: counted, the resource used, the row closed and noted
in the flash for the hard repair at the next boot. -/
def Obligations.SoftRepairTakesTheOldestRow : Prop :=
  ∀ (s : State) (c : Ch) (r : RowAddr) (rest : List RowAddr), s.dev.atRest = true → s.dev.on c = true → (s.dev.ch c).usable = true →
    (s.dev.ch c).queue = r :: rest → r ∉ (s.dev.ch c).noRepair → tget 0 (s.dev.ch c).spprUsed (r.bank / 4) < (s.dev.ch c).pop.sppr →
    exec (.softRepair c true) s = .next (s.to { s.dev.modCh c fun y => { y with
      queue := rest, spprUsed := tmod 0 y.spprUsed (r.bank / 4) (· + 1), openRow := tput none y.openRow r.bank none, sppr := satAdd 255 y.sppr 1 } with
        flash := s.dev.flash.noteRow c r })

/-- R314, R315, R317: the recomputed deliverable figures wait for the next window boundary; the boundary meters the receipts, applies the admitted class records,
and, the broadcast figures being those in force, starts a new window with no slot used and no departure counted. -/
def Obligations.WindowsApplyClassRecords : Prop :=
  ∀ (s : State), s.dev.atRest = true →
    (let di := s.dev.units.foldl (fun t n => tput 1024 t n (s.dev.calcDi n)) s.dev.qos.diNext
     exec .deliverableRecompute s = .next (s.to { s.dev with qos := { s.dev.qos with dwNext := s.dev.calcDw, dqNext := s.dev.calcDq, diNext := di } })) ∧
    (s.dev.qos.dwNext = s.dev.qos.dw → s.dev.qos.dqNext = s.dev.qos.dq → s.dev.qos.diNext = s.dev.qos.di → s.dev.qos.lastEv = [] →
      (let recs := s.dev.qos.pend.foldl (fun t x => tput none t x.1 x.2) s.dev.qos.recs
       ∀ rs : List Receipt, exec (.qosWindowBoundary rs) s =
        .next (s.to { rs.foldl (fun d x => d.meterOne x) s.dev with qos := { s.dev.qos with recs, pend := [], slots := [], deps := [] } })) ∧
      (∀ (u : Fin 16) (k : Cls) (got : Nat), ∃ t, exec (.qosWindowBoundary [{ share := .q, unit := u, cls := k, got, demand := true }]) s = .next t ∧
        t.dev.tele.rcpt = tmod {} s.dev.tele.rcpt k.val fun x => { x with
          minq := min x.minq (min 0x7FE got), maxq := max x.maxq (min 0x7FE got), shortq := x.shortq || decide (got + 5 < s.dev.eG .q u.val k.val),
          overq := x.overq || decide (s.dev.eX .q u.val k.val + 5 < got) }))

/-- R324, R343 to R345, R404: what a doorbell, STOP, RUN, setting and clearing ENABLE and a bus-error retry that succeeds do to a channel, and that they
change nothing else. -/
def Obligations.BargeChannelControl : Prop :=
  ∀ (s : State) (n : BgNo), s.dev.atRest = true → s.dev.bargeOn1 = true →
    let b := s.dev.bg n
    (∀ tail : BitVec 17, b.st = .idle → tail ≠ b.head → (tail - b.head).toNat ≤ b.ringSize →
      exec (.bargeDoorbell n tail) s = .next (s.to (s.dev.modBg n fun y => { y with tail, st := .running }))) ∧
    (b.st = .idle → exec (.bargeStop n) s = .next (s.to (s.dev.modBg n fun y => { y with st := .stopped, stop := false }))) ∧
    (b.st = .running → b.cur ≠ none → exec (.bargeStop n) s = .next (s.to (s.dev.modBg n fun y => { y with stop := true }))) ∧
    (b.st = .stopped ∨ b.st = .halted → b.enable = true → b.stop = false →
      exec (.bargeRun n) s = .next (s.to (s.dev.modBg n fun y => { y with st := if b.head = b.tail then .idle else .running }))) ∧
    (∀ (r : Fin 16) (q : Bool), b.st = .disabled → b.bad = false → b.stop = false → r.val ≤ 13 →
      (b.owner = .host → b.hostok = true ∧ s.dev.on n = true ∧ n.val % 2 = 0) →
      exec (.bargeEnable n r q) s =
        .next (s.to (s.dev.modBg n fun y => { y with enable := true, ringlog2 := r, irqen := q, st := if b.head = b.tail then .idle else .running }))) ∧
    (b.st = .idle → b.cur = none → exec (.bargeDisable n) s = .next (s.to (s.dev.modBg n fun y => { y with enable := false, st := .disabled, stop := false }))) ∧
    (∀ a, b.prog.err = some a → spaceOf a ≠ 1 → b.prog.retry < s.dev.p 0x1B0 →
      exec (.busErrorRetry n true) s = .next (s.to (s.dev.modBg n fun y =>
        { y with retries := satAdd 0xFFFF y.retries 1, prog := { y.prog with err := none, retry := y.prog.retry + 1 } })))

/-- R325 to R327: a fetch of a ring in the internal map starts an owned, valid page descriptor, ends an invalid one with 17h, and goes Idle on OWN
clear; completion writes status, clears OWN, advances HEAD and takes the channel to its boundary. -/
def Obligations.DescriptorsStartAndComplete : Prop :=
  ∀ (s : State) (n : BgNo), s.dev.atRest = true → s.dev.bargeOn1 = true →
    let b := s.dev.bg n
    b.owner = .syust → b.space = 1 → spaceOf b.slotAddr = 1 → b.prog.err = none → b.stop = false → b.enable = true →
    let a := addrIn b.slotAddr
    (∀ (bs : List Byte) (own : Bool) (x : Desc), b.st = .running → b.cur = none → b.head ≠ b.tail →
      s.dev.intRead .bs a 64 .ok = (some (bs, false), s.dev) → parseDesc (ofBytes 512 bs) = (own, x) →
      (own = false → exec (.bargeDescriptorFetch n {}) s = .next (s.to (s.dev.modBg n fun y => { y with st := .idle }))) ∧
      (own = true → s.dev.descOk .syust x = true → isByteOp x.op = false →
        exec (.bargeDescriptorFetch n {}) s = .next (s.to (s.dev.modBg n fun y => { y with st := .running, cur := some x, prog := {} }))) ∧
      (own = true → s.dev.descOk .syust x = false →
        exec (.bargeDescriptorFetch n {}) s = .next (s.to (s.dev.modBg n fun y =>
          { y with st := .running, cur := some x, prog := { fin := true, code := 0x17, fault := x.src } })))) ∧
    (∀ x : Desc, b.cur = some x → b.prog.fin = true → b.prog.code ≠ 0x20 →
      let w1 := s.dev.intWrite .bs (a + 48) (b.prog.words (isByteOp x.op))
      let w2 := w1.2.intWrite .bs a (bytesOf 8 (BitVec.ofNat 64 (x.w0 / 2 * 2)))
      w1.1 = true → w2.1 = true →
      exec (.bargeDescriptorComplete n {}) s = .next (s.to (w2.2.modBg n fun y =>
        { y with cur := none, prog := {}, head := b.head + 1#17, lastcode := b.prog.code, descs := b.descs + 1#16
                 doneirq := b.doneirq || (x.irq && b.irqen), st := if b.head + 1#17 = b.tail then .idle else .running })))

/-- R328, R333, R337, R351: one line of a COPY or FILL, one page of a ZERO, the input and the output line of a dictionary operation, each with its
place and count. -/
def Obligations.ByteOperationsWriteTheirData : Prop :=
  ∀ (s : State) (n : BgNo) (x : Desc), s.dev.atRest = true → s.dev.bargeOn1 = true → s.dev.noInj = true →
    let b := s.dev.bg n
    b.owner = .syust → b.st = .running → b.cur = some x → s.dev.outranked n = false →
    let read := fun (a : Nat) (l : Line) => spaceOf a = 1 ∧ a % 64 = 0 ∧ s.dev.intRead .bs (addrIn a) 64 .ok = (some (bytesOf 64 l, false), s.dev)
    let begun : BProg := { begun := true }
    let one : BProg := { begun := true, pos := 1, done := 64 }
    (∀ l : Line, x.op = 1 → x.len = 64 → b.prog = {} → x.down = false → read x.src l → spaceOf x.dst = 1 → x.dst % 64 = 0 →
      let w := s.dev.intWrite .bs (addrIn x.dst) (bytesOf 64 l)
      w.1 = true →
      exec (.copy n 1 {}) s = .next (s.to (w.2.modBg n fun y => { y with prog := { one with buf := [(x.src / 64, l, false)] } }))) ∧
    (x.op = 3 → x.len = 64 → b.prog = {} → spaceOf x.src = 1 → x.src % 64 = 0 →
      let w := s.dev.intWrite .bs (addrIn x.src) (fillBytes x x.src 64)
      w.1 = true → exec (.fill n 1 {}) s = .next (s.to (w.2.modBg n fun y => { y with prog := one }))) ∧
    (x.op = 2 → x.len = 4096 → b.prog = {} → spaceOf x.src = 0 → x.src % 4096 = 0 →
      let page := x.src / 4096
      let sl := s.dev.homeOf page
      let e := s.dev.ent page
      s.dev.plainP sl page = true → s.dev.ctxAllows .syust page true = true → e.pin = false → (s.dev.ms sl).misses = [] → (s.dev.ms sl).filt = {} →
      (s.dev.ms sl).held = [] → (s.dev.ms sl).wharf.qbuf = [] →
      ((s.dev.ms sl).wharf.lines.all fun k => decide (k.2.addr / 64 ≠ page)) = true →
      exec (.zero n 1 {}) s = .next (s.to (((s.dev.setEnt page (e.toZ 0#16)).freeStorage e).modBg n fun y =>
        { y with prog := { begun with pos := 64, done := 4096 } }))) ∧
    (x.op = 0xA ∨ x.op = 0xB →
      let go := fun k => exec (if x.op = 0xA then .dictUnpack n k {} else .dictPack n k {}) s
      (∀ l : Line, b.prog = {} → s.dev.dictBusy n < 2 → x.len = 64 → read x.src l →
        go 1 = .next (s.to (s.dev.modBg n fun y => { y with prog := { begun with pos := 1, buf := [(x.src / 64, l, false)] } }))) ∧
      (∀ l : Line, b.prog = { begun with pos := 1, buf := [(x.src / 64, l, false)] } → x.len = 64 → x.src % 64 = 0 →
        let r := if x.op = 0xA then dictUnpack (bytesOf 64 l) x.arg else dictPack (bytesOf 64 l) x.dcrc x.arg
        go 1 = .next (s.to (s.dev.modBg n fun y => { y with prog := { b.prog with out := some r.1, derr := r.2, pos := 0 } }))) ∧
      (∀ out : List Byte, b.prog.begun = true → b.prog.out = some out → b.prog.pos = 0 → b.prog.fin = false → b.prog.err = none → b.prog.code ≠ 1 →
        out.length = 64 → spaceOf x.dst = 1 → x.dst % 64 = 0 →
        let w := s.dev.intWrite .bs (addrIn x.dst) out
        w.1 = true → go 1 = .next (s.to (w.2.modBg n fun y => { y with prog := { b.prog with pos := 1, done := b.prog.done + 64 } }))))

/-- R154, R328, R338, R340, R341, R267: one page of each page operation: PACK and REPACK of a page of zeros leave form Z and free its storage; UNPACK of
a K page gives form P; MIGRATE and page retirement move the stored bytes to another channel; REKEY binds a never-written page to another context; SCRUB reads
its page and changes no entry. -/
def Obligations.PageOperationsAct : Prop :=
  ∀ (s : State) (n : BgNo) (x : Desc), s.dev.bargeOn1 = true → s.dev.noInj = true →
    let b := s.dev.bg n
    b.owner = .syust → b.prog = {} → b.cur = some x → x.len = 1 → s.dev.outranked n = false →
    let page := x.src / 4096
    let sl := s.dev.homeOf page
    let e := s.dev.ent page
    let d := s.dev.modBg n fun y => { y with st := .running, prog := { begun := true } }
    let cls := some (s.dev.bgCls n)
    let Ends := fun (c : Instr) (d : Dev) =>
      let d := (d.modBg n fun y => { y with prog := y.prog.pageDone 0 }).modBg n fun y => { y with prog := { y.prog with fin := true } }
      (settle s.dev d).blow = 0#2048 → exec c s = .next (s.to (settle s.dev d))
    s.dev.placeFree n sl = true → s.dev.blockLive (pageBlock page) = true → e.pin = false → x.tcond = false → (s.dev.ms sl).noCmp = false →
    (s.dev.plainP sl page = true →
      let r := d.readPage sl page {} cls
      let c : Instr := if x.op = 4 then .pack n 1 {} else .repack n 1 {}
      (x.op = 4 ∨ x.op = 6 → (∀ k ∈ r.1.2, k = 0) → (r.2.ent page) = e → Ends c ((r.2.setEnt page (e.toZ e.qpois)).freeStorage e)) ∧
      (x.op = 9 → ((d.readOthers sl page [] {} cls).2.ent page) = e → Ends (.scrub n 1 {}) (d.readOthers sl page [] {} cls).2) ∧
      (∀ chan : Sl, x.op = 7 → e.gm1 = 7 → x.arg = chan →
        let m := d.rd e.chan e.base 4096 cls
        let t := m.2.take chan .berth
        let moved := ((t.2.wr chan (t.1.1 * 4096) m.1 cls).setEnt page { e with chan := chan, frame := t.1.1, goff := 0, gm1 := 7 }).freeStorage e
        (x.retire = false → s.dev.placeable .berth false chan = true → Ends (.migrate n 1 {}) moved) ∧
        (x.retire = true → s.dev.placeable .berth true chan = true → Ends (.pageRetirement n 1 {}) moved))) ∧
    (∀ ctx : Nat, e.form = .z → ((s.dev.ms sl).pmcFind page).isSome = true → x.op = 8 → x.arg = ctx → ctx < 16384 → (tget {} s.dev.ctx ctx).st = .enabled →
      (tget {} s.dev.ctx ctx).sld = false → e.sld = false → Ends (.rekey n 1 {}) (d.setEnt page { e with ctx, sld := false })) ∧
    (∀ (h : Stow) (chan : Nat), x.op = 5 → e.form = .k → e.sld = false → s.dev.chOk e.chan = true → ((s.dev.ms sl).dec0F && (s.dev.ms sl).dec1F) = false →
      ((s.dev.ms sl).pmcFind page).isSome = true →
      let r := d.header sl page {} cls
      let q := r.2.readOthers sl page [] {} cls
      r.1 = some h → (r.2.ent page) = e → (q.2.ent page) = e → (q.2.room sl e.held .berth none).1 = .inr chan →
      let t := (q.2.relayout sl page e.qpois .p [] none q.1 {} cls).2
      Ends (.unpack n 1 {}) t ∧ (t.ent page).form = .p)

/-- R361, R366, R367, R479: the standard commands that read: each is answered Success with the values of the state, and changes nothing but its path's answer. -/
def Obligations.StandardReadsAnswerFromState : Prop :=
  ∀ (s : State) (p : CmdPath), s.dev.atRest = true → s.dev.takes (pathNo p) = true → s.dev.role (pathNo p) ≠ .operator →
    let d := s.dev
    let pn := pathNo p
    let logs := d.logsOf (d.role pn)
    let Says := fun (c : Instr) (v : List Nat) => exec c s = .next (s.to (d.answerPath pn (.good [] v)))
    Says (.identify p) [Config.serial.toNat, d.limitOf pn] ∧
    (d.path pn).bg.elim (Says (.backgroundOperationStatus p) ((d.path pn).last.elim [0, 0, 0] fun x => [0, x.1, x.2.code])) (fun b =>
      exec (.backgroundOperationStatus p) s =
        .next (s.to (({ d with draws := d.draws + 1 } : Dev).answerPath pn (.good [] [1, b.opcode, Config.openNat d.draws % 100])))) ∧
    (∀ log : BitVec 8, log.toNat < 5 →
      let es := (logs.evs.filter fun e => decide (e.sev = log.toNat)).take (d.fit pn 128 256)
      Says (.getEventRecords p log) ([logs.ovr.getD log.toNat 0, es.length] ++ es.flatMap Event.vals)) ∧
    Says (.getEventInterruptPolicy p) logs.policy ∧
    Says (.getFwInfo p) [2, d.boot.bank + 1, if d.flash.dir.pend < 2 then d.flash.dir.pend + 1 else 0, d.flash.syVer 0, d.flash.syVer 1] ∧
    Says (.getTimestamp p) [d.time] ∧ Says (.getSupportedLogs p) [1, cmdTable.length] ∧ Says (.getLog p true) (cmdTable.map (·.opcode)) ∧
    Says (.identifyMemoryDevice p) [0, 0, d.regionBlocks, 512, 16] ∧
    Says (.getHealthInfo p) [(BitVec.ofInt 16 ((d.tjMax.getD 0 + 5) / 10)).toNat] ∧
    exec (.getAlertConfiguration p) s = .next (s.to (d.answerPath pn (.good d.mg.alert))) ∧
    (∀ a len : BitVec 64, a.toNat % 64 = 0 → 1 ≤ len.toNat → len.toNat % 64 = 0 →
      (let ls := (d.listsOf (d.role pn)).map d.hostLogs
       let es := (ls.flatMap (·.poison)).filter fun e => decide (e.1 < a.toNat + len.toNat) && decide (a.toNat < e.1 + e.2.1)
       Says (.getPoisonList p a len) ([bit (ls.any (·.poisOver)), es.length] ++ es.flatMap fun e => [e.1, e.2.1, bit e.2.2])) ∧
      (d.issuerHas (d.role pn) a.toNat len.toNat = true → exec (.getScanMediaCapabilities p a len) s =
        .next (s.to (({ d with draws := d.draws + 1 } : Dev).answerPath pn (.good [] [Config.openNat d.draws]))))) ∧
    Says (.getScanMediaResults p) ((tget [] d.mg.scans pn).length :: (tget [] d.mg.scans pn).flatMap fun e => [e.1, e.2]) ∧
    (∀ n, d.role pn = .tenant n → Says (.getDynamicCapacityConfiguration p) d.regionVals ∧ Says (.getDynamicCapacityExtentList p) (d.grantedVals n)) ∧
    (d.role pn = .owner →
      Says (.getSupportedFeatures p) [0, 1, 2] ∧ (∀ k, k < 3 → exec (.getFeature p k) s = .next (s.to (d.answerPath pn (.good (tget [] d.mg.feats k))))) ∧
      (32 ≤ pn → Says (.getResponseMessageLimit p) [Nat.log2 (d.limitOf pn)]) ∧
      Says (.getDcdInfo p) (d.units.length :: d.regionVals) ∧
      (∀ n, d.on n = true → Says (.getHostDcRegionConfiguration p n) d.regionVals ∧ Says (.getDcRegionExtentLists p n) (d.grantedVals n) ∧
        Says (.getHeadInfo p n) [n, d.lnkstat n]) ∧
      (let ts := (d.recList.map fun r => r.2.tag).eraseDups
       Says (.dynamicCapacityListTags p) (ts.length :: ts.flatMap fun t => [t.toNat, bit (decide (t ∈ d.ext.refs))])) ∧
      Says (.getMultiHeadedInfo p) ([d.units.length, d.units.length] ++ d.units))

/-- R361, R366 to R368, R478: the standard commands that set something: each sets it, is answered and counted, and nothing else changes; an opcode that is not
supported or not permitted to the role is answered Unsupported. -/
def Obligations.StandardCommandsTakeEffect : Prop :=
  ∀ (s : State) (p : CmdPath), s.dev.atRest = true → s.dev.takes (pathNo p) = true → s.dev.role (pathNo p) ≠ .operator →
    let d := s.dev
    let pn := pathNo p
    let Does := fun (c : Instr) (e : Dev) => exec c s = .next (s.to (e.acted.answerPath pn .good))
    (∀ op : BitVec 16, (∀ c ∈ cmdTable, c.opcode ≠ op.toNat) → exec (.unsupportedCommand p op) s = .next (s.to (d.answerPath pn (.bad .unsupported)))) ∧
    (∀ (op : BitVec 16) (c : CSpec), cmdTable.find? (fun c => decide (c.opcode = op.toNat)) = some c → c.permits (d.role pn) pn = false →
      exec (.unsupportedCommand p op) s = .next (s.to (d.answerPath pn (c.trim (.bad .unsupported 0x000A 0 0 op.toNat))))) ∧
    (∀ log : BitVec 8, log.toNat < 5 → Does (.clearEventRecords p log true []) (d.modLogs (d.role pn) fun l =>
      { l with evs := l.evs.filter fun e => !decide (e.sev = log.toNat), ovr := l.ovr.set log.toNat 0 })) ∧
    (∀ vs : List Nat, vs.length = 5 → (∀ v ∈ vs, v < 4) → Does (.setEventInterruptPolicy p vs) (d.modLogs (d.role pn) fun l => { l with policy := vs })) ∧
    (∀ b : Bg, (d.path pn).bg = some b → b.op.aborts = true → Does (.requestAbortBackgroundOperation p) (d.endBg pn .aborted)) ∧
    (∀ a len : BitVec 64, d.works = true → (d.path pn).bg = none → a.toNat % 64 = 0 → len.toNat % 64 = 0 → 1 ≤ len.toNat →
      d.issuerHas (d.role pn) a.toNat len.toNat = true →
      exec (.scanMedia p a len) s = .next (s.to ((({ d with mg := { d.mg with scans := tput [] d.mg.scans pn [] } } : Dev).startBg pn 0x4304
        (.scan (a.toNat / 4096) ((a.toNat + len.toNat - 1) / 4096 + 1 - a.toNat / 4096))).acted.answerPath pn { rc := .bgStarted }))) ∧
    (∀ (a : BitVec 64) (n : Nat), d.works = true → a.toNat % 64 = 0 → d.role pn = .tenant n → d.issuerHas (.tenant n) a.toNat 64 = true → d.injected n < 16 →
      Does (.injectPoison p a) (({ d with logs := tmod {} d.logs n fun l => l.addPoison (a.toNat / 256 * 256) 256 true } : Dev).setQpois
        (d.homeOf (a.toNat / 4096)) (a.toNat / 4096) (BitVec.ofNat 16 (2 ^ (a.toNat / 256 % 16))))) ∧
    (d.role pn = .owner →
      (∀ n : BitVec 8, 32 ≤ pn → 8 ≤ n.toNat → n.toNat ≤ 16 → exec (.setResponseMessageLimit p n) s =
        .next (s.to ((d.modPath pn fun x => { x with limit := some (2 ^ n.toNat) }).acted.answerPath pn (.good [] [n.toNat])))) ∧
      (∀ t : BitVec 64, d.tele.sync = false → Does (.setTimestamp p t) (d.stepTime t.toNat)) ∧
      (∀ (k : Nat) (v : List Byte), k < 3 → Does (.setFeature p k v) { d with mg := { d.mg with feats := tput [] d.mg.feats k v } }) ∧
      (∀ v : List Byte, Does (.setAlertConfiguration p v) { d with mg := { d.mg with alert := v } }) ∧
      (∀ len : BitVec 64, len.toNat = d.regionBlocks * 2 ^ 28 →
        exec (.setDcRegionConfiguration p 0 0#64 len 0x10000000#64) s = .next (s.to (d.answerPath pn .good))) ∧
      (∀ (c bank row : Nat) (sub : BitVec 8), sub.toNat < 2 → c < 16 → d.on c = true → (d.ch c).st ≠ .absent → row < (d.ch c).pop.rows →
        (∀ f ∈ d.usedFrames c, d.rowOf c (f * 4096) ≠ { bank, row }) →
        Does (.performMaintenance p 1#8 sub c bank row) (d.modCh c fun x => { x with queue := if { bank, row } ∈ x.queue then x.queue else x.queue ++ [{ bank, row }] })) ∧
      (∀ tag : BitVec 128, ((d.recList.any fun r => decide (r.2.tag = tag)) = true → tag ∉ d.ext.refs →
          Does (.dynamicCapacityAddReference p tag) { d with ext := { d.ext with refs := d.ext.refs ++ [tag] } }) ∧
        (tag ∈ d.ext.refs → Does (.dynamicCapacityRemoveReference p tag) { d with ext := { d.ext with refs := d.ext.refs.filter (· ≠ tag) } })))

/-- R364, R365, R367, R369, R530: firmware goes into the bank not in use; an offline activation makes it pending, an online one posts it for verification; a
PLDM package lands in its bank or slot; Clear Poison replaces the line; Sanitize empties the berth pools and the Wharves; a finished background command leaves
its final code. -/
def Obligations.FirmwareAndMediaCommands : Prop :=
  ∀ (s : State) (p : CmdPath), s.dev.atRest = true →
    let d := s.dev
    let pn := pathNo p
    let Does := fun (c : Instr) (e : Dev) => exec c s = .next (s.to (e.acted.answerPath pn .good))
    (∀ (slot : BitVec 8) (x : Bank), d.takes pn = true → d.role pn = .owner → 1 ≤ slot.toNat → d.spareBank (slot.toNat - 1) = true →
      Does (.transferFw p slot x) { d with flash := d.flash.setBank (slot.toNat - 1) x } ∧
      Does (.activateFw p slot false) { d with flash := d.flash.setDir fun y => { y with pend := slot.toNat - 1, tries := 0 } } ∧
      ((d.path pn).bg = none → d.tlhBusy = false → d.tlh.reqs.length < 16 →
        let t := (d.post 7 [1, 0, 0, slot.toNat - 1, 0] ((d.flash.bank (slot.toNat - 1)).sy.getD {})).2
        exec (.activateFw p slot true) s = .next (s.to ((({ t with fmn := { t.fmn with st := .quiescing } } : Dev).startBg pn 0x0202
          (.activate (slot.toNat - 1) d.tlh.nextTicket)).acted.answerPath pn { rc := .bgStarted })))) ∧
    (∀ (k : Nat) (x : Bank), d.fmnUp = true → d.tlh.st ≠ .recovery → [0, 1].find? d.spareBank = some k →
      exec (.pldmFwUpdate (.bank x)) s = .next (s.to { d with flash := (d.flash.setBank k x).setDir fun y => { y with pend := k, tries := 0 } })) ∧
    (∀ (k : Fin 8) (x : Pkg), d.fmnUp = true → exec (.pldmFwUpdate (.pilot k x)) s = .next (s.to (d.modPilot k fun q => { q with inst := some x, newPkg := true }))) ∧
    (∀ (a : BitVec 64) (data : Line) (n k : Nat), d.takes pn = true → d.works = true → d.noInj = true → d.role pn = .tenant n → a.toNat % 64 = 0 →
      d.issuerHas (.tenant n) a.toNat 64 = true → d.sharedLine (a.toNat / 64) = false →
      let sl := d.homeOf (a.toNat / 4096)
      (d.ms sl).wharf.find (a.toNat / 64) = some k → ((d.ms sl).wharf.get k).st = .dirty → (d.ms sl).misses = [] →
      ∃ t, exec (.clearPoison p a data {}) s = .next t ∧ t.dev.mem = d.mem ∧ t.dev.pm = d.pm ∧ (t.dev.path pn).ans = .good ∧
        (t.dev.ms sl).wharf.get k = { (d.ms sl).wharf.get k with data := data, pois := false, whole := true, cls := 0, age := 0, pf := false }) ∧
    (d.takes pn = true → d.works = true → d.role pn = .owner → d.tlhBusy = false → (∀ r ∈ d.recList, r.2.st ≠ .offered ∧ r.2.st ≠ .granted) →
      (∀ x ∈ d.mg.paths, x.2.bg = none) →
      ∃ t, exec (.sanitize p) s = .next t ∧ t.dev.mem = d.zeroPools.mem ∧ (t.dev.path pn).ans = { rc := .bgStarted } ∧
        (∀ n, (t.dev.ms n).wharf.lines = [] ∧ (t.dev.ms n).held = []) ∧ ∀ c, c ≠ 0 → (t.dev.ctxOf c).st = .disabled) ∧
    (∀ b : Bg, (d.path pn).bg = some b → d.fmnBusy = false →
      (b.op = .sanitize ∨ (∃ page left, b.op = .scan page left ∧ ∀ x ∈ d.pm.ents, ¬ (page ≤ x.1 ∧ x.1 < page + left)) ∨
        (∃ id, b.op = .maint id ∧ d.rangeActive id = false)) →
      exec (.backgroundComplete p 0 {}) s = .next (s.to (d.endBg pn .success)))

/-- R87 to R92, R368, R371, R372: capacity: staged attributes; an add whose checks pass; the host's response grants what it lists; Granted records are
released by the host and by force, or asked for; an offer is withdrawn. -/
def Obligations.CapacityMovesByItsCommands : Prop :=
  ∀ (s : State) (p : CmdPath), s.dev.atRest = true → s.dev.takes (pathNo p) = true →
    let d := s.dev
    let pn := pathNo p
    let Does := fun (c : Instr) (e : Dev) => (settle d (e.acted.answerPath pn .good)).blow = 0#2048 → exec c s = .next (s.to (settle d (e.acted.answerPath pn .good)))
    let Becomes := fun (c : Instr) (k : Nat) (st : ExtSt) => ∃ t, exec c s = .next t ∧ t.dev.xrec k = { d.xrec k with st := st } ∧
      (∀ j, j ≠ k → t.dev.xrec j = d.xrec j) ∧ (t.dev.path pn).ans = .good
    (∀ (n k : Nat) (x : Nat × Nat), d.role pn = .tenant n →
      (d.recOf n .offered x = some k → (∃ l, d.ext.offers = [{ ld := n, recs := [k], limit := l }]) → Becomes (.addDynamicCapacityResponse p [x]) k .granted) ∧
      (d.recOf n .granted x = some k → (d.xrec k).shared = false → Becomes (.releaseDynamicCapacity p [x]) k .releasing)) ∧
    (d.role pn = .owner →
      (∀ (q : DcReq) (k : Nat), d.works = true → q.ld < 16 → d.extentsOk q.exts = true →
        (d.addChecks q.ld q.tag q.shared (blocksOf q.exts) = none → Does (.initiateDynamicCapacityAdd p q) (d.acceptAdd q.ld q.tag q.shared (blocksOf q.exts))) ∧
        (∀ x, q.exts = [x] → d.recOf q.ld .granted x = some k →
          exec (.initiateDynamicCapacityRelease p q false) s =
            .next (s.to ((d.evHost q.ld .releaseCapacity [k, (d.xrec k).base, (d.xrec k).nblk1 + 1] 4).acted.answerPath pn .good)) ∧
          ((d.xrec k).shared = false → Becomes (.initiateDynamicCapacityRelease p q true) k .releasing))) ∧
      (∀ y : List Byte, y.length = 16 → fld y 0 4 + (fld y 4 4 + 1) ≤ d.regionBlocks → fld y 8 2 < 16384 → fld y 10 1 < 4 → fld y 11 1 < 16 →
        d.on (fld y 11 1) = true → fld y 12 4 = 0 → d.ext.staged = [] →
        exec (.stageExtentAttributes p y) s = .next (s.to (({ d with ext := { d.ext with staged :=
          [{ ld := fld y 11 1, base := fld y 0 4, nblk := fld y 4 4 + 1, near := bits (fld y 10 1) 0 1 = 1, rdonly := bits (fld y 10 1) 1 1 = 1
             ctx := fld y 8 2 }] } } : Dev).acted.answerPath pn .good))) ∧
      (∀ y : List Byte, y.length = 8 → fld y 0 2 < 32768 → fld y 4 4 = 0 → fld y 2 2 = (d.xrec (fld y 0 2)).seq.toNat → (d.xrec (fld y 0 2)).st = .offered →
        let r := d.xrec (fld y 0 2)
        Does (.withdrawOffer p y) ((d.freeRecord (fld y 0 2)).evHost r.ld .dcRelease [fld y 0 2, r.base, r.nblk1 + 1] 4)))

/-- R373, R376, R377 to R385, R463, Tables 12.8 to 12.14: the reading commands of the sets C4h to C9h: each is answered Success with the bytes of its table, as
many whole items as fit the path's limit, and changes nothing else. -/
def Obligations.RhaboindReadsAnswerFromState : Prop :=
  ∀ (s : State) (p : CmdPath) (y : List Byte), s.dev.atRest = true → s.dev.takes (pathNo p) = true →
    let d := s.dev
    let pn := pathNo p
    let r := d.role pn
    let Says := fun (c : Instr) (out : List Byte) => exec c s = .next (s.to (d.answerPath pn (.good out)))
    (y.length = 8 → fld y 0 2 < 32768 → 1 ≤ fld y 2 2 → fld y 2 2 ≤ 2047 → fld y 4 1 < 2 → fld y 6 2 = 0 → fld y 5 1 = 0xFF →
      let ns := d.recNumbers (fld y 0 2) (fld y 4 1 = 1) (match r with | .tenant n => some n | _ => none)
      let got := ns.take (d.fit pn 32 (fld y 2 2))
      Says (.getExtentRecords p y) (le 2 got.length ++ le 2 ((ns[d.fit pn 32 (fld y 2 2)]?).getD 0x8000) ++ zeros 4 ++ got.flatMap fun n => (d.xrec n).enc)) ∧
    (y.length = 8 → fld y 0 2 < 16384 → 1 ≤ fld y 2 2 → fld y 2 2 ≤ 2047 → fld y 4 4 = 0 →
      let ns := (d.ctxSeen r).filter fun c => decide (fld y 0 2 ≤ c)
      let got := ns.take (d.fit pn 32 (fld y 2 2))
      Says (.getContextRecords p y) (le 2 got.length ++ le 2 ((ns[d.fit pn 32 (fld y 2 2)]?).getD 0xFFFF) ++ zeros 4 ++ got.flatMap d.ctxItem)) ∧
    (y.length = 8 → fld y 0 1 < 64 → 1 ≤ fld y 1 1 → fld y 0 1 + fld y 1 1 ≤ 64 → fld y 2 6 = 0 → r = .owner →
      Says (.getClassRecords p y) ((List.range (min (fld y 1 1) (d.limitOf pn / 32))).flatMap fun i => d.classItem (fld y 0 1 + i))) ∧
    (y.length = 8 → 1 ≤ fld y 2 2 → fld y 2 2 ≤ 2730 → fld y 0 2 + fld y 2 2 ≤ 2816 → fld y 4 4 = 0 →
      let k := d.fit pn 24 (fld y 2 2)
      Says (.getParameter p y) (le 2 k ++ zeros 6 ++ (List.range k).flatMap fun i => d.paramItem r (fld y 0 2 + i))) ∧
    (∀ c, y.length = 8 → y = le 4 0 ++ zeros 4 → c = (if d.mg.gen + 1 < 2 ^ 32 then d.mg.gen + 1 else 1) →
      exec (.manifest p y) s = .next (s.to ((({ d with mg := { d.mg with gen := c } } : Dev).modPath pn fun x =>
        { x with snap := some { gen := c, read := d.time, part0 := (d.snapshot r c).1, stream := (d.snapshot r c).2 } }).answerPath pn
          (.good ((d.snapshot r c).1.take (d.limitOf pn)))))) ∧
    (y = [] → r ≠ .operator →
      Says (.getPowerStatus p y) (d.powerSection ++ (List.range 16).flatMap fun n => le 1 (if d.on n then bit (d.ldMoored n) else 0xFF))) ∧
    (r = .owner → d.works = true → y.length = 16 → fld y 0 8 % 4096 = 0 → 1 ≤ fld y 8 4 → fld y 8 4 ≤ 4095 → fld y 12 4 = 0 →
      d.rangeIn (fld y 0 8) (fld y 8 4 * 4096) d.blockUsed = true →
      let k := d.fit pn 16 (fld y 8 4)
      Says (.getPageMapEntries p y)
        (le 4 k ++ le 1 d.pm.epoch.toNat ++ zeros 3 ++ (List.range k).flatMap fun i => bytesOf 16 (d.shownEnt (fld y 0 8 / 4096 + i)).encode)) ∧
    (r = .owner → d.works = true → y.length = 8 → fld y 0 1 = 0 → fld y 1 1 = 0 → fld y 2 2 < 16 → fld y 4 4 = 0 →
      let ns := (List.range (16 - fld y 2 2)).map fun i => fld y 2 2 + i
      let got := ns.take (d.fit pn 32 16)
      Says (.getCapacityStatus p y) (le 2 got.length ++ le 2 ((ns[d.fit pn 32 16]?).getD 0x8000) ++ zeros 4 ++ got.flatMap d.chanItem)) ∧
    (r = .owner → d.works = true → y.length = 8 → fld y 0 1 < 64 → fld y 1 7 = 0 →
      let slice := fun (n : Nat) => le 4 ((d.ms n).wharf.occ (fld y 0 1)) ++ le 2 ((d.ch n).sched.filter fun e => decide (e.cls = fld y 0 1)).length ++ zeros 2
      Says (.getClassOccupancy p y) ((List.range 16).flatMap slice ++ (List.range 16).flatMap fun n => le 4 ((d.ld n).slotsOf (fld y 0 1)))) ∧
    (r = .owner → y.length = 8 → 1 ≤ fld y 4 2 → fld y 4 2 ≤ 1023 → fld y 6 2 = 0 →
      let got := (d.lko.recs.filter fun x => decide (fld y 0 4 ≤ x.seq)).take (d.fit pn 64 (fld y 4 2))
      let newest := (d.lko.recs.map (·.seq)).foldl max 0
      Says (.getFaultRecords p y) (le 2 got.length ++ zeros 2 ++ le 4 (got.getLast?.elim (fld y 0 4) fun x => x.seq + 1) ++
        got.flatMap fun x => x.enc (if x.seq = newest then d.lko.overflow else 0))) ∧
    (r = .owner → y = [] →
      let g := d.gwy
      Says (.getGangwayStatus p y) (le 2 g.vin ++ le 2 g.vout ++ le 2 (g.iin / 10) ++ zeros 2 ++
        (List.range 4).flatMap (fun k => bytesOf 2 (BitVec.ofInt 16 (d.fetTemp k).floor)) ++ le 1 g.st.code ++
        le 1 (bit g.pg + bit g.flt * 2 + bit g.disc * 4 + bit (decide (g.st = .latched)) * 8) ++ le 1 g.retries ++ le 1 g.lastfault ++ zeros 12)) ∧
    (r = .owner → y.length = 8 → fld y 4 4 ≤ 65528 →
      let got := fitEntries (min (fld y 4 4) (d.limitOf pn - 8)) (d.plog.ents.filter fun e => decide (fld y 0 4 ≤ e.lseq))
      let out := got.flatMap PLog.enc
      Says (.getPersistentLog p y) (le 4 (got.getLast?.elim (fld y 0 4) fun e => e.lseq + 1) ++ le 4 out.length ++ out))

/-- R109, R128, R129, R187, R198, R230, R346, R373, R374: the commands of set C4h that change pages, pins, epochs, Adrift lines and host queues. -/
def Obligations.TieringCommandsTakeEffect : Prop :=
  ∀ (s : State) (p : CmdPath) (y : List Byte), s.dev.atRest = true → s.dev.takes (pathNo p) = true → s.dev.role (pathNo p) = .owner → s.dev.works = true →
    let d := s.dev
    let pn := pathNo p
    let Does := fun (c : Instr) (a : Ans) (e : Dev) => exec c s = .next (s.to (e.acted.answerPath pn a))
    (d.pm.sweep = false → (∀ k, (d.pilot k).run = none) →
      let e := d.units.foldl (fun d n => d.modMs n fun x => { x with epoch := d.pm.epoch + 1#4 }) d
      Does (.advanceTallyEpoch p []) (.good (le 1 (d.pm.epoch + 1#4).toNat ++ zeros 7)) { e with pm := { e.pm with epoch := d.pm.epoch + 1#4, sweep := true } }) ∧
    (y.length = 16 → fld y 0 8 % 4096 = 0 → fld y 8 4 = 1 → fld y 12 1 < 2 → fld y 13 3 = 0 → d.rangeIn (fld y 0 8) 4096 d.blockUsed = true →
      let page := fld y 0 8 / 4096
      let v := decide (fld y 12 1 = 1)
      (d.ent page).pin ≠ v → Does (.setPagePin p y) (.good (le 4 1 ++ zeros 4)) (d.setEnt page { d.ent page with pin := v })) ∧
    (y.length = 16 → fld y 0 8 % 64 = 0 → fld y 8 4 = 64 → fld y 12 1 = 1 → fld y 13 3 = 0 → d.rangeIn (fld y 0 8) 64 d.blockUsed = true →
      d.notGranted (fld y 0 8) 64 = none → (d.pin (fld y 0 8 / 64)).1 = true →
      (settle d ((d.pin (fld y 0 8 / 64)).2.acted.answerPath pn (.good (le 4 1 ++ zeros 4 ++ le 8 0xFFFFFFFFFFFFFFFF)))).blow = 0#2048 →
      exec (.wharfPin p y) s = .next (s.to (settle d ((d.pin (fld y 0 8 / 64)).2.acted.answerPath pn (.good (le 4 1 ++ zeros 4 ++ le 8 0xFFFFFFFFFFFFFFFF)))))) ∧
    (∀ op, y.length = 24 → fld y 0 8 % 64 = 0 → fld y 8 8 % 64 = 0 → 1 ≤ fld y 8 8 → fld y 17 7 = 0 → d.rangeIn (fld y 0 8) (fld y 8 8) d.blockUsed = true →
      d.notGranted (fld y 0 8) (fld y 8 8) = none → (d.path pn).bg = none → (fld y 16 1 = 1 ∧ op = .clean ∨ fld y 16 1 = 2 ∧ op = .invalidate) →
      let w := d.startRange op (fld y 0 8 / 64) ((fld y 0 8 + fld y 8 8) / 64 - 1) true {}
      let e := (w.2.startBg pn 0xC407 (.maint w.1)).acted.answerPath pn { rc := .bgStarted }
      (settle d e).blow = 0#2048 → exec (.wharfMaintenance p y) s = .next (s.to (settle d e))) ∧
    (y.length = 24 → fld y 0 8 % 64 = 0 → fld y 8 8 % 64 = 0 → 1 ≤ fld y 8 8 → fld y 16 1 < 2 → fld y 17 7 = 0 → d.rangeIn (fld y 0 8) (fld y 8 8) d.blockUsed = true →
      (∀ x ∈ d.slc, x.2.filt = {}) → Does (.clearAdrift p y) (.good (le 4 0 ++ zeros 4)) d) ∧
    (y.length = 8 → fld y 0 1 = 0xFF → fld y 1 1 < 2 → fld y 2 6 = 0 → (∀ x ∈ d.mg.paths, x.2.bg = none) →
      Does (.pageMapAudit p y) { rc := .bgStarted } (d.startBg pn 0xC409 (.audit d.units (fld y 1 1 = 1)))) ∧
    (y.length = 8 → fld y 0 1 < 16 → d.on (fld y 0 1) = true → fld y 2 6 = 0 →
      (fld y 1 1 = 1 → Does (.setHostQueuePermission p y) .good (d.modBg (fld y 0 1) fun b => { b with hostok := true })) ∧
      (fld y 1 1 = 0 → (d.bg (fld y 0 1)).enable = true → (d.bg (fld y 0 1)).cur = none →
        Does (.setHostQueuePermission p y) .good (d.modBg (fld y 0 1) fun b => { b with hostok := false, enable := false, st := .disabled, stop := false })))

/-- R238, R239, R265, R268, R306, R309, R315, R375 to R380, R391, R459, R465: the commands that enable, disable and rekey contexts, reseal a subtree, set class
records, labels and parameters, acknowledge and inject faults, fence and restore units, and retrain a channel. -/
def Obligations.DeviceSettingsTakeEffect : Prop :=
  ∀ (s : State) (p : CmdPath) (y : List Byte), s.dev.atRest = true → s.dev.takes (pathNo p) = true → s.dev.role (pathNo p) = .owner → s.dev.works = true →
    let d := s.dev
    let pn := pathNo p
    let Does := fun (c : Instr) (a : Ans) (e : Dev) =>
      let e := e.acted.answerPath pn a
      (settle d e).blow = 0#2048 → exec c s = .next (s.to (settle d e))
    (∀ c, y.length = 8 → fld y 0 2 = c → 1 ≤ c → c < 16384 → (d.ctxOf c).st = .disabled → fld y 3 1 = 0 → fld y 6 2 = 0 →
      (fld y 2 1 < 2 → fld y 4 2 = 0 → (fld y 2 1 = 1 → d.sealEn = true) → d.tlhBusy = false →
        let e := d.enableCtx c (fld y 2 1 = 1) false false 0#16
        Does (.enableContext p y) (.good (e.ctxEnc c)) e) ∧
      (fld y 2 1 = 4 → fld y 4 2 ≠ 0 →
        let e := d.modCtx c fun r => { r with st := .awaiting, sld := false, nodma := false, imported := true, mask := BitVec.ofNat 16 (fld y 4 2) }
        Does (.enableContext p y) (.good (e.ctxEnc c)) e)) ∧
    (∀ c, y.length = 8 → fld y 0 2 = c → 1 ≤ c → c < 16384 → fld y 2 6 = 0 → (d.ctxOf c).st ≠ .disabled → d.ctxBlocks c = 0 → d.ctxPages c = 0 → d.tlhBusy = false →
      Does (.disableContext p y) .good (d.disableCtx c)) ∧
    (∀ n c, y.length = 8 → fld y 0 2 = n → n < 32768 → fld y 2 2 = c → c < 16384 → fld y 4 4 = 0 → (d.xrec n).st = .granted → (d.xrec n).shared = false →
      (d.ctxOf c).st = .enabled → (d.ctxOf c).sld = false → (∀ x ∈ d.mg.paths, x.2.bg = none) →
      Does (.rekeyExtent p y) { rc := .bgStarted }
        ((d.modRec n fun x => { x with ctx := c }).startBg pn 0xC503 (.rekey n (d.xrec n).ctx c (d.xrec n).blocks.eraseDups))) ∧
    (∀ sl blk, y.length = 16 → fld y 0 1 = sl → sl < 16 → d.on sl = true → fld y 2 2 = 0 → fld y 4 4 = blk → blk < d.regionBlocks → fld y 12 4 = 0 →
      fld y 1 1 = (d.root sl blk).top → fld y 1 1 = d.sealTop (d.blockNear blk) → fld y 8 4 = 0 → 0 < (d.sealLevels (d.blockNear blk)).getD (fld y 1 1) 0 →
      (d.root sl blk).st = 2#2 →
      let ps := d.pagesUnder sl blk (fld y 1 1) 0
      let e := ps.foldl (fun d q => d.resealPage sl q) d
      let e := (e.modSeal sl (·.dropUnder blk (fld y 1 1) 0)).setParent sl blk (fld y 1 1) 0 0#64 0#64
      let e := e.modSeal sl fun s => { s with roots := tmod {} s.roots blk fun x => { x with floor := s.hw + 1#64 } }
      Does (.resealSubtree p y) (.good (le 4 ps.length ++ zeros 4)) ((e.grantees blk).foldl (fun d n => d.evHost n .resealed ps 1) e)) ∧
    (∀ c (r : ClassRec), y.length = 24 → fld y 0 1 = c → c < 64 → fld y 1 7 = 0 → (y.drop 8).take 16 = r.enc → r = ClassRec.dec (y.drop 8) → r.ok c = true →
      (d.inadmissible fun k => if k = c then r else d.qos.next k) = none →
      Does (.setClassRecord p y) .good { d with qos := { d.qos with pend := tput none d.qos.pend c (some r) } }) ∧
    (∀ n, y.length = 24 → fld y 0 1 = n → n < 16 → d.on n = true → fld y 1 1 = 0 → fld y 2 2 = 1 → fld y 4 4 = 0 → (∀ k, k < 16 → bits (fld y (8 + k) 1) 6 1 = 0) →
      ¬ (bits (fld y 8 1) 7 1 = 1 ∧ bits (fld y 8 1) 0 6 = 0) →
      let e := d.modLd n fun l => { l with acc := { l.acc with lbl := tput {} l.acc.lbl 0 { sc := BitVec.ofNat 6 (fld y 8 1), valid := decide (bits (fld y 8 1) 7 1 = 1) } } }
      e.inadmissible e.qos.next = none → Does (.setLabelTable p y) .good e) ∧
    (∀ id v, y.length = 24 → fld y 0 2 = 1 → fld y 2 6 = 0 → fld y 10 6 = 0 → fld y 8 2 = id → fld y 16 8 = v → id ≠ 0x171 → inRange id v = true →
      conflict (fun k => if k = id then v else d.later k) id = none → d.fixed id = false → d.overCeiling id v = false →
      Does (.setParameter p y) (.good (le 2 (bit (decide (effOf id = .live))) ++ le 2 (1 - bit (decide (effOf id = .live))) ++ zeros 4)) (d.setOne id v)) ∧
    (y.length = 8 → fld y 4 4 = 0 → d.recKnown (fld y 0 4) = true →
      ((∀ r ∈ d.lko.recs, r.seq ≠ fld y 0 4) → exec (.acknowledgeFault p y) s = .next (s.to (d.answerPath pn .good))) ∧
      (∀ r ∈ d.lko.recs, r.seq = fld y 0 4 → r.ack = false → Does (.acknowledgeFault p y) .good (d.ackFault (fld y 0 4)))) ∧
    (y.length = 8 → fld y 0 2 < 2048 → (sourceInfo (fld y 0 2)).isSome = true → fld y 5 3 = 0 → d.p 0x1E2 ≠ 0 →
      (fld y 2 1 = 1 → fld y 3 1 = 0 → fld y 4 1 = 1 → Does (.injectFault p y) .good
        { d with lko := { d.lko with src := tmod {} d.lko.src (fld y 0 2) fun x => { x with force := false } } }) ∧
      (fld y 2 1 = 2 → 1 ≤ fld y 3 1 → hasChecker (fld y 0 2) = true → fld y 4 1 = 0 → Does (.injectFault p y) .good
        { d with lko := { d.lko with src := tmod {} d.lko.src (fld y 0 2) fun x => { x with inj := fld y 3 1 } } })) ∧
    (∀ n lane, y.length = 8 → fld y 1 1 = n → n < 16 → d.on n = true → fld y 2 1 = lane → fld y 3 5 = 0 →
      (fld y 0 1 = 1 → lane < 16 → (d.ld n).link.lanes.getLsbD lane = false → Does (.fenceUnit p y) .good (d.fenceLane n lane)) ∧
      (fld y 0 1 = 3 → lane = 0 → (d.ld n).link.fenced = false → Does (.fenceUnit p y) .good (d.fenceLanding n)) ∧
      (fld y 0 1 = 5 → lane = 0 → (d.ch n).st ≠ .fenced → d.chOk (partner n) = true → Does (.fenceUnit p y) .good (d.fenceChannel n 7)) ∧
      (fld y 0 1 = 3 → lane = 0 → (d.ld n).link.fenced = true →
        Does (.restoreUnit p y) .good (d.modLd n fun l => { l with link := { l.link with st := .reset, fenced := false } }))) ∧
    (∀ c, y.length = 8 → fld y 0 1 = c → c < 16 → d.on c = true → fld y 1 7 = 0 → d.chOk c = true → (∀ x ∈ d.mg.paths, x.2.bg = none) →
      Does (.retrainChannel p y) { rc := .bgStarted } (d.startBg pn 0xC705 (.retrain c)))

/-- R384, R480 to R487, R526, R527: the power states: a landing goes to Moored and back at once; a device entry is prepared and answered at its commit point, where
Moored holds every landing and Laid-up takes the core's power; a wake request leaves Moored; a warm reset is answered at once and made when its preparation is
complete, or as a cold one after 200 ms; a snapshot not read for 60 s is dropped. -/
def Obligations.PowerStatesFollowTheirCommands : Prop :=
  ∀ (s : State) (p : CmdPath), s.dev.tidy = true →
    let d := s.dev
    let pn := pathNo p
    let Ends := fun (c : Instr) (e : Dev) => (settle d e).blow = 0#2048 → exec c s = .next (s.to (settle d e))
    (d.atRest = true → d.takes pn = true → d.role pn = .owner →
      (∀ n : Ld, d.on n = true →
        ((d.ld n).moored = false → (d.ld n).link.st = .up → (d.ld n).aspm = true →
          Ends (.landingToMoored p n) ((d.modLd n fun l => { l with moored := true }).acted.answerPath pn .good)) ∧
        ((d.ld n).moored = true → Ends (.landingToUnderway p n) ((d.modLd n fun l => { l with moored := false }).acted.answerPath pn .good))) ∧
      (d.works = true →
        (d.pwr.st = .underway → d.entryFail 2 = none →
          let r := d.startRange .clean 0 (d.regionBlocks * 2 ^ 22 - 1) false {}
          Ends (.deviceToMoored p) { r.2 with pwr := { r.2.pwr with st := .enterMoored }, mg := { r.2.mg with entry := some { req := 2, path := pn, op := r.1 } } }) ∧
        (d.pwr.st = .underway → d.entryFail 3 = none →
          Ends (.deviceToLaidUp p) ({ d with pwr := { d.pwr with st := .enterLaidUp }, mg := { d.mg with entry := some { req := 3, path := pn, moored := false } } } : Dev).empty.2) ∧
        (d.pwr.st = .moored → Ends (.deviceToUnderway p) (d.leaveMoored.acted.answerPath pn .good)) ∧
        (∀ y : List Byte, y.length = 8 → fld y 0 2 = 0x5752 → fld y 2 6 = 0 →
          Ends (.warmDeviceReset p y) (({ d with mg := { d.mg with warm := some d.time } } : Dev).acted.answerPath pn .good)))) ∧
    (∀ e, d.mg.entry = some e → e.req = 2 → d.entryFail 2 = none →
      let x := d.units.foldl (fun d n => d.rangeDone n e.op) d
      x.rangeActive e.op = false →
      Ends .mooredCommit ((({ x with mg := { x.mg with entry := none }, pwr := { x.pwr with st := .moored } } : Dev).acted.answerPath e.path .good).timingSet true).recompute) ∧
    (∀ e x, d.mg.entry = some e → e.req = 3 → d.entryFail 3 = none → d.prepare = (true, x) →
      let c := (x.syustLogs.acted.answerPath e.path .good).coreOff true
      Ends .laidUpCommit { c with boot := { c.boot with phase := .laidUp } }) ∧
    (∀ x, d.mg.warm.isSome = true → d.prepare = (true, x) → x.fmnBusy = false → x.tlhBusy = false →
      let c := ((x.syustLogs.logMark (0x10, 0, x.syustLogs.time)).coreOff false).beginStart .warm .trust 0x10 0
      Ends .warmResetPreparationDone { c with boot := { c.boot with marks := c.boot.marks.dropLast } }) ∧
    (d.mg.warm.isSome = true → d.fmnBusy = true → Ends .warmResetEscalation (d.coldOff.beginStart .escCold .trust 4 0)) ∧
    (∀ x, (d.path pn).snap = some x → x.read + 60000000000 ≤ d.time → Ends (.manifestSnapshotExpiry p) (d.modPath pn fun x => { x with snap := none }))

/-- R411 to R415, R420, R431, Table 14.2: a monitor call: its block holds the status, the arguments and the results of its function; TM_REGION_SET writes the register,
TM_HOLD the hold bit; a function of the Tollhouse is posted and its ticket given. -/
def Obligations.MonitorCallsFillTheirBlock : Prop :=
  ∀ (s : State) (k : Fin 8), s.dev.atRest = true → s.dev.fmnBusy = false →
    let d := s.dev
    let block := fun (fn : Nat) (args : List Nat) (st : Int) (r0 r1 : Nat) =>
      le 2 fn ++ zeros 2 ++ bytesOf 4 (BitVec.ofInt 32 st) ++ (List.range 5).flatMap (fun i => le 8 (args.getD i 0)) ++ le 8 r0 ++ le 8 r1
    let Calls := fun (c : Instr) (fn : Nat) (args : List Nat) (st : Int) (r0 r1 : Nat) (e : Dev) =>
      ∃ t, exec c s = .next t ∧ (∀ i, i < 64 → tget 0#8 t.dev.sram (callBlock k + i) = (block fn args st r0 r1).getD i 0#8) ∧
        ({ t.dev with sram := d.sram } : Dev) = e
    let Posts := fun (c : Instr) (fn : Nat) (args : List Nat) (img : Img) => tmPre fn (fun i => args.getD i 0) = none → d.tlhBusy = false → d.tlh.reqs.length < 16 →
      Calls c fn args 1 d.tlh.nextTicket 0 (d.post fn ((List.range 5).map fun i => args.getD i 0) img).2
    (∀ img : Img, tget 0#8 d.sram (callBlock k) = 0#8 → tget 0#8 d.sram (callBlock k + 1) = 0#8 →
      Calls (.mcall none k img) 0 [] 0 d.fmn.mon.ver.toNat d.tlh.fw.ver.toNat d) ∧
    Calls (.tmVersion k) 0 [] 0 d.fmn.mon.ver.toNat d.tlh.fw.ver.toNat d ∧
    (∀ (n : BitVec 64) (x : Ticket) (st : Int), (d.tlh.tickets.find? fun t => decide (t.id = n.toNat)) = some x → x.status = some st →
      Calls (.tmResult k n) 1 [n.toNat] st x.res0 x.res1 d) ∧
    (∀ m r : BitVec 64, m.toNat < 5 → r.toNat < 16 →
      (∀ lo hi : BitVec 64, rgnFused m.toNat r.toNat = false → rgnLock (d.region m.toNat r.toNat) = false →
        Calls (.tmRegionSet k m r lo hi) 2 [m.toNat, r.toNat, lo.toNat, hi.toNat] 0 0 0
          { d with rgn := tput 0#128 d.rgn (16 * m.toNat + r.toNat) (BitVec.ofNat 128 (lo.toNat + hi.toNat * 2 ^ 64) &&& rgnMask) }) ∧
      Calls (.tmRegionGet k m r) 3 [m.toNat, r.toNat] 0 ((d.region m.toNat r.toNat).toNat % 2 ^ 64) ((d.region m.toNat r.toNat).toNat / 2 ^ 64) d) ∧
    (∀ n v : BitVec 64, n.toNat < 38 → v.toNat < 2 → (v.toNat = 0 → d.fusedHold.getLsbD n.toNat = false) →
      Calls (.tmHold k n v) 4 [n.toNat, v.toNat] 0 0 0 { d with pwr := { d.pwr with hold := setBit d.pwr.hold n.toNat (decide (v.toNat = 1)) } }) ∧
    Calls (.tmTlhStatus k) 0xD [] 0 (d.tlh.st.code + d.tlh.restarts * 2 ^ 16) d.tlh.log.length d ∧
    (∀ a b c e : BitVec 64, Posts (.tmCtxEnable k a b c) 5 [a.toNat, b.toNat, c.toNat] {} ∧ Posts (.tmCtxDisable k a) 6 [a.toNat] {} ∧
      (∀ img : Img, Posts (.tmImgVerify k a b c e img) 7 [a.toNat, b.toNat, c.toNat, e.toNat] img) ∧ Posts (.tmArbCommit k a b) 8 [a.toNat, b.toNat] {} ∧
      Posts (.tmMeasure k a b c) 9 [a.toNat, b.toNat, c.toNat] {} ∧ Posts (.tmSpdmXfer k a b c e) 0xA [a.toNat, b.toNat, c.toNat, e.toNat] {} ∧
      Posts (.tmRandom k a b) 0xB [a.toNat, b.toNat] {} ∧ ∀ ok, Posts (.tmDebugUnlock k a b ok) 0xC [a.toNat, b.toNat] { sigOk := ok })

/-- R270, R412, R413, R415, R421, R427 to R431: the Tollhouse serves its oldest request and blows the fuses of an anti-rollback commit; a ticket times out; the
Tollhouse restarts alone and comes back; PWR.REQ stops and starts clocks and power but for held slices; a debug read is served or gives zeros and a log entry. -/
def Obligations.TollhouseServesAndRestarts : Prop :=
  ∀ s : State,
    let d := s.dev
    let Ends := fun (c : Instr) (e : Dev) => (settle d e).blow = 0#2048 → exec c s = .next (s.to (settle d e))
    (d.tlhBusy = false → d.fmn.st ≠ .quiescing → ∀ (q : TlhReq) (qs : List TlhReq), d.tlh.reqs = q :: qs →
      (q.fn ≠ 8 → (d.tlhDo q).2.fmn = d.fmn →
        Ends .tollhouseResponse ((d.tlhDo q).2.endTicket q.ticket (d.tlhDo q).1.1 (d.tlhDo q).1.2.1 (d.tlhDo q).1.2.2)) ∧
      (d.atRest = true → q.fn = 8 → q.args.getD 0 0 = 1 → d.arbf ≤ q.args.getD 1 0 → q.args.getD 1 0 ≤ 64 →
        ∃ t, exec .tollhouseResponse s = .next t ∧ t.otp.map = s.otp.map ||| d.arbBits 1 (q.args.getD 1 0) ∧ t.dev.fz = d.fz ||| d.arbBits 1 (q.args.getD 1 0) ∧
          t.dev.tlh = (d.endTicket q.ticket 0 (q.args.getD 1 0) 0).tlh)) ∧
    (∀ n, d.fmn.st ≠ .quiescing → (d.tlh.reqs.any fun q => decide (q.ticket = n)) = true → Ends (.ticketTimeout n) (d.endTicket n (-3) 0 0)) ∧
    (d.tlh.st = .running → Ends .heartbeatTimeout
      (({ d with tlhBusy := true, tlh := { d.tlh with st := .restarting, restarts := satAdd 0xFFFF d.tlh.restarts 1, spdm := [] } } : Dev).report { src := 0x6A0 })) ∧
    (∀ i : Img, d.tlh.st = .restarting → (d.flash.bank d.boot.bank).tlh = some i → d.imgOk i d.arbt = true → (∀ n, (d.ld n).doe = 0) →
      let e := (d.measureRestart i.digest).reconcile
      (∀ n, (e.ld n).doe = 0) →
      Ends (.tollhouseRestartComplete true) { e with tlhBusy := false, tlh := { e.tlh with st := .running }, fmn := { e.fmn with since := e.time } }) ∧
    (∀ n : Fin 64, d.atRest = true → d.fmnBusy = false → (if n.val < 16 then d.on n else if n.val < 32 then d.on (n.val - 16) else decide (n.val < 38)) = true →
      let set := fun (a : Nat) (clk pwr : List Nat) => ({ d with pwr := { d.pwr with target := n, action := a, result := 1, clkOff := clk, pwrOff := pwr } } : Dev)
      (d.secHold.getLsbD n = false → (n.val ∉ d.pwr.clkOff → exec (.stopClock n) s = .next (s.to (set 0 (d.pwr.clkOff ++ [n.val]) d.pwr.pwrOff))) ∧
        (n.val ∉ d.pwr.pwrOff → exec (.removePower n) s = .next (s.to (set 2 d.pwr.clkOff (d.pwr.pwrOff ++ [n.val]))))) ∧
      exec (.startClock n) s = .next (s.to (set 1 (d.pwr.clkOff.filter (· ≠ n.val)) d.pwr.pwrOff)) ∧
      exec (.restorePower n) s = .next (s.to (set 3 d.pwr.clkOff (d.pwr.pwrOff.filter (· ≠ n.val))))) ∧
    (d.atRest = true →
      (∀ (g : DbgTarget) (bs : List Byte), d.dbgLock = 0 → d.debugGet g = (some bs, d) → exec (.debugRead g) s = .next (s.to { d with dbgOut := bs })) ∧
      (∀ g : DbgTarget, (d.dbgLock = 3 ∨ d.debugGet g = (none, d)) →
        exec (.debugRead g) s =
          .next (s.to { d with dbgOut := zeros (dbgSize g), plog := d.plog.add 3 none [(dbgPlace g).1, (dbgPlace g).2] 24 })))

/-- R434 to R439: the API of a running Pilot module: each call counts, gives its status and values, and does what it asks for; a tick of the scheduler counts
callback and window time; a new package is loaded at the callback's return, and a faulted module a second later. -/
def Obligations.PilotModulesRun : Prop :=
  ∀ (s : State) (k : Fin 8) (pk : Pkg), s.dev.tidy = true → s.dev.fmnUp = true →
    let d := s.dev
    let p := d.pilot k
    let Ends := fun (c : Instr) (e : Dev) => (settle d e).blow = 0#2048 → exec c s = .next (s.to (settle d e))
    let once := d.modPilot k fun p => { p with calls := p.calls + 1 }
    let Gives := fun (c : Instr) (r : Int) (v : List Nat) (e : Dev) => Ends c (e.modPilot k fun p => { p with ret := r, val := v })
    (p.run = some pk → p.wait = none → p.calls < 20000 →
      Gives (.pltTime k) 0 [d.time] once ∧ Gives (.pltScratchBase k) 0 [p.scrBase] once ∧
      (∀ n, n < 512 → Gives (.pltCounterRead k n) 0 [pairValue d.ctr n] once) ∧
      (∀ (l : Nat) (m : List Byte), m.length ≤ 256 → Gives (.pltLog k l m) 0 [] (once.modPilot k fun p => { p with log := p.log ++ [(l % 256, m)] })) ∧
      (∀ ns : BitVec 64, (∀ e es, p.events = e :: es → Gives (.pltEventWait k ns) 0 [e.1, e.2] (once.modPilot k fun p => { p with events := es })) ∧
        (p.events = [] → Gives (.pltEventWait k ns) 0 [] ((once.callbackEnds k).modPilot k fun p => { p with wait := some ns.toNat }))) ∧
      (∀ (op : BitVec 16) (y : List Byte), y.length ≤ 65536 → p.cmds < 2000 →
        let e := (once.modPilot k fun p => { p with cmds := p.cmds + 1 }).operatorCmd (49 + k) op.toNat y
        Gives (.pltCmd k op y) 0 [(e.path (49 + k)).ans.rc.code, (e.path (49 + k)).ans.dcode] e) ∧
      (∀ n, let free := (List.range 64).filter fun c =>
          decide (16 ≤ c) && decide (c ≤ 62) && decide ((d.bg c).owner = .syust) && decide ((d.bg c).st ∈ [.disabled, .stopped]) && (d.bg c).cur.isNone
        1 ≤ n → (d.channelsOf k).length + n ≤ 8 → ((List.range 64).filter fun c => decide ((d.bg c).owner = .pilot)).length + n ≤ d.p 0x241 → n ≤ free.length →
        Gives (.pltBargeClaim k n) 0 (free.take n) ((free.take n).foldl (fun d c => d.giveChannel k c) once)) ∧
      (∀ c, (d.bg c).slot = some k.val → Gives (.pltBargeRelease k c) 0 [] (once.modBg c fun b => b.stopNow.release) ∧
        (∀ xs e, (∀ x ∈ xs, mayIssue (.pilot k) (parseDesc x).2 = true) → once.postRing (.qp k) c xs = (true, e) → Gives (.pltBargePost k c xs) 0 [] e)) ∧
      (∀ pages e, pages.length ≤ 4096 → (∀ a ∈ pages, a % 4096 = 0 ∧ a < 2 ^ 45) → (d.bg 63).space = 1 →
        pages.length + ((d.bg 63).tail - (d.bg 63).head).toNat ≤ (d.bg 63).ringSize → once.postRing .qs 63 (pages.map packDesc) = (true, e) →
        Gives (.pltBallastPost k pages) 0 [] e) ∧
      (∀ ns, (∀ j, j ≠ k.val → (d.pilot j).run = none) → p.used + ns ≤ 10000000 → p.cb.getD 0 + 1000000 ≤ 10000000 → p.secTicks < 999 → p.winTicks < 99 →
        Ends (.pilotSchedulerTick [{ slot := k, ns }]) (d.modPilot k fun p =>
          { p with used := p.used + ns, cb := p.cb.map (· + 1000000), secTicks := p.secTicks + 1, winTicks := p.winTicks + 1 }))) ∧
    (p.inst = some pk → d.pilotsOn = true →
      (p.newPkg = true → ∀ e, ((((d.stopModule k).clearRegions k).modPilot k fun p => { p with newPkg := false, held := false, scrBase := 0, scrLen := 0 }).loadModule k pk false)
          = (none, e) → Ends (.pilotPackageActivation k) e ∧ (e.pilot k).run = some pk) ∧
      (p.run = none → p.held = false → p.faults ≠ [] → ∀ e, d.loadModule k pk false = (none, e) → Ends (.pilotRestart k) e ∧ (e.pilot k).run = some pk))

/-- R20, R39, R226, R441 to R443, R447 to R450, R459 to R465: faults: a source's report makes its record; a broken wire makes the source's record and the wire's own; a force bit
is set and cleared; a stopped slip and an unanswered snoop are reported; a lost keep-alive is retained, and delivered when the mooring link comes up; the
Ferryman's return logs the records. -/
def Obligations.FaultsAreRecorded : Prop :=
  ∀ s : State, s.dev.atRest = true → s.dev.coreOn = true →
    let d := s.dev
    let Ends := fun (c : Instr) (e : Dev) => (settle d e).blow = 0#2048 → exec c s = .next (s.to (settle d e))
    let Adds := fun (c : Instr) (rs : List FRec) => ∃ t, exec c s = .next t ∧ t.dev.lko.recs = rs ∧ t.dev.lko.next = d.lko.next + rs.length ∧ t.dev.mem = d.mem ∧
      t.dev.slc = d.slc ∧ t.dev.pm = d.pm ∧ t.pending = s.pending ∧ t.otp = s.otp
    (∀ (src : Fin 2048) (i : SInfo), d.fmnBusy = true → d.lko.recs = [] → sourceInfo src = some i → i.fence = none → d.srcOn src = true →
      let r : FRec := { seq := d.lko.next, src, arr := d.arrival src i, fin := d.arrival src i, time := d.time, path := sourcePath src i.unit, early := !d.active }
      d.arrival src i ≠ .fatal →
      (∀ (d0 d1 : BitVec 64) (full : Bool), src.val ∉ [0x682, 0x683, 0x6A0, 0x6A1, 0x6A4] → Adds (.faultReport src d0 d1 full) [{ r with
        dnc := full, det0 := if full then 0 else (detailOf src d0.toNat d1.toNat).1, det1 := if full then 0 else (detailOf src d0.toNat d1.toNat).2 }]) ∧
      ((tget {} d.lko.src src).wiref = false →
        Adds (.wireBroken src) [{ r with dnc := true }, { r with seq := d.lko.next + 1, arr := .corrected, fin := .corrected, wire := true }])) ∧
    (∀ src : Fin 2048,
      exec (.wireRestored src) s = .next (s.to { d with lko := { d.lko with src := tmod {} d.lko.src src fun x => { x with wiref := false, asrt := false } } }) ∧
      ((sourceInfo src).isSome = true → ∀ b : Bool, (b = true → d.p 0x1E2 ≠ 1) →
        exec (.sourceForce src b) s = .next (s.to { d with lko := { d.lko with src := tmod {} d.lko.src src fun x => { x with force := b } } }))) ∧
    ((∀ r ∈ d.lko.recs, r.src ≠ 0x740 ∧ r.src ≠ 0x741) → d.moor.ret.length < 16 →
      exec .keepAliveTimeout s = .next (s.to { d with moor := { d.moor with ret := d.moor.ret ++ [{ src := 0x702, time := d.time, array := 0 }] }, fatalN := true })) ∧
    (∀ (x : Reten) (i : SInfo), d.fmnBusy = true → d.lko.recs = [] → d.moor.linkUp = false → d.moor.ret = [x] → sourceInfo x.src = some i →
      Adds .mooringLinkUp [{ seq := d.lko.next, src := x.src, arr := d.arrival x.src i, fin := d.arrival x.src i, time := x.time, echo := x.echo
                             echoed := decide (x.echo ≠ 0), kept := true, early := true, det0 := x.det0, det1 := x.det1
                             path := { sourcePath x.src i.unit with array := x.array, depth := if x.array = 0 then (sourcePath x.src i.unit).depth else 2 } }]) ∧
    (d.fmnBusy = true → d.fmn.st ≠ .booting → d.activating = none → (∀ k, (d.pilot k).run = none) → d.pm.latched = [] → d.qos.latched = [] →
      (∀ x ∈ d.chn, x.2.retQ = []) →
      ∃ t, exec .ferrymanRestart s = .next t ∧ t.dev.fmnBusy = false ∧ t.dev.fmn = { d.fmn with st := .running, restarts := satAdd 0xFFFF d.fmn.restarts 1, since := d.time } ∧
        (∀ r ∈ t.dev.lko.recs, r.held = true) ∧ t.dev.mem = d.mem) ∧
    (∀ (a b c : Island) (byR : Bool) (cls phase src : Nat), slipSource a = some src → src ∉ [0x683, 0x6A4] → d.srcOn src = true →
      (islandPath b, islandPath c) ∉ d.lko.stopped →
      Ends (.slipStop a b c byR cls phase) (({ d with lko := { d.lko with stopped := d.lko.stopped ++ [(islandPath b, islandPath c)] } } : Dev).report
        { src, det0 := bit byR + 2 * (cls % 16), det1 := phase, path2 := some (if byR then islandPath c else islandPath b) })) ∧
    (∀ (n : Ld) (line : BitVec 39), d.on n = true → ((d.ld n).coh.snoops.any fun x => decide (x.line = line.toNat)) = true →
      let e := d.report { src := ldSrc n 8, det0 := line.toNat * 64, det1 := d.detA (line.toNat * 64), dpa := some (line.toNat * 64) }
      Ends (.tbirspExpiry n line) e ∧ (d.lko.recs = [] → d.arrival (ldSrc n 8) { cls := .contained, fence := some .landing } = .contained →
        e.fenceQ = [{ target := .landing, inst := n, sub := 0, seq := d.lko.next }]))

/-- R407, R471 to R473, R477 to R479, R484, R488, R492, R493: the counter window, device time under PTM, the sensors, the throttle steps, the thermal trip, L1 entry and the wakes. -/
def Obligations.TelemetryAndWakes : Prop :=
  ∀ s : State, s.dev.atRest = true → s.dev.coreOn = true →
    let d := s.dev
    let Ends := fun (c : Instr) (e : Dev) => (settle d e).blow = 0#2048 → exec c s = .next (s.to (settle d e))
    let T := fun (c : Instr) (t : Tele) (time : Nat) => exec c s = .next (s.to { d with tele := t, time })
    (d.p 0x220 = d.tele.winlen → Tbl.rises d.tele.pages = true → Tbl.rises d.tele.ldm = true →
      let time := (d.time / d.tele.winlen + 1) * d.tele.winlen
      ∃ t, exec .counterWindowBoundary s = .next t ∧ t.dev.time = time ∧ t.dev.tele.epoch = d.tele.epoch ∧ t.dev.mem = d.mem ∧ t.dev.lnd = d.lnd ∧
        ∀ n ∈ d.units, tget {} t.dev.tele.pages n = (tget {} d.tele.pages n).update time (d.p (0x210 + n)) (tget {} d.tele.ldm n).latch) ∧
    (∀ (n : Nat) (off : Int), d.timeSource = some n → off.natAbs < 1000000 →
      T (.ptmDialog off) { d.tele with sync := true, src := n, offset := BitVec.toInt (BitVec.ofInt 32 off), slew := off, slewAge := 0, dialog := d.time } d.time) ∧
    T .ptmSyncTimeout { d.tele with sync := false, src := 0xFF, slew := 0, slewAge := 0 } d.time ∧
    (∀ (vals : List Int) (k : Nat), k < 22 → Tbl.rises d.tele.sens = true → ∀ v, vals[k]? = some v →
      ∃ t, exec (.sensorSample vals) s = .next t ∧ tget (0, false) t.dev.tele.sens k = (BitVec.toInt (BitVec.ofInt 12 v), !d.sensorBad k)) ∧
    (∀ (k : Nat) (v : Int), d.hottest = some (k, v) → (∀ c ∈ d.units, ¬ d.p 0x19D < 10 * (d.ch c).temp) →
      ((d.p 0x82 : Int) < v → (∀ c ∈ d.units, d.step c ≠ 0) →
        Ends .throttleStepRise ({ d with pwr := { d.pwr with jact := true, jstep := min 7 (d.pwr.jstep + 1) } } : Dev).recompute) ∧
      (v + 50 ≤ (d.p 0x82 : Int) → (∀ c ∈ d.units, (d.ch c).dimmStep = 0) →
        Ends .throttleStepFall ({ d with pwr := { d.pwr with jact := false, jstep := d.pwr.jstep - 1 } } : Dev).recompute)) ∧
    (∀ k, k < 22 → d.pwr.trip = false →
      Ends (.thermtrip k) (({ d with pwr := { d.pwr with trip := true } } : Dev).report { src := 0x7C1, path := some (sensorPath k) })) ∧
    (∀ n : Ld, d.on n = true → d.ldMoored n = true → (d.ld n).aspm = true → (d.ld n).link.st = .up →
      exec (.aspmL1Entry n) s = .next (s.to (d.modLd n fun l => { l with link := { l.link with l1 := true } }))) ∧
    (d.pwr.st = .moored →
      let woken := fun (d : Dev) (b n : Nat) => ({ d with pwr := { d.pwr with wake := setBit d.pwr.wake b true, wakeLd := n } } : Dev).leaveMoored
      (d.moor.i3c.isSome = true → bits (d.p 0x80) 0 1 = 1 → Ends .i3cAddressMatch (woken d 0 d.pwr.wakeLd)) ∧
      (∀ (k : Fin 4) (ns : Nat), bits (d.p 0x80) (k + 1) 1 = 1 → 1000 ≤ ns →
        Ends (.wakePin k (decide (bits (d.p 0x81) k 1 = 1)) ns) (woken d (k + 1) d.pwr.wakeLd)) ∧
      (∀ n : Ld, d.on n = true → (d.ld n).link.l1 = true → bits (d.p 0x80) 5 1 = 1 →
        Ends (.linkActivityWake n) (woken (d.modLd n fun l => { l with link := { l.link with l1 := false } }) 5 n)))

/-- R494 to R510, Tables 18.1 to 18.5: the Gangway from presence to PG; its limit and breaker; a trip with its retention record; retries; a shorted FET; a lost PG and lost auxiliary
power, which leave a device without memory; the board fuse bank, which only grows. -/
def Obligations.GangwayFollowsItsTable : Prop :=
  ∀ s : State, s.dev.atRest = true →
    let d := s.dev
    let g := d.gwy
    let Gw := fun (c : Instr) (g : Gwy) => exec c s = .next (s.to { d with gwy := g })
    let Trips := fun (c : Instr) (code src array : Nat) (vin vout iin : Nat) => ∃ t, exec c s = .next t ∧ t.dev.gwy.st = (if d.p 0xC7 = 1 ∧ 0 < g.retries then .cooling else .latched) ∧
      t.dev.gwy.flt = true ∧ t.dev.gwy.lastfault = code ∧ t.dev.gwy.vin = vin ∧ t.dev.gwy.vout = vout ∧ t.dev.gwy.iin = iin ∧
      t.dev.moor.ret = d.moor.ret ++ [{ src, time := d.time, array }] ∧ t.dev.mem = d.mem
    (d.boot.phase = .off → ∃ t, exec .auxPowerApplied s = .next t ∧ t.dev.boot.phase = .aux ∧ t.dev.gwy.st = .standby ∧ t.dev.prm = boardParams s.otp.board.toNat ∧
      t.dev.gwy.retries = t.dev.p 0xC8 ∧ t.dev.moor.ret = [] ∧ t.dev.mem = [] ∧ t.dev.active = false ∧ t.otp = s.otp) ∧
    (d.boot.phase ≠ .off →
      (∃ t, exec .auxPowerLost s = .next t ∧ t.dev.boot.phase = .off ∧ t.dev.gwy = {} ∧ t.dev.mem = [] ∧ t.dev.nonce = 0#256 ∧ t.dev.active = false ∧
        t.dev.flash = d.flash ∧ t.dev.plog = d.plog) ∧
      (∀ vin, g.st = .standby → g.interval = true → d.fetsCool = true → 10200 < vin → vin < 14000 →
        Gw (.presenceQualified vin) { g with present := true, vin, vinOk := true, st := .ramping, n := d.p 0xC4 }) ∧
      (g.pg = false → g.st ≠ .shorted → Gw .boardPull { g with present := false, retries := d.p 0xC8, st := .standby, atLimit := false, brk := 0, flt := false, lastfault := 7 } ∧
        ∀ vin, (vin < 9600 ∨ 14500 < vin) →
          Gw (.vinOutOfRange vin) { g with vin, vinOk := false, st := .inputFault, atLimit := false, brk := 0, lastfault := if vin < 9600 then 5 else 6 }) ∧
      (∀ vin, 10200 < vin → vin < 14000 → g.st = .inputFault → g.present = false → Gw (.vinRecovered vin) { g with vin, vinOk := true, st := .standby }) ∧
      (∀ vout, g.st.gate = false → g.st ≠ .shorted → 1000 < vout → d.moor.ret.length < 16 →
        exec (.fetShort vout) s = .next (s.to { d with
          gwy := { g with st := .shorted, flt := true, disc := true, lastfault := 4, vout }
          moor := { d.moor with ret := d.moor.ret ++ [{ src := 0x783, time := d.time, array := 0 }] } })) ∧
      (∀ vin vout i (diode : Int), g.n = 0 → Gw (.fetModelUpdate vin vout i diode) { g with vin, vout, iin := i })) ∧
    (∀ vin vout, g.st = .ramping → vin ≤ vout + 500 → Gw (.rampComplete vin vout) { g with st := .qualifying, vin, vout }) ∧
    (∀ vin, g.st = .qualifying → g.atLimit = false → Gw (.pgAssert vin) { g with st := .on, pg := true, pgTh := vin * 9 / 10, vin }) ∧
    (∀ i, g.st.gate = true → d.p 0xC1 ≤ i → Gw (.currentLimitReached i) { g with st := .limiting, atLimit := true, iin := d.p 0xC1 }) ∧
    (∀ (held : Nat) (clear : Bool), g.st = .limiting →
      Gw (.currentBelowLimit held clear) { g with st := if g.pg then .on else .qualifying, atLimit := false, brk := if clear then 0 else g.brk + held }) ∧
    (∀ held, g.st = .limiting → g.brk + held < d.p 0xC2 → Gw (.breakerTrip held) { g with brk := g.brk + held }) ∧
    (g.pg = false → d.moor.ret.length < 16 →
      (∀ held, g.st = .limiting → d.p 0xC2 ≤ g.brk + held → Trips (.breakerTrip held) 1 0x780 0 g.vin g.vout g.iin) ∧
      (∀ i, g.st.gate = true → d.p 0xC3 * d.p 0xC1 < 10 * i → Trips (.fastTrip i) 2 0x781 0 g.vin g.vout g.iin)) ∧
    (g.st = .cooling → d.fetsCool = true → Gw .retryStart { g with interval := true, st := .ramping, retries := g.retries - 1, flt := false }) ∧
    (g.pg = true → Gw .retryReload { g with retries := d.p 0xC8 } ∧
      ∀ vout, vout < g.pgTh → d.boot.phase ≠ .aux → ∃ t, exec (.pgFall vout) s = .next t ∧ t.dev.gwy = { g with lastfault := 8, vout, pg := false } ∧ t.dev.boot.phase = .aux ∧
        t.dev.boot.pgFell = true ∧ t.dev.mem = [] ∧ t.dev.nonce = 0#256 ∧ t.dev.active = false ∧ t.dev.flash = d.flash) ∧
    (∀ v : BitVec 320, d.boardOpen = true → exec (.boardFuseProgram v) s = .next { s with otp := { s.otp with board := s.otp.board ||| v } })

/-- R421 to R425, R511 to R525, R532: a start: the core die is released; the Tollhouse senses the fuses, draws the nonce and starts an accepted bank; Syust releases the landings; channels
train; the self-tests end; the device becomes Active; an hour later the fused counts are raised; a rail failure keeps or puts the core die in reset. -/
def Obligations.StartRunsItsSteps : Prop :=
  ∀ s : State, s.dev.atRest = true →
    let d := s.dev
    (d.boot.phase = .aux → d.gwy.pg = true →
      exec .coreRailTimeout s = .next (s.to { d with fatalN := true, boot := { d.boot with railFail := true } }) ∧
      (d.boot.railFail = false → ∀ spi : Fin 4,
        (∃ t, exec (.coreResetRelease true spi) s = .next t ∧ t.dev.boot = { d.boot with phase := .test, testen := true, spimode := spi } ∧ t.dev.fatalN = true) ∧
        (d.pwr.trip = false → d.boot.pgFell = true → ∃ t, exec (.coreResetRelease false spi) s = .next t ∧ t.dev.boot.phase = .trust ∧ t.dev.boot.kind = .pgCold ∧
          t.dev.fatalN = false ∧ t.dev.boot.marks = d.boot.marks ++ [(2, d.gwy.lastfault, d.time)] ∧ t.dev.boot.spimode = spi))) ∧
    (d.boot.phase = .active → ∃ t, exec .coreRailLost s = .next t ∧ t.dev.boot = { d.boot with phase := .aux, railLost := true } ∧ t.dev.mem = [] ∧ t.dev.active = false ∧
      t.dev.nonce = 0#256 ∧ t.dev.flash = d.flash ∧ t.dev.gwy = d.gwy) ∧
    (d.boot.phase = .trust → d.tlh.st = .booting → d.boot.kind = .auxCold ∨ d.boot.kind = .pgCold → d.lko.recs = [] → d.fmnBusy = true →
      let fz := s.otp.map &&& ~~~(BitVec.ofNat 2048 ((2 ^ 256 - 1) * 2 ^ 256))
      let e := d.sense s.otp.map
      let b := e.flash.dir.active % 2
      2 ≤ e.flash.dir.pend → e.bankOk b = true →
      ∃ t, exec (.tollhouseBoot true true) s = .next t ∧ t.dev.boot.phase = .starting ∧ t.dev.boot.bank = b ∧ t.dev.boot.trial = false ∧ t.dev.tlh.st = .running ∧ t.dev.tlhBusy = false ∧
        t.dev.fz = fz ∧ t.dev.nonce = Config.drbg (d.draws + 1) ∧ t.dev.fmn.st = .booting ∧ t.dev.fmnBusy = true) ∧
    (d.boot.phase = .starting → d.boot.released = false → d.boot.kind = .auxCold → d.lko.recs = [] → (∀ x ∈ d.chn, x.2.retQ = []) → ∀ ok : Bool,
      ∃ t, exec (.landingsReleased ok) s = .next t ∧ t.dev.fmnBusy = false ∧ t.dev.fmn.st = .running ∧ t.dev.boot.released = true ∧ t.dev.boot.marks = [] ∧ t.dev.boot.phase = .starting ∧
        t.dev.mg.pold = t.dev.p 0x1E0 ∧ t.dev.mem = d.mem) ∧
    (d.boot.phase = .starting → d.boot.released = true →
      (∀ (c : Ch) (x : SpdRead), d.on c = true → c.val ∉ d.boot.chDone → (d.ch c).st ≠ .fenced → x.ok = true → d.boot.kind.keeps = false →
        (x.gib = 0 → exec (.channelBringUpComplete c x) s =
          .next (s.to (({ d with boot := { d.boot with chDone := d.boot.chDone ++ [c.val] } } : Dev).modCh c fun y => { y with pop := {}, st := .absent }))) ∧
        (x.gib ≠ 0 → x.dpc ≠ 0 → d.flash.repair = [] → d.flash.hppr = [] → d.boot.chDone = [] → d.cacheValid c x.serial = false → x.trainA = true → x.trainB = true → x.checkOk = true →
          ∃ t, exec (.channelBringUpComplete c x) s = .next t ∧ (t.dev.ch c).st = .active ∧ (t.dev.ch c).pop = SpdRead.pop x ∧ (t.dev.ch c).speed = (d.setSpeeds (SpdRead.pop x) x.reach).1 ∧
            (∀ m, m ≠ c.val → t.dev.ch m = d.ch m) ∧ t.dev.boot.chDone = [c.val])) ∧
      (d.boot.sramDone = false → exec (.sramSelfTestComplete []) s = .next (s.to { d with boot := { d.boot with sramDone := true } })) ∧
      (d.boot.sramDone = true → d.boot.laneDone = false → (d.flash.bank d.boot.bank).vec = true →
        exec (.laneSelfTest []) s = .next (s.to { d with boot := { d.boot with laneDone := true } })) ∧
      (d.boot.sramDone = true → d.boot.laneDone = true → d.units.all (fun c => decide (c ∈ d.boot.chDone)) = true → d.startBlocked = none → d.boot.kind.keeps = false → d.ext = {} →
        (∀ k, (d.pilot k).inst = none) → ∀ a b : Bool, ∃ t, exec (.memoryActive a b) s = .next t ∧ t.dev.active = true ∧ t.dev.boot.phase = .active ∧ t.dev.pwr.st = .underway ∧
          t.dev.std = true ∧ t.dev.pm.segs = min d.regionBlocks (4 * d.installed / 2 ^ 28) ∧ ∀ n ∈ d.units, (t.dev.ld n).memActive = true)) ∧
    (d.active = true → d.fmnUp = true → d.boot.arbDone = false → d.tlhBusy = false → d.tlh.reqs = [] → d.arbf < min d.fmn.sy.svn d.fmn.mon.svn → d.tlh.fw.svn ≤ d.arbt →
      exec .arbCommitTimer s = .next (s.to (({ d with boot := { d.boot with arbDone := true } } : Dev).post 8 [1, min d.fmn.sy.svn d.fmn.mon.svn] {}).2))

/-- R13, R14, R402, R405, R425, R432, R488, R540, R545: reference clocks come and go; an instruction at the test port takes a channel's balls; the registers that software writes take exactly
their fields; an SPDM request over MCTP or a DOE is answered by the responder; a debug unlock ends. -/
def Obligations.ClocksRegistersAndSpdm : Prop :=
  ∀ s : State, s.dev.atRest = true →
    let d := s.dev
    let To := fun (c : Instr) (e : Dev) => exec c s = .next (s.to e)
    let Ends := fun (c : Instr) (e : Dev) => (settle d e).blow = 0#2048 → exec c s = .next (s.to (settle d e))
    (∀ p : Fin 8, (d.boot.released = false ∨ p.val ∈ d.moor.clkLost) → To (.refclkAppear p) { d with moor := { d.moor with clk := tput false d.moor.clk p true } }) ∧
    (∀ p : Fin 8, tget false d.moor.clk p = true → d.coreOn = true → d.on (2 * p) = true → d.on (2 * p + 1) = true → (d.ld (2 * p)).link.st ≠ .absorbed →
      p.val ∉ d.moor.clkLost →
      let e : Dev := { d with moor := { d.moor with clk := tput false d.moor.clk p false, clkLost := d.moor.clkLost ++ [p.val] } }
      let e := e.report { src := ldSrc (2 * p) 0x0A }
      (e.ld (2 * p + 1)).link.st ≠ .absorbed → e.on (2 * p + 1) = true → Ends (.refclkLost p) (e.report { src := ldSrc (2 * p + 1) 0x0A })) ∧
    (∀ c, d.boot.phase ≠ .off → d.chOk c = true → Ends (.jtagBallInstruction [] [c]) (d.alertN c 0 .lasting)) ∧
    (∀ (n : Ld) (v : BitVec 64), d.on n = true →
      let b := decide (bits v.toNat 0 1 = 1)
      To (.registerWrite (.msixEnable n) v) (d.modLd n fun l => { l with msixEn := b }) ∧
      To (.registerWrite (.biEnable n) v) (d.modLd n fun l => { l with acc := { l.acc with biEn := b } }) ∧
      To (.registerWrite (.ptmEnable n) v) (d.modLd n fun l => { l with ptm := b }) ∧
      To (.registerWrite (.aspmEnable n) v) (d.modLd n fun l => { l with aspm := b }) ∧
      (bits v.toNat 31 1 = 1 → To (.registerWrite (.landingPage n 0xC 4) v) (d.modLd n fun l => { l with acc := { l.acc with count := 0#24, first := 0#4 } })) ∧
      (∀ off size, hostSized off size = false → To (.registerWrite (.landingPage n off size) v) (d.modLd n fun l => { l with aer := l.aer + 1 }))) ∧
    (∀ v : BitVec 64,
      To (.registerWrite .wake v) { d with pwr := { d.pwr with wake := d.pwr.wake &&& ~~~(BitVec.ofNat 6 v.toNat) } } ∧
      To (.registerWrite .pinloss v) { d with pinLoss := if bits v.toNat 31 1 = 1 then 0 else d.pinLoss } ∧
      To (.registerWrite .i3cAddr v) { d with moor := { d.moor with i3c := if bits v.toNat 0 7 = 0 then none else some (bits v.toNat 0 7) } }) ∧
    (∀ msg : List Byte, d.fmnBusy = false → d.tlhBusy = false →
      (let r := d.spdm none none msg
       Ends (.spdmRequest none none msg) (r.2.modPath 32 fun x => { x with ans := .good r.1 })) ∧
      (∀ n : Ld, let r := d.spdm (some n.val) none msg
        Ends (.spdmRequest (some n) none msg) (r.2.doeAnswer n 1 r.1))) ∧
    To .debugUnlockExpiry { d with tlh := { d.tlh with unlock := none } }

/-- One step takes the command at the front of the queue and runs it with the queue's rest (log 1). -/
def Obligations.StepTakesTheFront : Prop := ∀ (c : Instr) (s : State), step { s with pending := c :: s.pending } = exec c s

/-- With nothing waiting a step is one tick of device time, at most two nanoseconds, and changes nothing but the time and its slewing: a DESIGN CHOICE (log 1). -/
def Obligations.EmptyQueueTicks : Prop :=
  ∀ s : State, s.pending = [] → ∃ t, step s = .next t ∧ s.dev.time ≤ t.dev.time ∧ t.dev.time ≤ s.dev.time + 2 ∧ t.pending = [] ∧ t.otp = s.otp ∧
    ({ t.dev with time := s.dev.time, tele := { t.dev.tele with slew := s.dev.tele.slew, slewAge := s.dev.tele.slewAge } } : Dev) = s.dev ∧
    (s.dev.tele.slew = 0 → t.dev.time = s.dev.time + 1)

/-- What reset leaves: nothing waits, the queue is empty, memory is in its one form and lists nothing, the Gangway is in Standby, the core is unpowered, no landing is in use. -/
def Obligations.ResetIsAtRest : Prop :=
  State.reset.pending = [] ∧ State.reset.dev.atRest = true ∧ State.reset.dev.memWf = true ∧ State.reset.dev.mem = [] ∧ State.reset.dev.boot.phase = .aux ∧
    State.reset.dev.gwy.st = .standby ∧ State.reset.dev.active = false ∧ State.reset.dev.fmnBusy = true ∧ State.reset.dev.tlhBusy = true ∧
    State.reset.dev.nonce = 0#256 ∧ (∀ n : Ld, (State.reset.dev.ld n).link.st = .reset)

/-- Every command runs. With no unit fused off each answers a next state; the one stop is that of a command which names a fused-off unit (R3), and nothing is refused. Whatever runs leaves the
commands that wait, leaves no fuse still to be blown, and clears no fuse of either die (R421). -/
def Obligations.EveryCommandCompletes : Prop :=
  ∀ (c : Instr) (s : State), ((∀ n, n < 16 → s.dev.on n = true) → s.dev.blow = 0#2048 → ∃ t, exec c s = .next t ∧ t.pending = s.pending ∧ t.dev.blow = 0#2048 ∧ FusesGrow s t) ∧
    (∀ f, exec c s = .fault f → f = .absentUnit ∧ ∃ n, n < 16 ∧ s.dev.on n = false) ∧ (∀ r, exec c s ≠ .refused r)

/-- A fuse once blown stays blown in every run of any length from any state, and a run of no more steps than commands wait takes them in order and leaves the others waiting. -/
def Obligations.FusesAreNeverCleared : Prop :=
  ∀ (s t : State) (n : Nat), s.dev.blow = 0#2048 → ReachesIn s t n → FusesGrow s t ∧ t.dev.blow = 0#2048 ∧ t.pending = s.pending.drop n ∧
    (∀ i, s.otp.map.getLsbD i = true → t.otp.map.getLsbD i = true) ∧ (∀ i, s.otp.board.getLsbD i = true → t.otp.board.getLsbD i = true)

/-- Bytes written to a channel are read back, every other byte of memory stays, and memory keeps its one form; reading changes no byte. -/
def Obligations.ChannelBytesAreKept : Prop :=
  ∀ (d : Dev) (c off : Nat) (bs : List Byte) (cls cls' : Option Nat), d.memWf = true →
    (d.wr c off bs cls).memWf = true ∧ ((d.wr c off bs cls).rd c off bs.length cls').1 = bs ∧
    ((d.wr c off bs cls).rd c off bs.length cls').2.mem = (d.wr c off bs cls).mem ∧
    ∀ x, x < chBase c + off ∨ chBase c + off + bs.length ≤ x → memGet (d.wr c off bs cls).mem x = memGet d.mem x
end

