-- ==== Sys2Proof/Laws/State.lean ====
section
/-! SUPPORT. What each accessor of the device leaves alone: one lemma per field and update, true by definition. -/
namespace Sys2Proof.Machine
set_option Elab.async false

/-! modLd changes only lnd. -/
@[simp] theorem Dev.modLd_codeH (d : Dev) (n : Nat) (f : Landing → Landing) : (d.modLd n f).codeH = d.codeH := rfl
@[simp] theorem Dev.modLd_sealEn (d : Dev) (n : Nat) (f : Landing → Landing) : (d.modLd n f).sealEn = d.sealEn := rfl
@[simp] theorem Dev.modLd_sealSh (d : Dev) (n : Nat) (f : Landing → Landing) : (d.modLd n f).sealSh = d.sealSh := rfl
@[simp] theorem Dev.modLd_slc (d : Dev) (n : Nat) (f : Landing → Landing) : (d.modLd n f).slc = d.slc := rfl
@[simp] theorem Dev.modLd_chn (d : Dev) (n : Nat) (f : Landing → Landing) : (d.modLd n f).chn = d.chn := rfl
@[simp] theorem Dev.modLd_pm (d : Dev) (n : Nat) (f : Landing → Landing) : (d.modLd n f).pm = d.pm := rfl
@[simp] theorem Dev.modLd_ext (d : Dev) (n : Nat) (f : Landing → Landing) : (d.modLd n f).ext = d.ext := rfl
@[simp] theorem Dev.modLd_mem (d : Dev) (n : Nat) (f : Landing → Landing) : (d.modLd n f).mem = d.mem := rfl
@[simp] theorem Dev.modLd_ctx (d : Dev) (n : Nat) (f : Landing → Landing) : (d.modLd n f).ctx = d.ctx := rfl
@[simp] theorem Dev.modLd_nonce (d : Dev) (n : Nat) (f : Landing → Landing) : (d.modLd n f).nonce = d.nonce := rfl
@[simp] theorem Dev.modLd_logs (d : Dev) (n : Nat) (f : Landing → Landing) : (d.modLd n f).logs = d.logs := rfl
@[simp] theorem Dev.modLd_pool (d : Dev) (n : Nat) (f : Landing → Landing) : (d.modLd n f).pool = d.pool := rfl
@[simp] theorem Dev.modLd_lko (d : Dev) (n : Nat) (f : Landing → Landing) : (d.modLd n f).lko = d.lko := rfl
@[simp] theorem Dev.modLd_pinLoss (d : Dev) (n : Nat) (f : Landing → Landing) : (d.modLd n f).pinLoss = d.pinLoss := rfl
@[simp] theorem Dev.modLd_plog (d : Dev) (n : Nat) (f : Landing → Landing) : (d.modLd n f).plog = d.plog := rfl
@[simp] theorem Dev.modLd_fatalN (d : Dev) (n : Nat) (f : Landing → Landing) : (d.modLd n f).fatalN = d.fatalN := rfl
@[simp] theorem Dev.modLd_fenceQ (d : Dev) (n : Nat) (f : Landing → Landing) : (d.modLd n f).fenceQ = d.fenceQ := rfl
@[simp] theorem Dev.modLd_blow (d : Dev) (n : Nat) (f : Landing → Landing) : (d.modLd n f).blow = d.blow := rfl
@[simp] theorem Dev.modLd_dbgOut (d : Dev) (n : Nat) (f : Landing → Landing) : (d.modLd n f).dbgOut = d.dbgOut := rfl
@[simp] theorem Dev.modLd_prm (d : Dev) (n : Nat) (f : Landing → Landing) : (d.modLd n f).prm = d.prm := rfl
@[simp] theorem Dev.modLd_qos (d : Dev) (n : Nat) (f : Landing → Landing) : (d.modLd n f).qos = d.qos := rfl
@[simp] theorem Dev.modLd_ctr (d : Dev) (n : Nat) (f : Landing → Landing) : (d.modLd n f).ctr = d.ctr := rfl
@[simp] theorem Dev.modLd_sel (d : Dev) (n : Nat) (f : Landing → Landing) : (d.modLd n f).sel = d.sel := rfl
@[simp] theorem Dev.modLd_std (d : Dev) (n : Nat) (f : Landing → Landing) : (d.modLd n f).std = d.std := rfl
@[simp] theorem Dev.modLd_time (d : Dev) (n : Nat) (f : Landing → Landing) : (d.modLd n f).time = d.time := rfl
@[simp] theorem Dev.modLd_draws (d : Dev) (n : Nat) (f : Landing → Landing) : (d.modLd n f).draws = d.draws := rfl
@[simp] theorem Dev.modLd_active (d : Dev) (n : Nat) (f : Landing → Landing) : (d.modLd n f).active = d.active := rfl
@[simp] theorem Dev.modLd_fmnBusy (d : Dev) (n : Nat) (f : Landing → Landing) : (d.modLd n f).fmnBusy = d.fmnBusy := rfl
@[simp] theorem Dev.modLd_tlhBusy (d : Dev) (n : Nat) (f : Landing → Landing) : (d.modLd n f).tlhBusy = d.tlhBusy := rfl
@[simp] theorem Dev.modLd_fz (d : Dev) (n : Nat) (f : Landing → Landing) : (d.modLd n f).fz = d.fz := rfl
@[simp] theorem Dev.modLd_brg (d : Dev) (n : Nat) (f : Landing → Landing) : (d.modLd n f).brg = d.brg := rfl
@[simp] theorem Dev.modLd_fmn (d : Dev) (n : Nat) (f : Landing → Landing) : (d.modLd n f).fmn = d.fmn := rfl
@[simp] theorem Dev.modLd_tlh (d : Dev) (n : Nat) (f : Landing → Landing) : (d.modLd n f).tlh = d.tlh := rfl
@[simp] theorem Dev.modLd_plt (d : Dev) (n : Nat) (f : Landing → Landing) : (d.modLd n f).plt = d.plt := rfl
@[simp] theorem Dev.modLd_mg (d : Dev) (n : Nat) (f : Landing → Landing) : (d.modLd n f).mg = d.mg := rfl
@[simp] theorem Dev.modLd_tele (d : Dev) (n : Nat) (f : Landing → Landing) : (d.modLd n f).tele = d.tele := rfl
@[simp] theorem Dev.modLd_gwy (d : Dev) (n : Nat) (f : Landing → Landing) : (d.modLd n f).gwy = d.gwy := rfl
@[simp] theorem Dev.modLd_boot (d : Dev) (n : Nat) (f : Landing → Landing) : (d.modLd n f).boot = d.boot := rfl
@[simp] theorem Dev.modLd_flash (d : Dev) (n : Nat) (f : Landing → Landing) : (d.modLd n f).flash = d.flash := rfl
@[simp] theorem Dev.modLd_pwr (d : Dev) (n : Nat) (f : Landing → Landing) : (d.modLd n f).pwr = d.pwr := rfl
@[simp] theorem Dev.modLd_moor (d : Dev) (n : Nat) (f : Landing → Landing) : (d.modLd n f).moor = d.moor := rfl
@[simp] theorem Dev.modLd_rgn (d : Dev) (n : Nat) (f : Landing → Landing) : (d.modLd n f).rgn = d.rgn := rfl
@[simp] theorem Dev.modLd_sram (d : Dev) (n : Nat) (f : Landing → Landing) : (d.modLd n f).sram = d.sram := rfl
@[simp] theorem Dev.modLd_save (d : Dev) (n : Nat) (f : Landing → Landing) : (d.modLd n f).save = d.save := rfl

/-! modMs changes only slc. -/
@[simp] theorem Dev.modMs_codeH (d : Dev) (n : Nat) (f : Slice → Slice) : (d.modMs n f).codeH = d.codeH := rfl
@[simp] theorem Dev.modMs_sealEn (d : Dev) (n : Nat) (f : Slice → Slice) : (d.modMs n f).sealEn = d.sealEn := rfl
@[simp] theorem Dev.modMs_sealSh (d : Dev) (n : Nat) (f : Slice → Slice) : (d.modMs n f).sealSh = d.sealSh := rfl
@[simp] theorem Dev.modMs_lnd (d : Dev) (n : Nat) (f : Slice → Slice) : (d.modMs n f).lnd = d.lnd := rfl
@[simp] theorem Dev.modMs_chn (d : Dev) (n : Nat) (f : Slice → Slice) : (d.modMs n f).chn = d.chn := rfl
@[simp] theorem Dev.modMs_pm (d : Dev) (n : Nat) (f : Slice → Slice) : (d.modMs n f).pm = d.pm := rfl
@[simp] theorem Dev.modMs_ext (d : Dev) (n : Nat) (f : Slice → Slice) : (d.modMs n f).ext = d.ext := rfl
@[simp] theorem Dev.modMs_mem (d : Dev) (n : Nat) (f : Slice → Slice) : (d.modMs n f).mem = d.mem := rfl
@[simp] theorem Dev.modMs_ctx (d : Dev) (n : Nat) (f : Slice → Slice) : (d.modMs n f).ctx = d.ctx := rfl
@[simp] theorem Dev.modMs_nonce (d : Dev) (n : Nat) (f : Slice → Slice) : (d.modMs n f).nonce = d.nonce := rfl
@[simp] theorem Dev.modMs_logs (d : Dev) (n : Nat) (f : Slice → Slice) : (d.modMs n f).logs = d.logs := rfl
@[simp] theorem Dev.modMs_pool (d : Dev) (n : Nat) (f : Slice → Slice) : (d.modMs n f).pool = d.pool := rfl
@[simp] theorem Dev.modMs_lko (d : Dev) (n : Nat) (f : Slice → Slice) : (d.modMs n f).lko = d.lko := rfl
@[simp] theorem Dev.modMs_pinLoss (d : Dev) (n : Nat) (f : Slice → Slice) : (d.modMs n f).pinLoss = d.pinLoss := rfl
@[simp] theorem Dev.modMs_plog (d : Dev) (n : Nat) (f : Slice → Slice) : (d.modMs n f).plog = d.plog := rfl
@[simp] theorem Dev.modMs_fatalN (d : Dev) (n : Nat) (f : Slice → Slice) : (d.modMs n f).fatalN = d.fatalN := rfl
@[simp] theorem Dev.modMs_fenceQ (d : Dev) (n : Nat) (f : Slice → Slice) : (d.modMs n f).fenceQ = d.fenceQ := rfl
@[simp] theorem Dev.modMs_blow (d : Dev) (n : Nat) (f : Slice → Slice) : (d.modMs n f).blow = d.blow := rfl
@[simp] theorem Dev.modMs_dbgOut (d : Dev) (n : Nat) (f : Slice → Slice) : (d.modMs n f).dbgOut = d.dbgOut := rfl
@[simp] theorem Dev.modMs_prm (d : Dev) (n : Nat) (f : Slice → Slice) : (d.modMs n f).prm = d.prm := rfl
@[simp] theorem Dev.modMs_qos (d : Dev) (n : Nat) (f : Slice → Slice) : (d.modMs n f).qos = d.qos := rfl
@[simp] theorem Dev.modMs_ctr (d : Dev) (n : Nat) (f : Slice → Slice) : (d.modMs n f).ctr = d.ctr := rfl
@[simp] theorem Dev.modMs_sel (d : Dev) (n : Nat) (f : Slice → Slice) : (d.modMs n f).sel = d.sel := rfl
@[simp] theorem Dev.modMs_std (d : Dev) (n : Nat) (f : Slice → Slice) : (d.modMs n f).std = d.std := rfl
@[simp] theorem Dev.modMs_time (d : Dev) (n : Nat) (f : Slice → Slice) : (d.modMs n f).time = d.time := rfl
@[simp] theorem Dev.modMs_draws (d : Dev) (n : Nat) (f : Slice → Slice) : (d.modMs n f).draws = d.draws := rfl
@[simp] theorem Dev.modMs_active (d : Dev) (n : Nat) (f : Slice → Slice) : (d.modMs n f).active = d.active := rfl
@[simp] theorem Dev.modMs_fmnBusy (d : Dev) (n : Nat) (f : Slice → Slice) : (d.modMs n f).fmnBusy = d.fmnBusy := rfl
@[simp] theorem Dev.modMs_tlhBusy (d : Dev) (n : Nat) (f : Slice → Slice) : (d.modMs n f).tlhBusy = d.tlhBusy := rfl
@[simp] theorem Dev.modMs_fz (d : Dev) (n : Nat) (f : Slice → Slice) : (d.modMs n f).fz = d.fz := rfl
@[simp] theorem Dev.modMs_brg (d : Dev) (n : Nat) (f : Slice → Slice) : (d.modMs n f).brg = d.brg := rfl
@[simp] theorem Dev.modMs_fmn (d : Dev) (n : Nat) (f : Slice → Slice) : (d.modMs n f).fmn = d.fmn := rfl
@[simp] theorem Dev.modMs_tlh (d : Dev) (n : Nat) (f : Slice → Slice) : (d.modMs n f).tlh = d.tlh := rfl
@[simp] theorem Dev.modMs_plt (d : Dev) (n : Nat) (f : Slice → Slice) : (d.modMs n f).plt = d.plt := rfl
@[simp] theorem Dev.modMs_mg (d : Dev) (n : Nat) (f : Slice → Slice) : (d.modMs n f).mg = d.mg := rfl
@[simp] theorem Dev.modMs_tele (d : Dev) (n : Nat) (f : Slice → Slice) : (d.modMs n f).tele = d.tele := rfl
@[simp] theorem Dev.modMs_gwy (d : Dev) (n : Nat) (f : Slice → Slice) : (d.modMs n f).gwy = d.gwy := rfl
@[simp] theorem Dev.modMs_boot (d : Dev) (n : Nat) (f : Slice → Slice) : (d.modMs n f).boot = d.boot := rfl
@[simp] theorem Dev.modMs_flash (d : Dev) (n : Nat) (f : Slice → Slice) : (d.modMs n f).flash = d.flash := rfl
@[simp] theorem Dev.modMs_pwr (d : Dev) (n : Nat) (f : Slice → Slice) : (d.modMs n f).pwr = d.pwr := rfl
@[simp] theorem Dev.modMs_moor (d : Dev) (n : Nat) (f : Slice → Slice) : (d.modMs n f).moor = d.moor := rfl
@[simp] theorem Dev.modMs_rgn (d : Dev) (n : Nat) (f : Slice → Slice) : (d.modMs n f).rgn = d.rgn := rfl
@[simp] theorem Dev.modMs_sram (d : Dev) (n : Nat) (f : Slice → Slice) : (d.modMs n f).sram = d.sram := rfl
@[simp] theorem Dev.modMs_save (d : Dev) (n : Nat) (f : Slice → Slice) : (d.modMs n f).save = d.save := rfl

/-! modCh changes only chn. -/
@[simp] theorem Dev.modCh_codeH (d : Dev) (n : Nat) (f : Chan → Chan) : (d.modCh n f).codeH = d.codeH := rfl
@[simp] theorem Dev.modCh_sealEn (d : Dev) (n : Nat) (f : Chan → Chan) : (d.modCh n f).sealEn = d.sealEn := rfl
@[simp] theorem Dev.modCh_sealSh (d : Dev) (n : Nat) (f : Chan → Chan) : (d.modCh n f).sealSh = d.sealSh := rfl
@[simp] theorem Dev.modCh_lnd (d : Dev) (n : Nat) (f : Chan → Chan) : (d.modCh n f).lnd = d.lnd := rfl
@[simp] theorem Dev.modCh_slc (d : Dev) (n : Nat) (f : Chan → Chan) : (d.modCh n f).slc = d.slc := rfl
@[simp] theorem Dev.modCh_pm (d : Dev) (n : Nat) (f : Chan → Chan) : (d.modCh n f).pm = d.pm := rfl
@[simp] theorem Dev.modCh_ext (d : Dev) (n : Nat) (f : Chan → Chan) : (d.modCh n f).ext = d.ext := rfl
@[simp] theorem Dev.modCh_mem (d : Dev) (n : Nat) (f : Chan → Chan) : (d.modCh n f).mem = d.mem := rfl
@[simp] theorem Dev.modCh_ctx (d : Dev) (n : Nat) (f : Chan → Chan) : (d.modCh n f).ctx = d.ctx := rfl
@[simp] theorem Dev.modCh_nonce (d : Dev) (n : Nat) (f : Chan → Chan) : (d.modCh n f).nonce = d.nonce := rfl
@[simp] theorem Dev.modCh_logs (d : Dev) (n : Nat) (f : Chan → Chan) : (d.modCh n f).logs = d.logs := rfl
@[simp] theorem Dev.modCh_pool (d : Dev) (n : Nat) (f : Chan → Chan) : (d.modCh n f).pool = d.pool := rfl
@[simp] theorem Dev.modCh_lko (d : Dev) (n : Nat) (f : Chan → Chan) : (d.modCh n f).lko = d.lko := rfl
@[simp] theorem Dev.modCh_pinLoss (d : Dev) (n : Nat) (f : Chan → Chan) : (d.modCh n f).pinLoss = d.pinLoss := rfl
@[simp] theorem Dev.modCh_plog (d : Dev) (n : Nat) (f : Chan → Chan) : (d.modCh n f).plog = d.plog := rfl
@[simp] theorem Dev.modCh_fatalN (d : Dev) (n : Nat) (f : Chan → Chan) : (d.modCh n f).fatalN = d.fatalN := rfl
@[simp] theorem Dev.modCh_fenceQ (d : Dev) (n : Nat) (f : Chan → Chan) : (d.modCh n f).fenceQ = d.fenceQ := rfl
@[simp] theorem Dev.modCh_blow (d : Dev) (n : Nat) (f : Chan → Chan) : (d.modCh n f).blow = d.blow := rfl
@[simp] theorem Dev.modCh_dbgOut (d : Dev) (n : Nat) (f : Chan → Chan) : (d.modCh n f).dbgOut = d.dbgOut := rfl
@[simp] theorem Dev.modCh_prm (d : Dev) (n : Nat) (f : Chan → Chan) : (d.modCh n f).prm = d.prm := rfl
@[simp] theorem Dev.modCh_qos (d : Dev) (n : Nat) (f : Chan → Chan) : (d.modCh n f).qos = d.qos := rfl
@[simp] theorem Dev.modCh_ctr (d : Dev) (n : Nat) (f : Chan → Chan) : (d.modCh n f).ctr = d.ctr := rfl
@[simp] theorem Dev.modCh_sel (d : Dev) (n : Nat) (f : Chan → Chan) : (d.modCh n f).sel = d.sel := rfl
@[simp] theorem Dev.modCh_std (d : Dev) (n : Nat) (f : Chan → Chan) : (d.modCh n f).std = d.std := rfl
@[simp] theorem Dev.modCh_time (d : Dev) (n : Nat) (f : Chan → Chan) : (d.modCh n f).time = d.time := rfl
@[simp] theorem Dev.modCh_draws (d : Dev) (n : Nat) (f : Chan → Chan) : (d.modCh n f).draws = d.draws := rfl
@[simp] theorem Dev.modCh_active (d : Dev) (n : Nat) (f : Chan → Chan) : (d.modCh n f).active = d.active := rfl
@[simp] theorem Dev.modCh_fmnBusy (d : Dev) (n : Nat) (f : Chan → Chan) : (d.modCh n f).fmnBusy = d.fmnBusy := rfl
@[simp] theorem Dev.modCh_tlhBusy (d : Dev) (n : Nat) (f : Chan → Chan) : (d.modCh n f).tlhBusy = d.tlhBusy := rfl
@[simp] theorem Dev.modCh_fz (d : Dev) (n : Nat) (f : Chan → Chan) : (d.modCh n f).fz = d.fz := rfl
@[simp] theorem Dev.modCh_brg (d : Dev) (n : Nat) (f : Chan → Chan) : (d.modCh n f).brg = d.brg := rfl
@[simp] theorem Dev.modCh_fmn (d : Dev) (n : Nat) (f : Chan → Chan) : (d.modCh n f).fmn = d.fmn := rfl
@[simp] theorem Dev.modCh_tlh (d : Dev) (n : Nat) (f : Chan → Chan) : (d.modCh n f).tlh = d.tlh := rfl
@[simp] theorem Dev.modCh_plt (d : Dev) (n : Nat) (f : Chan → Chan) : (d.modCh n f).plt = d.plt := rfl
@[simp] theorem Dev.modCh_mg (d : Dev) (n : Nat) (f : Chan → Chan) : (d.modCh n f).mg = d.mg := rfl
@[simp] theorem Dev.modCh_tele (d : Dev) (n : Nat) (f : Chan → Chan) : (d.modCh n f).tele = d.tele := rfl
@[simp] theorem Dev.modCh_gwy (d : Dev) (n : Nat) (f : Chan → Chan) : (d.modCh n f).gwy = d.gwy := rfl
@[simp] theorem Dev.modCh_boot (d : Dev) (n : Nat) (f : Chan → Chan) : (d.modCh n f).boot = d.boot := rfl
@[simp] theorem Dev.modCh_flash (d : Dev) (n : Nat) (f : Chan → Chan) : (d.modCh n f).flash = d.flash := rfl
@[simp] theorem Dev.modCh_pwr (d : Dev) (n : Nat) (f : Chan → Chan) : (d.modCh n f).pwr = d.pwr := rfl
@[simp] theorem Dev.modCh_moor (d : Dev) (n : Nat) (f : Chan → Chan) : (d.modCh n f).moor = d.moor := rfl
@[simp] theorem Dev.modCh_rgn (d : Dev) (n : Nat) (f : Chan → Chan) : (d.modCh n f).rgn = d.rgn := rfl
@[simp] theorem Dev.modCh_sram (d : Dev) (n : Nat) (f : Chan → Chan) : (d.modCh n f).sram = d.sram := rfl
@[simp] theorem Dev.modCh_save (d : Dev) (n : Nat) (f : Chan → Chan) : (d.modCh n f).save = d.save := rfl

/-! modBg changes only brg. -/
@[simp] theorem Dev.modBg_codeH (d : Dev) (n : Nat) (f : BrgCh → BrgCh) : (d.modBg n f).codeH = d.codeH := rfl
@[simp] theorem Dev.modBg_sealEn (d : Dev) (n : Nat) (f : BrgCh → BrgCh) : (d.modBg n f).sealEn = d.sealEn := rfl
@[simp] theorem Dev.modBg_sealSh (d : Dev) (n : Nat) (f : BrgCh → BrgCh) : (d.modBg n f).sealSh = d.sealSh := rfl
@[simp] theorem Dev.modBg_lnd (d : Dev) (n : Nat) (f : BrgCh → BrgCh) : (d.modBg n f).lnd = d.lnd := rfl
@[simp] theorem Dev.modBg_slc (d : Dev) (n : Nat) (f : BrgCh → BrgCh) : (d.modBg n f).slc = d.slc := rfl
@[simp] theorem Dev.modBg_chn (d : Dev) (n : Nat) (f : BrgCh → BrgCh) : (d.modBg n f).chn = d.chn := rfl
@[simp] theorem Dev.modBg_pm (d : Dev) (n : Nat) (f : BrgCh → BrgCh) : (d.modBg n f).pm = d.pm := rfl
@[simp] theorem Dev.modBg_ext (d : Dev) (n : Nat) (f : BrgCh → BrgCh) : (d.modBg n f).ext = d.ext := rfl
@[simp] theorem Dev.modBg_mem (d : Dev) (n : Nat) (f : BrgCh → BrgCh) : (d.modBg n f).mem = d.mem := rfl
@[simp] theorem Dev.modBg_ctx (d : Dev) (n : Nat) (f : BrgCh → BrgCh) : (d.modBg n f).ctx = d.ctx := rfl
@[simp] theorem Dev.modBg_nonce (d : Dev) (n : Nat) (f : BrgCh → BrgCh) : (d.modBg n f).nonce = d.nonce := rfl
@[simp] theorem Dev.modBg_logs (d : Dev) (n : Nat) (f : BrgCh → BrgCh) : (d.modBg n f).logs = d.logs := rfl
@[simp] theorem Dev.modBg_pool (d : Dev) (n : Nat) (f : BrgCh → BrgCh) : (d.modBg n f).pool = d.pool := rfl
@[simp] theorem Dev.modBg_lko (d : Dev) (n : Nat) (f : BrgCh → BrgCh) : (d.modBg n f).lko = d.lko := rfl
@[simp] theorem Dev.modBg_pinLoss (d : Dev) (n : Nat) (f : BrgCh → BrgCh) : (d.modBg n f).pinLoss = d.pinLoss := rfl
@[simp] theorem Dev.modBg_plog (d : Dev) (n : Nat) (f : BrgCh → BrgCh) : (d.modBg n f).plog = d.plog := rfl
@[simp] theorem Dev.modBg_fatalN (d : Dev) (n : Nat) (f : BrgCh → BrgCh) : (d.modBg n f).fatalN = d.fatalN := rfl
@[simp] theorem Dev.modBg_fenceQ (d : Dev) (n : Nat) (f : BrgCh → BrgCh) : (d.modBg n f).fenceQ = d.fenceQ := rfl
@[simp] theorem Dev.modBg_blow (d : Dev) (n : Nat) (f : BrgCh → BrgCh) : (d.modBg n f).blow = d.blow := rfl
@[simp] theorem Dev.modBg_dbgOut (d : Dev) (n : Nat) (f : BrgCh → BrgCh) : (d.modBg n f).dbgOut = d.dbgOut := rfl
@[simp] theorem Dev.modBg_prm (d : Dev) (n : Nat) (f : BrgCh → BrgCh) : (d.modBg n f).prm = d.prm := rfl
@[simp] theorem Dev.modBg_qos (d : Dev) (n : Nat) (f : BrgCh → BrgCh) : (d.modBg n f).qos = d.qos := rfl
@[simp] theorem Dev.modBg_ctr (d : Dev) (n : Nat) (f : BrgCh → BrgCh) : (d.modBg n f).ctr = d.ctr := rfl
@[simp] theorem Dev.modBg_sel (d : Dev) (n : Nat) (f : BrgCh → BrgCh) : (d.modBg n f).sel = d.sel := rfl
@[simp] theorem Dev.modBg_std (d : Dev) (n : Nat) (f : BrgCh → BrgCh) : (d.modBg n f).std = d.std := rfl
@[simp] theorem Dev.modBg_time (d : Dev) (n : Nat) (f : BrgCh → BrgCh) : (d.modBg n f).time = d.time := rfl
@[simp] theorem Dev.modBg_draws (d : Dev) (n : Nat) (f : BrgCh → BrgCh) : (d.modBg n f).draws = d.draws := rfl
@[simp] theorem Dev.modBg_active (d : Dev) (n : Nat) (f : BrgCh → BrgCh) : (d.modBg n f).active = d.active := rfl
@[simp] theorem Dev.modBg_fmnBusy (d : Dev) (n : Nat) (f : BrgCh → BrgCh) : (d.modBg n f).fmnBusy = d.fmnBusy := rfl
@[simp] theorem Dev.modBg_tlhBusy (d : Dev) (n : Nat) (f : BrgCh → BrgCh) : (d.modBg n f).tlhBusy = d.tlhBusy := rfl
@[simp] theorem Dev.modBg_fz (d : Dev) (n : Nat) (f : BrgCh → BrgCh) : (d.modBg n f).fz = d.fz := rfl
@[simp] theorem Dev.modBg_fmn (d : Dev) (n : Nat) (f : BrgCh → BrgCh) : (d.modBg n f).fmn = d.fmn := rfl
@[simp] theorem Dev.modBg_tlh (d : Dev) (n : Nat) (f : BrgCh → BrgCh) : (d.modBg n f).tlh = d.tlh := rfl
@[simp] theorem Dev.modBg_plt (d : Dev) (n : Nat) (f : BrgCh → BrgCh) : (d.modBg n f).plt = d.plt := rfl
@[simp] theorem Dev.modBg_mg (d : Dev) (n : Nat) (f : BrgCh → BrgCh) : (d.modBg n f).mg = d.mg := rfl
@[simp] theorem Dev.modBg_tele (d : Dev) (n : Nat) (f : BrgCh → BrgCh) : (d.modBg n f).tele = d.tele := rfl
@[simp] theorem Dev.modBg_gwy (d : Dev) (n : Nat) (f : BrgCh → BrgCh) : (d.modBg n f).gwy = d.gwy := rfl
@[simp] theorem Dev.modBg_boot (d : Dev) (n : Nat) (f : BrgCh → BrgCh) : (d.modBg n f).boot = d.boot := rfl
@[simp] theorem Dev.modBg_flash (d : Dev) (n : Nat) (f : BrgCh → BrgCh) : (d.modBg n f).flash = d.flash := rfl
@[simp] theorem Dev.modBg_pwr (d : Dev) (n : Nat) (f : BrgCh → BrgCh) : (d.modBg n f).pwr = d.pwr := rfl
@[simp] theorem Dev.modBg_moor (d : Dev) (n : Nat) (f : BrgCh → BrgCh) : (d.modBg n f).moor = d.moor := rfl
@[simp] theorem Dev.modBg_rgn (d : Dev) (n : Nat) (f : BrgCh → BrgCh) : (d.modBg n f).rgn = d.rgn := rfl
@[simp] theorem Dev.modBg_sram (d : Dev) (n : Nat) (f : BrgCh → BrgCh) : (d.modBg n f).sram = d.sram := rfl
@[simp] theorem Dev.modBg_save (d : Dev) (n : Nat) (f : BrgCh → BrgCh) : (d.modBg n f).save = d.save := rfl

/-! setP changes only prm. -/
@[simp] theorem Dev.setP_codeH (d : Dev) (n v : Nat) : (d.setP n v).codeH = d.codeH := rfl
@[simp] theorem Dev.setP_sealEn (d : Dev) (n v : Nat) : (d.setP n v).sealEn = d.sealEn := rfl
@[simp] theorem Dev.setP_sealSh (d : Dev) (n v : Nat) : (d.setP n v).sealSh = d.sealSh := rfl
@[simp] theorem Dev.setP_lnd (d : Dev) (n v : Nat) : (d.setP n v).lnd = d.lnd := rfl
@[simp] theorem Dev.setP_slc (d : Dev) (n v : Nat) : (d.setP n v).slc = d.slc := rfl
@[simp] theorem Dev.setP_chn (d : Dev) (n v : Nat) : (d.setP n v).chn = d.chn := rfl
@[simp] theorem Dev.setP_pm (d : Dev) (n v : Nat) : (d.setP n v).pm = d.pm := rfl
@[simp] theorem Dev.setP_ext (d : Dev) (n v : Nat) : (d.setP n v).ext = d.ext := rfl
@[simp] theorem Dev.setP_mem (d : Dev) (n v : Nat) : (d.setP n v).mem = d.mem := rfl
@[simp] theorem Dev.setP_ctx (d : Dev) (n v : Nat) : (d.setP n v).ctx = d.ctx := rfl
@[simp] theorem Dev.setP_nonce (d : Dev) (n v : Nat) : (d.setP n v).nonce = d.nonce := rfl
@[simp] theorem Dev.setP_logs (d : Dev) (n v : Nat) : (d.setP n v).logs = d.logs := rfl
@[simp] theorem Dev.setP_pool (d : Dev) (n v : Nat) : (d.setP n v).pool = d.pool := rfl
@[simp] theorem Dev.setP_lko (d : Dev) (n v : Nat) : (d.setP n v).lko = d.lko := rfl
@[simp] theorem Dev.setP_pinLoss (d : Dev) (n v : Nat) : (d.setP n v).pinLoss = d.pinLoss := rfl
@[simp] theorem Dev.setP_plog (d : Dev) (n v : Nat) : (d.setP n v).plog = d.plog := rfl
@[simp] theorem Dev.setP_fatalN (d : Dev) (n v : Nat) : (d.setP n v).fatalN = d.fatalN := rfl
@[simp] theorem Dev.setP_fenceQ (d : Dev) (n v : Nat) : (d.setP n v).fenceQ = d.fenceQ := rfl
@[simp] theorem Dev.setP_blow (d : Dev) (n v : Nat) : (d.setP n v).blow = d.blow := rfl
@[simp] theorem Dev.setP_dbgOut (d : Dev) (n v : Nat) : (d.setP n v).dbgOut = d.dbgOut := rfl
@[simp] theorem Dev.setP_qos (d : Dev) (n v : Nat) : (d.setP n v).qos = d.qos := rfl
@[simp] theorem Dev.setP_ctr (d : Dev) (n v : Nat) : (d.setP n v).ctr = d.ctr := rfl
@[simp] theorem Dev.setP_sel (d : Dev) (n v : Nat) : (d.setP n v).sel = d.sel := rfl
@[simp] theorem Dev.setP_std (d : Dev) (n v : Nat) : (d.setP n v).std = d.std := rfl
@[simp] theorem Dev.setP_time (d : Dev) (n v : Nat) : (d.setP n v).time = d.time := rfl
@[simp] theorem Dev.setP_draws (d : Dev) (n v : Nat) : (d.setP n v).draws = d.draws := rfl
@[simp] theorem Dev.setP_active (d : Dev) (n v : Nat) : (d.setP n v).active = d.active := rfl
@[simp] theorem Dev.setP_fmnBusy (d : Dev) (n v : Nat) : (d.setP n v).fmnBusy = d.fmnBusy := rfl
@[simp] theorem Dev.setP_tlhBusy (d : Dev) (n v : Nat) : (d.setP n v).tlhBusy = d.tlhBusy := rfl
@[simp] theorem Dev.setP_fz (d : Dev) (n v : Nat) : (d.setP n v).fz = d.fz := rfl
@[simp] theorem Dev.setP_brg (d : Dev) (n v : Nat) : (d.setP n v).brg = d.brg := rfl
@[simp] theorem Dev.setP_fmn (d : Dev) (n v : Nat) : (d.setP n v).fmn = d.fmn := rfl
@[simp] theorem Dev.setP_tlh (d : Dev) (n v : Nat) : (d.setP n v).tlh = d.tlh := rfl
@[simp] theorem Dev.setP_plt (d : Dev) (n v : Nat) : (d.setP n v).plt = d.plt := rfl
@[simp] theorem Dev.setP_mg (d : Dev) (n v : Nat) : (d.setP n v).mg = d.mg := rfl
@[simp] theorem Dev.setP_tele (d : Dev) (n v : Nat) : (d.setP n v).tele = d.tele := rfl
@[simp] theorem Dev.setP_gwy (d : Dev) (n v : Nat) : (d.setP n v).gwy = d.gwy := rfl
@[simp] theorem Dev.setP_boot (d : Dev) (n v : Nat) : (d.setP n v).boot = d.boot := rfl
@[simp] theorem Dev.setP_flash (d : Dev) (n v : Nat) : (d.setP n v).flash = d.flash := rfl
@[simp] theorem Dev.setP_pwr (d : Dev) (n v : Nat) : (d.setP n v).pwr = d.pwr := rfl
@[simp] theorem Dev.setP_moor (d : Dev) (n v : Nat) : (d.setP n v).moor = d.moor := rfl
@[simp] theorem Dev.setP_rgn (d : Dev) (n v : Nat) : (d.setP n v).rgn = d.rgn := rfl
@[simp] theorem Dev.setP_sram (d : Dev) (n v : Nat) : (d.setP n v).sram = d.sram := rfl
@[simp] theorem Dev.setP_save (d : Dev) (n v : Nat) : (d.setP n v).save = d.save := rfl

/-! modPath changes only mg. -/
@[simp] theorem Dev.modPath_codeH (d : Dev) (n : Nat) (f : CPath → CPath) : (d.modPath n f).codeH = d.codeH := rfl
@[simp] theorem Dev.modPath_sealEn (d : Dev) (n : Nat) (f : CPath → CPath) : (d.modPath n f).sealEn = d.sealEn := rfl
@[simp] theorem Dev.modPath_sealSh (d : Dev) (n : Nat) (f : CPath → CPath) : (d.modPath n f).sealSh = d.sealSh := rfl
@[simp] theorem Dev.modPath_lnd (d : Dev) (n : Nat) (f : CPath → CPath) : (d.modPath n f).lnd = d.lnd := rfl
@[simp] theorem Dev.modPath_slc (d : Dev) (n : Nat) (f : CPath → CPath) : (d.modPath n f).slc = d.slc := rfl
@[simp] theorem Dev.modPath_chn (d : Dev) (n : Nat) (f : CPath → CPath) : (d.modPath n f).chn = d.chn := rfl
@[simp] theorem Dev.modPath_pm (d : Dev) (n : Nat) (f : CPath → CPath) : (d.modPath n f).pm = d.pm := rfl
@[simp] theorem Dev.modPath_ext (d : Dev) (n : Nat) (f : CPath → CPath) : (d.modPath n f).ext = d.ext := rfl
@[simp] theorem Dev.modPath_mem (d : Dev) (n : Nat) (f : CPath → CPath) : (d.modPath n f).mem = d.mem := rfl
@[simp] theorem Dev.modPath_ctx (d : Dev) (n : Nat) (f : CPath → CPath) : (d.modPath n f).ctx = d.ctx := rfl
@[simp] theorem Dev.modPath_nonce (d : Dev) (n : Nat) (f : CPath → CPath) : (d.modPath n f).nonce = d.nonce := rfl
@[simp] theorem Dev.modPath_logs (d : Dev) (n : Nat) (f : CPath → CPath) : (d.modPath n f).logs = d.logs := rfl
@[simp] theorem Dev.modPath_pool (d : Dev) (n : Nat) (f : CPath → CPath) : (d.modPath n f).pool = d.pool := rfl
@[simp] theorem Dev.modPath_lko (d : Dev) (n : Nat) (f : CPath → CPath) : (d.modPath n f).lko = d.lko := rfl
@[simp] theorem Dev.modPath_pinLoss (d : Dev) (n : Nat) (f : CPath → CPath) : (d.modPath n f).pinLoss = d.pinLoss := rfl
@[simp] theorem Dev.modPath_plog (d : Dev) (n : Nat) (f : CPath → CPath) : (d.modPath n f).plog = d.plog := rfl
@[simp] theorem Dev.modPath_fatalN (d : Dev) (n : Nat) (f : CPath → CPath) : (d.modPath n f).fatalN = d.fatalN := rfl
@[simp] theorem Dev.modPath_fenceQ (d : Dev) (n : Nat) (f : CPath → CPath) : (d.modPath n f).fenceQ = d.fenceQ := rfl
@[simp] theorem Dev.modPath_blow (d : Dev) (n : Nat) (f : CPath → CPath) : (d.modPath n f).blow = d.blow := rfl
@[simp] theorem Dev.modPath_dbgOut (d : Dev) (n : Nat) (f : CPath → CPath) : (d.modPath n f).dbgOut = d.dbgOut := rfl
@[simp] theorem Dev.modPath_prm (d : Dev) (n : Nat) (f : CPath → CPath) : (d.modPath n f).prm = d.prm := rfl
@[simp] theorem Dev.modPath_qos (d : Dev) (n : Nat) (f : CPath → CPath) : (d.modPath n f).qos = d.qos := rfl
@[simp] theorem Dev.modPath_ctr (d : Dev) (n : Nat) (f : CPath → CPath) : (d.modPath n f).ctr = d.ctr := rfl
@[simp] theorem Dev.modPath_sel (d : Dev) (n : Nat) (f : CPath → CPath) : (d.modPath n f).sel = d.sel := rfl
@[simp] theorem Dev.modPath_std (d : Dev) (n : Nat) (f : CPath → CPath) : (d.modPath n f).std = d.std := rfl
@[simp] theorem Dev.modPath_time (d : Dev) (n : Nat) (f : CPath → CPath) : (d.modPath n f).time = d.time := rfl
@[simp] theorem Dev.modPath_draws (d : Dev) (n : Nat) (f : CPath → CPath) : (d.modPath n f).draws = d.draws := rfl
@[simp] theorem Dev.modPath_active (d : Dev) (n : Nat) (f : CPath → CPath) : (d.modPath n f).active = d.active := rfl
@[simp] theorem Dev.modPath_fmnBusy (d : Dev) (n : Nat) (f : CPath → CPath) : (d.modPath n f).fmnBusy = d.fmnBusy := rfl
@[simp] theorem Dev.modPath_tlhBusy (d : Dev) (n : Nat) (f : CPath → CPath) : (d.modPath n f).tlhBusy = d.tlhBusy := rfl
@[simp] theorem Dev.modPath_fz (d : Dev) (n : Nat) (f : CPath → CPath) : (d.modPath n f).fz = d.fz := rfl
@[simp] theorem Dev.modPath_brg (d : Dev) (n : Nat) (f : CPath → CPath) : (d.modPath n f).brg = d.brg := rfl
@[simp] theorem Dev.modPath_fmn (d : Dev) (n : Nat) (f : CPath → CPath) : (d.modPath n f).fmn = d.fmn := rfl
@[simp] theorem Dev.modPath_tlh (d : Dev) (n : Nat) (f : CPath → CPath) : (d.modPath n f).tlh = d.tlh := rfl
@[simp] theorem Dev.modPath_plt (d : Dev) (n : Nat) (f : CPath → CPath) : (d.modPath n f).plt = d.plt := rfl
@[simp] theorem Dev.modPath_tele (d : Dev) (n : Nat) (f : CPath → CPath) : (d.modPath n f).tele = d.tele := rfl
@[simp] theorem Dev.modPath_gwy (d : Dev) (n : Nat) (f : CPath → CPath) : (d.modPath n f).gwy = d.gwy := rfl
@[simp] theorem Dev.modPath_boot (d : Dev) (n : Nat) (f : CPath → CPath) : (d.modPath n f).boot = d.boot := rfl
@[simp] theorem Dev.modPath_flash (d : Dev) (n : Nat) (f : CPath → CPath) : (d.modPath n f).flash = d.flash := rfl
@[simp] theorem Dev.modPath_pwr (d : Dev) (n : Nat) (f : CPath → CPath) : (d.modPath n f).pwr = d.pwr := rfl
@[simp] theorem Dev.modPath_moor (d : Dev) (n : Nat) (f : CPath → CPath) : (d.modPath n f).moor = d.moor := rfl
@[simp] theorem Dev.modPath_rgn (d : Dev) (n : Nat) (f : CPath → CPath) : (d.modPath n f).rgn = d.rgn := rfl
@[simp] theorem Dev.modPath_sram (d : Dev) (n : Nat) (f : CPath → CPath) : (d.modPath n f).sram = d.sram := rfl
@[simp] theorem Dev.modPath_save (d : Dev) (n : Nat) (f : CPath → CPath) : (d.modPath n f).save = d.save := rfl

/-! modPilot changes only plt. -/
@[simp] theorem Dev.modPilot_codeH (d : Dev) (n : Nat) (f : Pilot → Pilot) : (d.modPilot n f).codeH = d.codeH := rfl
@[simp] theorem Dev.modPilot_sealEn (d : Dev) (n : Nat) (f : Pilot → Pilot) : (d.modPilot n f).sealEn = d.sealEn := rfl
@[simp] theorem Dev.modPilot_sealSh (d : Dev) (n : Nat) (f : Pilot → Pilot) : (d.modPilot n f).sealSh = d.sealSh := rfl
@[simp] theorem Dev.modPilot_lnd (d : Dev) (n : Nat) (f : Pilot → Pilot) : (d.modPilot n f).lnd = d.lnd := rfl
@[simp] theorem Dev.modPilot_slc (d : Dev) (n : Nat) (f : Pilot → Pilot) : (d.modPilot n f).slc = d.slc := rfl
@[simp] theorem Dev.modPilot_chn (d : Dev) (n : Nat) (f : Pilot → Pilot) : (d.modPilot n f).chn = d.chn := rfl
@[simp] theorem Dev.modPilot_pm (d : Dev) (n : Nat) (f : Pilot → Pilot) : (d.modPilot n f).pm = d.pm := rfl
@[simp] theorem Dev.modPilot_ext (d : Dev) (n : Nat) (f : Pilot → Pilot) : (d.modPilot n f).ext = d.ext := rfl
@[simp] theorem Dev.modPilot_mem (d : Dev) (n : Nat) (f : Pilot → Pilot) : (d.modPilot n f).mem = d.mem := rfl
@[simp] theorem Dev.modPilot_ctx (d : Dev) (n : Nat) (f : Pilot → Pilot) : (d.modPilot n f).ctx = d.ctx := rfl
@[simp] theorem Dev.modPilot_nonce (d : Dev) (n : Nat) (f : Pilot → Pilot) : (d.modPilot n f).nonce = d.nonce := rfl
@[simp] theorem Dev.modPilot_logs (d : Dev) (n : Nat) (f : Pilot → Pilot) : (d.modPilot n f).logs = d.logs := rfl
@[simp] theorem Dev.modPilot_pool (d : Dev) (n : Nat) (f : Pilot → Pilot) : (d.modPilot n f).pool = d.pool := rfl
@[simp] theorem Dev.modPilot_lko (d : Dev) (n : Nat) (f : Pilot → Pilot) : (d.modPilot n f).lko = d.lko := rfl
@[simp] theorem Dev.modPilot_pinLoss (d : Dev) (n : Nat) (f : Pilot → Pilot) : (d.modPilot n f).pinLoss = d.pinLoss := rfl
@[simp] theorem Dev.modPilot_plog (d : Dev) (n : Nat) (f : Pilot → Pilot) : (d.modPilot n f).plog = d.plog := rfl
@[simp] theorem Dev.modPilot_fatalN (d : Dev) (n : Nat) (f : Pilot → Pilot) : (d.modPilot n f).fatalN = d.fatalN := rfl
@[simp] theorem Dev.modPilot_fenceQ (d : Dev) (n : Nat) (f : Pilot → Pilot) : (d.modPilot n f).fenceQ = d.fenceQ := rfl
@[simp] theorem Dev.modPilot_blow (d : Dev) (n : Nat) (f : Pilot → Pilot) : (d.modPilot n f).blow = d.blow := rfl
@[simp] theorem Dev.modPilot_dbgOut (d : Dev) (n : Nat) (f : Pilot → Pilot) : (d.modPilot n f).dbgOut = d.dbgOut := rfl
@[simp] theorem Dev.modPilot_prm (d : Dev) (n : Nat) (f : Pilot → Pilot) : (d.modPilot n f).prm = d.prm := rfl
@[simp] theorem Dev.modPilot_qos (d : Dev) (n : Nat) (f : Pilot → Pilot) : (d.modPilot n f).qos = d.qos := rfl
@[simp] theorem Dev.modPilot_ctr (d : Dev) (n : Nat) (f : Pilot → Pilot) : (d.modPilot n f).ctr = d.ctr := rfl
@[simp] theorem Dev.modPilot_sel (d : Dev) (n : Nat) (f : Pilot → Pilot) : (d.modPilot n f).sel = d.sel := rfl
@[simp] theorem Dev.modPilot_std (d : Dev) (n : Nat) (f : Pilot → Pilot) : (d.modPilot n f).std = d.std := rfl
@[simp] theorem Dev.modPilot_time (d : Dev) (n : Nat) (f : Pilot → Pilot) : (d.modPilot n f).time = d.time := rfl
@[simp] theorem Dev.modPilot_draws (d : Dev) (n : Nat) (f : Pilot → Pilot) : (d.modPilot n f).draws = d.draws := rfl
@[simp] theorem Dev.modPilot_active (d : Dev) (n : Nat) (f : Pilot → Pilot) : (d.modPilot n f).active = d.active := rfl
@[simp] theorem Dev.modPilot_fmnBusy (d : Dev) (n : Nat) (f : Pilot → Pilot) : (d.modPilot n f).fmnBusy = d.fmnBusy := rfl
@[simp] theorem Dev.modPilot_tlhBusy (d : Dev) (n : Nat) (f : Pilot → Pilot) : (d.modPilot n f).tlhBusy = d.tlhBusy := rfl
@[simp] theorem Dev.modPilot_fz (d : Dev) (n : Nat) (f : Pilot → Pilot) : (d.modPilot n f).fz = d.fz := rfl
@[simp] theorem Dev.modPilot_brg (d : Dev) (n : Nat) (f : Pilot → Pilot) : (d.modPilot n f).brg = d.brg := rfl
@[simp] theorem Dev.modPilot_fmn (d : Dev) (n : Nat) (f : Pilot → Pilot) : (d.modPilot n f).fmn = d.fmn := rfl
@[simp] theorem Dev.modPilot_tlh (d : Dev) (n : Nat) (f : Pilot → Pilot) : (d.modPilot n f).tlh = d.tlh := rfl
@[simp] theorem Dev.modPilot_mg (d : Dev) (n : Nat) (f : Pilot → Pilot) : (d.modPilot n f).mg = d.mg := rfl
@[simp] theorem Dev.modPilot_tele (d : Dev) (n : Nat) (f : Pilot → Pilot) : (d.modPilot n f).tele = d.tele := rfl
@[simp] theorem Dev.modPilot_gwy (d : Dev) (n : Nat) (f : Pilot → Pilot) : (d.modPilot n f).gwy = d.gwy := rfl
@[simp] theorem Dev.modPilot_boot (d : Dev) (n : Nat) (f : Pilot → Pilot) : (d.modPilot n f).boot = d.boot := rfl
@[simp] theorem Dev.modPilot_flash (d : Dev) (n : Nat) (f : Pilot → Pilot) : (d.modPilot n f).flash = d.flash := rfl
@[simp] theorem Dev.modPilot_pwr (d : Dev) (n : Nat) (f : Pilot → Pilot) : (d.modPilot n f).pwr = d.pwr := rfl
@[simp] theorem Dev.modPilot_moor (d : Dev) (n : Nat) (f : Pilot → Pilot) : (d.modPilot n f).moor = d.moor := rfl
@[simp] theorem Dev.modPilot_rgn (d : Dev) (n : Nat) (f : Pilot → Pilot) : (d.modPilot n f).rgn = d.rgn := rfl
@[simp] theorem Dev.modPilot_sram (d : Dev) (n : Nat) (f : Pilot → Pilot) : (d.modPilot n f).sram = d.sram := rfl
@[simp] theorem Dev.modPilot_save (d : Dev) (n : Nat) (f : Pilot → Pilot) : (d.modPilot n f).save = d.save := rfl

/-! modCtx changes only ctx. -/
@[simp] theorem Dev.modCtx_codeH (d : Dev) (n : Nat) (f : CtxRec → CtxRec) : (d.modCtx n f).codeH = d.codeH := rfl
@[simp] theorem Dev.modCtx_sealEn (d : Dev) (n : Nat) (f : CtxRec → CtxRec) : (d.modCtx n f).sealEn = d.sealEn := rfl
@[simp] theorem Dev.modCtx_sealSh (d : Dev) (n : Nat) (f : CtxRec → CtxRec) : (d.modCtx n f).sealSh = d.sealSh := rfl
@[simp] theorem Dev.modCtx_lnd (d : Dev) (n : Nat) (f : CtxRec → CtxRec) : (d.modCtx n f).lnd = d.lnd := rfl
@[simp] theorem Dev.modCtx_slc (d : Dev) (n : Nat) (f : CtxRec → CtxRec) : (d.modCtx n f).slc = d.slc := rfl
@[simp] theorem Dev.modCtx_chn (d : Dev) (n : Nat) (f : CtxRec → CtxRec) : (d.modCtx n f).chn = d.chn := rfl
@[simp] theorem Dev.modCtx_pm (d : Dev) (n : Nat) (f : CtxRec → CtxRec) : (d.modCtx n f).pm = d.pm := rfl
@[simp] theorem Dev.modCtx_ext (d : Dev) (n : Nat) (f : CtxRec → CtxRec) : (d.modCtx n f).ext = d.ext := rfl
@[simp] theorem Dev.modCtx_mem (d : Dev) (n : Nat) (f : CtxRec → CtxRec) : (d.modCtx n f).mem = d.mem := rfl
@[simp] theorem Dev.modCtx_nonce (d : Dev) (n : Nat) (f : CtxRec → CtxRec) : (d.modCtx n f).nonce = d.nonce := rfl
@[simp] theorem Dev.modCtx_logs (d : Dev) (n : Nat) (f : CtxRec → CtxRec) : (d.modCtx n f).logs = d.logs := rfl
@[simp] theorem Dev.modCtx_pool (d : Dev) (n : Nat) (f : CtxRec → CtxRec) : (d.modCtx n f).pool = d.pool := rfl
@[simp] theorem Dev.modCtx_lko (d : Dev) (n : Nat) (f : CtxRec → CtxRec) : (d.modCtx n f).lko = d.lko := rfl
@[simp] theorem Dev.modCtx_pinLoss (d : Dev) (n : Nat) (f : CtxRec → CtxRec) : (d.modCtx n f).pinLoss = d.pinLoss := rfl
@[simp] theorem Dev.modCtx_plog (d : Dev) (n : Nat) (f : CtxRec → CtxRec) : (d.modCtx n f).plog = d.plog := rfl
@[simp] theorem Dev.modCtx_fatalN (d : Dev) (n : Nat) (f : CtxRec → CtxRec) : (d.modCtx n f).fatalN = d.fatalN := rfl
@[simp] theorem Dev.modCtx_fenceQ (d : Dev) (n : Nat) (f : CtxRec → CtxRec) : (d.modCtx n f).fenceQ = d.fenceQ := rfl
@[simp] theorem Dev.modCtx_blow (d : Dev) (n : Nat) (f : CtxRec → CtxRec) : (d.modCtx n f).blow = d.blow := rfl
@[simp] theorem Dev.modCtx_dbgOut (d : Dev) (n : Nat) (f : CtxRec → CtxRec) : (d.modCtx n f).dbgOut = d.dbgOut := rfl
@[simp] theorem Dev.modCtx_prm (d : Dev) (n : Nat) (f : CtxRec → CtxRec) : (d.modCtx n f).prm = d.prm := rfl
@[simp] theorem Dev.modCtx_qos (d : Dev) (n : Nat) (f : CtxRec → CtxRec) : (d.modCtx n f).qos = d.qos := rfl
@[simp] theorem Dev.modCtx_ctr (d : Dev) (n : Nat) (f : CtxRec → CtxRec) : (d.modCtx n f).ctr = d.ctr := rfl
@[simp] theorem Dev.modCtx_sel (d : Dev) (n : Nat) (f : CtxRec → CtxRec) : (d.modCtx n f).sel = d.sel := rfl
@[simp] theorem Dev.modCtx_std (d : Dev) (n : Nat) (f : CtxRec → CtxRec) : (d.modCtx n f).std = d.std := rfl
@[simp] theorem Dev.modCtx_time (d : Dev) (n : Nat) (f : CtxRec → CtxRec) : (d.modCtx n f).time = d.time := rfl
@[simp] theorem Dev.modCtx_draws (d : Dev) (n : Nat) (f : CtxRec → CtxRec) : (d.modCtx n f).draws = d.draws := rfl
@[simp] theorem Dev.modCtx_active (d : Dev) (n : Nat) (f : CtxRec → CtxRec) : (d.modCtx n f).active = d.active := rfl
@[simp] theorem Dev.modCtx_fmnBusy (d : Dev) (n : Nat) (f : CtxRec → CtxRec) : (d.modCtx n f).fmnBusy = d.fmnBusy := rfl
@[simp] theorem Dev.modCtx_tlhBusy (d : Dev) (n : Nat) (f : CtxRec → CtxRec) : (d.modCtx n f).tlhBusy = d.tlhBusy := rfl
@[simp] theorem Dev.modCtx_fz (d : Dev) (n : Nat) (f : CtxRec → CtxRec) : (d.modCtx n f).fz = d.fz := rfl
@[simp] theorem Dev.modCtx_brg (d : Dev) (n : Nat) (f : CtxRec → CtxRec) : (d.modCtx n f).brg = d.brg := rfl
@[simp] theorem Dev.modCtx_fmn (d : Dev) (n : Nat) (f : CtxRec → CtxRec) : (d.modCtx n f).fmn = d.fmn := rfl
@[simp] theorem Dev.modCtx_tlh (d : Dev) (n : Nat) (f : CtxRec → CtxRec) : (d.modCtx n f).tlh = d.tlh := rfl
@[simp] theorem Dev.modCtx_plt (d : Dev) (n : Nat) (f : CtxRec → CtxRec) : (d.modCtx n f).plt = d.plt := rfl
@[simp] theorem Dev.modCtx_mg (d : Dev) (n : Nat) (f : CtxRec → CtxRec) : (d.modCtx n f).mg = d.mg := rfl
@[simp] theorem Dev.modCtx_tele (d : Dev) (n : Nat) (f : CtxRec → CtxRec) : (d.modCtx n f).tele = d.tele := rfl
@[simp] theorem Dev.modCtx_gwy (d : Dev) (n : Nat) (f : CtxRec → CtxRec) : (d.modCtx n f).gwy = d.gwy := rfl
@[simp] theorem Dev.modCtx_boot (d : Dev) (n : Nat) (f : CtxRec → CtxRec) : (d.modCtx n f).boot = d.boot := rfl
@[simp] theorem Dev.modCtx_flash (d : Dev) (n : Nat) (f : CtxRec → CtxRec) : (d.modCtx n f).flash = d.flash := rfl
@[simp] theorem Dev.modCtx_pwr (d : Dev) (n : Nat) (f : CtxRec → CtxRec) : (d.modCtx n f).pwr = d.pwr := rfl
@[simp] theorem Dev.modCtx_moor (d : Dev) (n : Nat) (f : CtxRec → CtxRec) : (d.modCtx n f).moor = d.moor := rfl
@[simp] theorem Dev.modCtx_rgn (d : Dev) (n : Nat) (f : CtxRec → CtxRec) : (d.modCtx n f).rgn = d.rgn := rfl
@[simp] theorem Dev.modCtx_sram (d : Dev) (n : Nat) (f : CtxRec → CtxRec) : (d.modCtx n f).sram = d.sram := rfl
@[simp] theorem Dev.modCtx_save (d : Dev) (n : Nat) (f : CtxRec → CtxRec) : (d.modCtx n f).save = d.save := rfl

/-! modG changes only gwy. -/
@[simp] theorem Dev.modG_codeH (d : Dev) (f : Gwy → Gwy) : (d.modG f).codeH = d.codeH := rfl
@[simp] theorem Dev.modG_sealEn (d : Dev) (f : Gwy → Gwy) : (d.modG f).sealEn = d.sealEn := rfl
@[simp] theorem Dev.modG_sealSh (d : Dev) (f : Gwy → Gwy) : (d.modG f).sealSh = d.sealSh := rfl
@[simp] theorem Dev.modG_lnd (d : Dev) (f : Gwy → Gwy) : (d.modG f).lnd = d.lnd := rfl
@[simp] theorem Dev.modG_slc (d : Dev) (f : Gwy → Gwy) : (d.modG f).slc = d.slc := rfl
@[simp] theorem Dev.modG_chn (d : Dev) (f : Gwy → Gwy) : (d.modG f).chn = d.chn := rfl
@[simp] theorem Dev.modG_pm (d : Dev) (f : Gwy → Gwy) : (d.modG f).pm = d.pm := rfl
@[simp] theorem Dev.modG_ext (d : Dev) (f : Gwy → Gwy) : (d.modG f).ext = d.ext := rfl
@[simp] theorem Dev.modG_mem (d : Dev) (f : Gwy → Gwy) : (d.modG f).mem = d.mem := rfl
@[simp] theorem Dev.modG_ctx (d : Dev) (f : Gwy → Gwy) : (d.modG f).ctx = d.ctx := rfl
@[simp] theorem Dev.modG_nonce (d : Dev) (f : Gwy → Gwy) : (d.modG f).nonce = d.nonce := rfl
@[simp] theorem Dev.modG_logs (d : Dev) (f : Gwy → Gwy) : (d.modG f).logs = d.logs := rfl
@[simp] theorem Dev.modG_pool (d : Dev) (f : Gwy → Gwy) : (d.modG f).pool = d.pool := rfl
@[simp] theorem Dev.modG_lko (d : Dev) (f : Gwy → Gwy) : (d.modG f).lko = d.lko := rfl
@[simp] theorem Dev.modG_pinLoss (d : Dev) (f : Gwy → Gwy) : (d.modG f).pinLoss = d.pinLoss := rfl
@[simp] theorem Dev.modG_plog (d : Dev) (f : Gwy → Gwy) : (d.modG f).plog = d.plog := rfl
@[simp] theorem Dev.modG_fatalN (d : Dev) (f : Gwy → Gwy) : (d.modG f).fatalN = d.fatalN := rfl
@[simp] theorem Dev.modG_fenceQ (d : Dev) (f : Gwy → Gwy) : (d.modG f).fenceQ = d.fenceQ := rfl
@[simp] theorem Dev.modG_blow (d : Dev) (f : Gwy → Gwy) : (d.modG f).blow = d.blow := rfl
@[simp] theorem Dev.modG_dbgOut (d : Dev) (f : Gwy → Gwy) : (d.modG f).dbgOut = d.dbgOut := rfl
@[simp] theorem Dev.modG_prm (d : Dev) (f : Gwy → Gwy) : (d.modG f).prm = d.prm := rfl
@[simp] theorem Dev.modG_qos (d : Dev) (f : Gwy → Gwy) : (d.modG f).qos = d.qos := rfl
@[simp] theorem Dev.modG_ctr (d : Dev) (f : Gwy → Gwy) : (d.modG f).ctr = d.ctr := rfl
@[simp] theorem Dev.modG_sel (d : Dev) (f : Gwy → Gwy) : (d.modG f).sel = d.sel := rfl
@[simp] theorem Dev.modG_std (d : Dev) (f : Gwy → Gwy) : (d.modG f).std = d.std := rfl
@[simp] theorem Dev.modG_time (d : Dev) (f : Gwy → Gwy) : (d.modG f).time = d.time := rfl
@[simp] theorem Dev.modG_draws (d : Dev) (f : Gwy → Gwy) : (d.modG f).draws = d.draws := rfl
@[simp] theorem Dev.modG_active (d : Dev) (f : Gwy → Gwy) : (d.modG f).active = d.active := rfl
@[simp] theorem Dev.modG_fmnBusy (d : Dev) (f : Gwy → Gwy) : (d.modG f).fmnBusy = d.fmnBusy := rfl
@[simp] theorem Dev.modG_tlhBusy (d : Dev) (f : Gwy → Gwy) : (d.modG f).tlhBusy = d.tlhBusy := rfl
@[simp] theorem Dev.modG_fz (d : Dev) (f : Gwy → Gwy) : (d.modG f).fz = d.fz := rfl
@[simp] theorem Dev.modG_brg (d : Dev) (f : Gwy → Gwy) : (d.modG f).brg = d.brg := rfl
@[simp] theorem Dev.modG_fmn (d : Dev) (f : Gwy → Gwy) : (d.modG f).fmn = d.fmn := rfl
@[simp] theorem Dev.modG_tlh (d : Dev) (f : Gwy → Gwy) : (d.modG f).tlh = d.tlh := rfl
@[simp] theorem Dev.modG_plt (d : Dev) (f : Gwy → Gwy) : (d.modG f).plt = d.plt := rfl
@[simp] theorem Dev.modG_mg (d : Dev) (f : Gwy → Gwy) : (d.modG f).mg = d.mg := rfl
@[simp] theorem Dev.modG_tele (d : Dev) (f : Gwy → Gwy) : (d.modG f).tele = d.tele := rfl
@[simp] theorem Dev.modG_boot (d : Dev) (f : Gwy → Gwy) : (d.modG f).boot = d.boot := rfl
@[simp] theorem Dev.modG_flash (d : Dev) (f : Gwy → Gwy) : (d.modG f).flash = d.flash := rfl
@[simp] theorem Dev.modG_pwr (d : Dev) (f : Gwy → Gwy) : (d.modG f).pwr = d.pwr := rfl
@[simp] theorem Dev.modG_moor (d : Dev) (f : Gwy → Gwy) : (d.modG f).moor = d.moor := rfl
@[simp] theorem Dev.modG_rgn (d : Dev) (f : Gwy → Gwy) : (d.modG f).rgn = d.rgn := rfl
@[simp] theorem Dev.modG_sram (d : Dev) (f : Gwy → Gwy) : (d.modG f).sram = d.sram := rfl
@[simp] theorem Dev.modG_save (d : Dev) (f : Gwy → Gwy) : (d.modG f).save = d.save := rfl

/-! modW changes only slc. -/
@[simp] theorem Dev.modW_codeH (d : Dev) (n : Nat) (f : Wharf → Wharf) : (d.modW n f).codeH = d.codeH := rfl
@[simp] theorem Dev.modW_sealEn (d : Dev) (n : Nat) (f : Wharf → Wharf) : (d.modW n f).sealEn = d.sealEn := rfl
@[simp] theorem Dev.modW_sealSh (d : Dev) (n : Nat) (f : Wharf → Wharf) : (d.modW n f).sealSh = d.sealSh := rfl
@[simp] theorem Dev.modW_lnd (d : Dev) (n : Nat) (f : Wharf → Wharf) : (d.modW n f).lnd = d.lnd := rfl
@[simp] theorem Dev.modW_chn (d : Dev) (n : Nat) (f : Wharf → Wharf) : (d.modW n f).chn = d.chn := rfl
@[simp] theorem Dev.modW_pm (d : Dev) (n : Nat) (f : Wharf → Wharf) : (d.modW n f).pm = d.pm := rfl
@[simp] theorem Dev.modW_ext (d : Dev) (n : Nat) (f : Wharf → Wharf) : (d.modW n f).ext = d.ext := rfl
@[simp] theorem Dev.modW_mem (d : Dev) (n : Nat) (f : Wharf → Wharf) : (d.modW n f).mem = d.mem := rfl
@[simp] theorem Dev.modW_ctx (d : Dev) (n : Nat) (f : Wharf → Wharf) : (d.modW n f).ctx = d.ctx := rfl
@[simp] theorem Dev.modW_nonce (d : Dev) (n : Nat) (f : Wharf → Wharf) : (d.modW n f).nonce = d.nonce := rfl
@[simp] theorem Dev.modW_logs (d : Dev) (n : Nat) (f : Wharf → Wharf) : (d.modW n f).logs = d.logs := rfl
@[simp] theorem Dev.modW_pool (d : Dev) (n : Nat) (f : Wharf → Wharf) : (d.modW n f).pool = d.pool := rfl
@[simp] theorem Dev.modW_lko (d : Dev) (n : Nat) (f : Wharf → Wharf) : (d.modW n f).lko = d.lko := rfl
@[simp] theorem Dev.modW_pinLoss (d : Dev) (n : Nat) (f : Wharf → Wharf) : (d.modW n f).pinLoss = d.pinLoss := rfl
@[simp] theorem Dev.modW_plog (d : Dev) (n : Nat) (f : Wharf → Wharf) : (d.modW n f).plog = d.plog := rfl
@[simp] theorem Dev.modW_fatalN (d : Dev) (n : Nat) (f : Wharf → Wharf) : (d.modW n f).fatalN = d.fatalN := rfl
@[simp] theorem Dev.modW_fenceQ (d : Dev) (n : Nat) (f : Wharf → Wharf) : (d.modW n f).fenceQ = d.fenceQ := rfl
@[simp] theorem Dev.modW_blow (d : Dev) (n : Nat) (f : Wharf → Wharf) : (d.modW n f).blow = d.blow := rfl
@[simp] theorem Dev.modW_dbgOut (d : Dev) (n : Nat) (f : Wharf → Wharf) : (d.modW n f).dbgOut = d.dbgOut := rfl
@[simp] theorem Dev.modW_prm (d : Dev) (n : Nat) (f : Wharf → Wharf) : (d.modW n f).prm = d.prm := rfl
@[simp] theorem Dev.modW_qos (d : Dev) (n : Nat) (f : Wharf → Wharf) : (d.modW n f).qos = d.qos := rfl
@[simp] theorem Dev.modW_ctr (d : Dev) (n : Nat) (f : Wharf → Wharf) : (d.modW n f).ctr = d.ctr := rfl
@[simp] theorem Dev.modW_sel (d : Dev) (n : Nat) (f : Wharf → Wharf) : (d.modW n f).sel = d.sel := rfl
@[simp] theorem Dev.modW_std (d : Dev) (n : Nat) (f : Wharf → Wharf) : (d.modW n f).std = d.std := rfl
@[simp] theorem Dev.modW_time (d : Dev) (n : Nat) (f : Wharf → Wharf) : (d.modW n f).time = d.time := rfl
@[simp] theorem Dev.modW_draws (d : Dev) (n : Nat) (f : Wharf → Wharf) : (d.modW n f).draws = d.draws := rfl
@[simp] theorem Dev.modW_active (d : Dev) (n : Nat) (f : Wharf → Wharf) : (d.modW n f).active = d.active := rfl
@[simp] theorem Dev.modW_fmnBusy (d : Dev) (n : Nat) (f : Wharf → Wharf) : (d.modW n f).fmnBusy = d.fmnBusy := rfl
@[simp] theorem Dev.modW_tlhBusy (d : Dev) (n : Nat) (f : Wharf → Wharf) : (d.modW n f).tlhBusy = d.tlhBusy := rfl
@[simp] theorem Dev.modW_fz (d : Dev) (n : Nat) (f : Wharf → Wharf) : (d.modW n f).fz = d.fz := rfl
@[simp] theorem Dev.modW_brg (d : Dev) (n : Nat) (f : Wharf → Wharf) : (d.modW n f).brg = d.brg := rfl
@[simp] theorem Dev.modW_fmn (d : Dev) (n : Nat) (f : Wharf → Wharf) : (d.modW n f).fmn = d.fmn := rfl
@[simp] theorem Dev.modW_tlh (d : Dev) (n : Nat) (f : Wharf → Wharf) : (d.modW n f).tlh = d.tlh := rfl
@[simp] theorem Dev.modW_plt (d : Dev) (n : Nat) (f : Wharf → Wharf) : (d.modW n f).plt = d.plt := rfl
@[simp] theorem Dev.modW_mg (d : Dev) (n : Nat) (f : Wharf → Wharf) : (d.modW n f).mg = d.mg := rfl
@[simp] theorem Dev.modW_tele (d : Dev) (n : Nat) (f : Wharf → Wharf) : (d.modW n f).tele = d.tele := rfl
@[simp] theorem Dev.modW_gwy (d : Dev) (n : Nat) (f : Wharf → Wharf) : (d.modW n f).gwy = d.gwy := rfl
@[simp] theorem Dev.modW_boot (d : Dev) (n : Nat) (f : Wharf → Wharf) : (d.modW n f).boot = d.boot := rfl
@[simp] theorem Dev.modW_flash (d : Dev) (n : Nat) (f : Wharf → Wharf) : (d.modW n f).flash = d.flash := rfl
@[simp] theorem Dev.modW_pwr (d : Dev) (n : Nat) (f : Wharf → Wharf) : (d.modW n f).pwr = d.pwr := rfl
@[simp] theorem Dev.modW_moor (d : Dev) (n : Nat) (f : Wharf → Wharf) : (d.modW n f).moor = d.moor := rfl
@[simp] theorem Dev.modW_rgn (d : Dev) (n : Nat) (f : Wharf → Wharf) : (d.modW n f).rgn = d.rgn := rfl
@[simp] theorem Dev.modW_sram (d : Dev) (n : Nat) (f : Wharf → Wharf) : (d.modW n f).sram = d.sram := rfl
@[simp] theorem Dev.modW_save (d : Dev) (n : Nat) (f : Wharf → Wharf) : (d.modW n f).save = d.save := rfl

/-! modF changes only slc. -/
@[simp] theorem Dev.modF_codeH (d : Dev) (n : Nat) (f : Filter → Filter) : (d.modF n f).codeH = d.codeH := rfl
@[simp] theorem Dev.modF_sealEn (d : Dev) (n : Nat) (f : Filter → Filter) : (d.modF n f).sealEn = d.sealEn := rfl
@[simp] theorem Dev.modF_sealSh (d : Dev) (n : Nat) (f : Filter → Filter) : (d.modF n f).sealSh = d.sealSh := rfl
@[simp] theorem Dev.modF_lnd (d : Dev) (n : Nat) (f : Filter → Filter) : (d.modF n f).lnd = d.lnd := rfl
@[simp] theorem Dev.modF_chn (d : Dev) (n : Nat) (f : Filter → Filter) : (d.modF n f).chn = d.chn := rfl
@[simp] theorem Dev.modF_pm (d : Dev) (n : Nat) (f : Filter → Filter) : (d.modF n f).pm = d.pm := rfl
@[simp] theorem Dev.modF_ext (d : Dev) (n : Nat) (f : Filter → Filter) : (d.modF n f).ext = d.ext := rfl
@[simp] theorem Dev.modF_mem (d : Dev) (n : Nat) (f : Filter → Filter) : (d.modF n f).mem = d.mem := rfl
@[simp] theorem Dev.modF_ctx (d : Dev) (n : Nat) (f : Filter → Filter) : (d.modF n f).ctx = d.ctx := rfl
@[simp] theorem Dev.modF_nonce (d : Dev) (n : Nat) (f : Filter → Filter) : (d.modF n f).nonce = d.nonce := rfl
@[simp] theorem Dev.modF_logs (d : Dev) (n : Nat) (f : Filter → Filter) : (d.modF n f).logs = d.logs := rfl
@[simp] theorem Dev.modF_pool (d : Dev) (n : Nat) (f : Filter → Filter) : (d.modF n f).pool = d.pool := rfl
@[simp] theorem Dev.modF_lko (d : Dev) (n : Nat) (f : Filter → Filter) : (d.modF n f).lko = d.lko := rfl
@[simp] theorem Dev.modF_pinLoss (d : Dev) (n : Nat) (f : Filter → Filter) : (d.modF n f).pinLoss = d.pinLoss := rfl
@[simp] theorem Dev.modF_plog (d : Dev) (n : Nat) (f : Filter → Filter) : (d.modF n f).plog = d.plog := rfl
@[simp] theorem Dev.modF_fatalN (d : Dev) (n : Nat) (f : Filter → Filter) : (d.modF n f).fatalN = d.fatalN := rfl
@[simp] theorem Dev.modF_fenceQ (d : Dev) (n : Nat) (f : Filter → Filter) : (d.modF n f).fenceQ = d.fenceQ := rfl
@[simp] theorem Dev.modF_blow (d : Dev) (n : Nat) (f : Filter → Filter) : (d.modF n f).blow = d.blow := rfl
@[simp] theorem Dev.modF_dbgOut (d : Dev) (n : Nat) (f : Filter → Filter) : (d.modF n f).dbgOut = d.dbgOut := rfl
@[simp] theorem Dev.modF_prm (d : Dev) (n : Nat) (f : Filter → Filter) : (d.modF n f).prm = d.prm := rfl
@[simp] theorem Dev.modF_qos (d : Dev) (n : Nat) (f : Filter → Filter) : (d.modF n f).qos = d.qos := rfl
@[simp] theorem Dev.modF_ctr (d : Dev) (n : Nat) (f : Filter → Filter) : (d.modF n f).ctr = d.ctr := rfl
@[simp] theorem Dev.modF_sel (d : Dev) (n : Nat) (f : Filter → Filter) : (d.modF n f).sel = d.sel := rfl
@[simp] theorem Dev.modF_std (d : Dev) (n : Nat) (f : Filter → Filter) : (d.modF n f).std = d.std := rfl
@[simp] theorem Dev.modF_time (d : Dev) (n : Nat) (f : Filter → Filter) : (d.modF n f).time = d.time := rfl
@[simp] theorem Dev.modF_draws (d : Dev) (n : Nat) (f : Filter → Filter) : (d.modF n f).draws = d.draws := rfl
@[simp] theorem Dev.modF_active (d : Dev) (n : Nat) (f : Filter → Filter) : (d.modF n f).active = d.active := rfl
@[simp] theorem Dev.modF_fmnBusy (d : Dev) (n : Nat) (f : Filter → Filter) : (d.modF n f).fmnBusy = d.fmnBusy := rfl
@[simp] theorem Dev.modF_tlhBusy (d : Dev) (n : Nat) (f : Filter → Filter) : (d.modF n f).tlhBusy = d.tlhBusy := rfl
@[simp] theorem Dev.modF_fz (d : Dev) (n : Nat) (f : Filter → Filter) : (d.modF n f).fz = d.fz := rfl
@[simp] theorem Dev.modF_brg (d : Dev) (n : Nat) (f : Filter → Filter) : (d.modF n f).brg = d.brg := rfl
@[simp] theorem Dev.modF_fmn (d : Dev) (n : Nat) (f : Filter → Filter) : (d.modF n f).fmn = d.fmn := rfl
@[simp] theorem Dev.modF_tlh (d : Dev) (n : Nat) (f : Filter → Filter) : (d.modF n f).tlh = d.tlh := rfl
@[simp] theorem Dev.modF_plt (d : Dev) (n : Nat) (f : Filter → Filter) : (d.modF n f).plt = d.plt := rfl
@[simp] theorem Dev.modF_mg (d : Dev) (n : Nat) (f : Filter → Filter) : (d.modF n f).mg = d.mg := rfl
@[simp] theorem Dev.modF_tele (d : Dev) (n : Nat) (f : Filter → Filter) : (d.modF n f).tele = d.tele := rfl
@[simp] theorem Dev.modF_gwy (d : Dev) (n : Nat) (f : Filter → Filter) : (d.modF n f).gwy = d.gwy := rfl
@[simp] theorem Dev.modF_boot (d : Dev) (n : Nat) (f : Filter → Filter) : (d.modF n f).boot = d.boot := rfl
@[simp] theorem Dev.modF_flash (d : Dev) (n : Nat) (f : Filter → Filter) : (d.modF n f).flash = d.flash := rfl
@[simp] theorem Dev.modF_pwr (d : Dev) (n : Nat) (f : Filter → Filter) : (d.modF n f).pwr = d.pwr := rfl
@[simp] theorem Dev.modF_moor (d : Dev) (n : Nat) (f : Filter → Filter) : (d.modF n f).moor = d.moor := rfl
@[simp] theorem Dev.modF_rgn (d : Dev) (n : Nat) (f : Filter → Filter) : (d.modF n f).rgn = d.rgn := rfl
@[simp] theorem Dev.modF_sram (d : Dev) (n : Nat) (f : Filter → Filter) : (d.modF n f).sram = d.sram := rfl
@[simp] theorem Dev.modF_save (d : Dev) (n : Nat) (f : Filter → Filter) : (d.modF n f).save = d.save := rfl

/-! modSeal changes only slc. -/
@[simp] theorem Dev.modSeal_codeH (d : Dev) (n : Nat) (f : SealSt → SealSt) : (d.modSeal n f).codeH = d.codeH := rfl
@[simp] theorem Dev.modSeal_sealEn (d : Dev) (n : Nat) (f : SealSt → SealSt) : (d.modSeal n f).sealEn = d.sealEn := rfl
@[simp] theorem Dev.modSeal_sealSh (d : Dev) (n : Nat) (f : SealSt → SealSt) : (d.modSeal n f).sealSh = d.sealSh := rfl
@[simp] theorem Dev.modSeal_lnd (d : Dev) (n : Nat) (f : SealSt → SealSt) : (d.modSeal n f).lnd = d.lnd := rfl
@[simp] theorem Dev.modSeal_chn (d : Dev) (n : Nat) (f : SealSt → SealSt) : (d.modSeal n f).chn = d.chn := rfl
@[simp] theorem Dev.modSeal_pm (d : Dev) (n : Nat) (f : SealSt → SealSt) : (d.modSeal n f).pm = d.pm := rfl
@[simp] theorem Dev.modSeal_ext (d : Dev) (n : Nat) (f : SealSt → SealSt) : (d.modSeal n f).ext = d.ext := rfl
@[simp] theorem Dev.modSeal_mem (d : Dev) (n : Nat) (f : SealSt → SealSt) : (d.modSeal n f).mem = d.mem := rfl
@[simp] theorem Dev.modSeal_ctx (d : Dev) (n : Nat) (f : SealSt → SealSt) : (d.modSeal n f).ctx = d.ctx := rfl
@[simp] theorem Dev.modSeal_nonce (d : Dev) (n : Nat) (f : SealSt → SealSt) : (d.modSeal n f).nonce = d.nonce := rfl
@[simp] theorem Dev.modSeal_logs (d : Dev) (n : Nat) (f : SealSt → SealSt) : (d.modSeal n f).logs = d.logs := rfl
@[simp] theorem Dev.modSeal_pool (d : Dev) (n : Nat) (f : SealSt → SealSt) : (d.modSeal n f).pool = d.pool := rfl
@[simp] theorem Dev.modSeal_lko (d : Dev) (n : Nat) (f : SealSt → SealSt) : (d.modSeal n f).lko = d.lko := rfl
@[simp] theorem Dev.modSeal_pinLoss (d : Dev) (n : Nat) (f : SealSt → SealSt) : (d.modSeal n f).pinLoss = d.pinLoss := rfl
@[simp] theorem Dev.modSeal_plog (d : Dev) (n : Nat) (f : SealSt → SealSt) : (d.modSeal n f).plog = d.plog := rfl
@[simp] theorem Dev.modSeal_fatalN (d : Dev) (n : Nat) (f : SealSt → SealSt) : (d.modSeal n f).fatalN = d.fatalN := rfl
@[simp] theorem Dev.modSeal_fenceQ (d : Dev) (n : Nat) (f : SealSt → SealSt) : (d.modSeal n f).fenceQ = d.fenceQ := rfl
@[simp] theorem Dev.modSeal_blow (d : Dev) (n : Nat) (f : SealSt → SealSt) : (d.modSeal n f).blow = d.blow := rfl
@[simp] theorem Dev.modSeal_dbgOut (d : Dev) (n : Nat) (f : SealSt → SealSt) : (d.modSeal n f).dbgOut = d.dbgOut := rfl
@[simp] theorem Dev.modSeal_prm (d : Dev) (n : Nat) (f : SealSt → SealSt) : (d.modSeal n f).prm = d.prm := rfl
@[simp] theorem Dev.modSeal_qos (d : Dev) (n : Nat) (f : SealSt → SealSt) : (d.modSeal n f).qos = d.qos := rfl
@[simp] theorem Dev.modSeal_ctr (d : Dev) (n : Nat) (f : SealSt → SealSt) : (d.modSeal n f).ctr = d.ctr := rfl
@[simp] theorem Dev.modSeal_sel (d : Dev) (n : Nat) (f : SealSt → SealSt) : (d.modSeal n f).sel = d.sel := rfl
@[simp] theorem Dev.modSeal_std (d : Dev) (n : Nat) (f : SealSt → SealSt) : (d.modSeal n f).std = d.std := rfl
@[simp] theorem Dev.modSeal_time (d : Dev) (n : Nat) (f : SealSt → SealSt) : (d.modSeal n f).time = d.time := rfl
@[simp] theorem Dev.modSeal_draws (d : Dev) (n : Nat) (f : SealSt → SealSt) : (d.modSeal n f).draws = d.draws := rfl
@[simp] theorem Dev.modSeal_active (d : Dev) (n : Nat) (f : SealSt → SealSt) : (d.modSeal n f).active = d.active := rfl
@[simp] theorem Dev.modSeal_fmnBusy (d : Dev) (n : Nat) (f : SealSt → SealSt) : (d.modSeal n f).fmnBusy = d.fmnBusy := rfl
@[simp] theorem Dev.modSeal_tlhBusy (d : Dev) (n : Nat) (f : SealSt → SealSt) : (d.modSeal n f).tlhBusy = d.tlhBusy := rfl
@[simp] theorem Dev.modSeal_fz (d : Dev) (n : Nat) (f : SealSt → SealSt) : (d.modSeal n f).fz = d.fz := rfl
@[simp] theorem Dev.modSeal_brg (d : Dev) (n : Nat) (f : SealSt → SealSt) : (d.modSeal n f).brg = d.brg := rfl
@[simp] theorem Dev.modSeal_fmn (d : Dev) (n : Nat) (f : SealSt → SealSt) : (d.modSeal n f).fmn = d.fmn := rfl
@[simp] theorem Dev.modSeal_tlh (d : Dev) (n : Nat) (f : SealSt → SealSt) : (d.modSeal n f).tlh = d.tlh := rfl
@[simp] theorem Dev.modSeal_plt (d : Dev) (n : Nat) (f : SealSt → SealSt) : (d.modSeal n f).plt = d.plt := rfl
@[simp] theorem Dev.modSeal_mg (d : Dev) (n : Nat) (f : SealSt → SealSt) : (d.modSeal n f).mg = d.mg := rfl
@[simp] theorem Dev.modSeal_tele (d : Dev) (n : Nat) (f : SealSt → SealSt) : (d.modSeal n f).tele = d.tele := rfl
@[simp] theorem Dev.modSeal_gwy (d : Dev) (n : Nat) (f : SealSt → SealSt) : (d.modSeal n f).gwy = d.gwy := rfl
@[simp] theorem Dev.modSeal_boot (d : Dev) (n : Nat) (f : SealSt → SealSt) : (d.modSeal n f).boot = d.boot := rfl
@[simp] theorem Dev.modSeal_flash (d : Dev) (n : Nat) (f : SealSt → SealSt) : (d.modSeal n f).flash = d.flash := rfl
@[simp] theorem Dev.modSeal_pwr (d : Dev) (n : Nat) (f : SealSt → SealSt) : (d.modSeal n f).pwr = d.pwr := rfl
@[simp] theorem Dev.modSeal_moor (d : Dev) (n : Nat) (f : SealSt → SealSt) : (d.modSeal n f).moor = d.moor := rfl
@[simp] theorem Dev.modSeal_rgn (d : Dev) (n : Nat) (f : SealSt → SealSt) : (d.modSeal n f).rgn = d.rgn := rfl
@[simp] theorem Dev.modSeal_sram (d : Dev) (n : Nat) (f : SealSt → SealSt) : (d.modSeal n f).sram = d.sram := rfl
@[simp] theorem Dev.modSeal_save (d : Dev) (n : Nat) (f : SealSt → SealSt) : (d.modSeal n f).save = d.save := rfl

/-! modRec changes only ext. -/
@[simp] theorem Dev.modRec_codeH (d : Dev) (n : Nat) (f : ExtRec → ExtRec) : (d.modRec n f).codeH = d.codeH := rfl
@[simp] theorem Dev.modRec_sealEn (d : Dev) (n : Nat) (f : ExtRec → ExtRec) : (d.modRec n f).sealEn = d.sealEn := rfl
@[simp] theorem Dev.modRec_sealSh (d : Dev) (n : Nat) (f : ExtRec → ExtRec) : (d.modRec n f).sealSh = d.sealSh := rfl
@[simp] theorem Dev.modRec_lnd (d : Dev) (n : Nat) (f : ExtRec → ExtRec) : (d.modRec n f).lnd = d.lnd := rfl
@[simp] theorem Dev.modRec_slc (d : Dev) (n : Nat) (f : ExtRec → ExtRec) : (d.modRec n f).slc = d.slc := rfl
@[simp] theorem Dev.modRec_chn (d : Dev) (n : Nat) (f : ExtRec → ExtRec) : (d.modRec n f).chn = d.chn := rfl
@[simp] theorem Dev.modRec_pm (d : Dev) (n : Nat) (f : ExtRec → ExtRec) : (d.modRec n f).pm = d.pm := rfl
@[simp] theorem Dev.modRec_mem (d : Dev) (n : Nat) (f : ExtRec → ExtRec) : (d.modRec n f).mem = d.mem := rfl
@[simp] theorem Dev.modRec_ctx (d : Dev) (n : Nat) (f : ExtRec → ExtRec) : (d.modRec n f).ctx = d.ctx := rfl
@[simp] theorem Dev.modRec_nonce (d : Dev) (n : Nat) (f : ExtRec → ExtRec) : (d.modRec n f).nonce = d.nonce := rfl
@[simp] theorem Dev.modRec_logs (d : Dev) (n : Nat) (f : ExtRec → ExtRec) : (d.modRec n f).logs = d.logs := rfl
@[simp] theorem Dev.modRec_pool (d : Dev) (n : Nat) (f : ExtRec → ExtRec) : (d.modRec n f).pool = d.pool := rfl
@[simp] theorem Dev.modRec_lko (d : Dev) (n : Nat) (f : ExtRec → ExtRec) : (d.modRec n f).lko = d.lko := rfl
@[simp] theorem Dev.modRec_pinLoss (d : Dev) (n : Nat) (f : ExtRec → ExtRec) : (d.modRec n f).pinLoss = d.pinLoss := rfl
@[simp] theorem Dev.modRec_plog (d : Dev) (n : Nat) (f : ExtRec → ExtRec) : (d.modRec n f).plog = d.plog := rfl
@[simp] theorem Dev.modRec_fatalN (d : Dev) (n : Nat) (f : ExtRec → ExtRec) : (d.modRec n f).fatalN = d.fatalN := rfl
@[simp] theorem Dev.modRec_fenceQ (d : Dev) (n : Nat) (f : ExtRec → ExtRec) : (d.modRec n f).fenceQ = d.fenceQ := rfl
@[simp] theorem Dev.modRec_blow (d : Dev) (n : Nat) (f : ExtRec → ExtRec) : (d.modRec n f).blow = d.blow := rfl
@[simp] theorem Dev.modRec_dbgOut (d : Dev) (n : Nat) (f : ExtRec → ExtRec) : (d.modRec n f).dbgOut = d.dbgOut := rfl
@[simp] theorem Dev.modRec_prm (d : Dev) (n : Nat) (f : ExtRec → ExtRec) : (d.modRec n f).prm = d.prm := rfl
@[simp] theorem Dev.modRec_qos (d : Dev) (n : Nat) (f : ExtRec → ExtRec) : (d.modRec n f).qos = d.qos := rfl
@[simp] theorem Dev.modRec_ctr (d : Dev) (n : Nat) (f : ExtRec → ExtRec) : (d.modRec n f).ctr = d.ctr := rfl
@[simp] theorem Dev.modRec_sel (d : Dev) (n : Nat) (f : ExtRec → ExtRec) : (d.modRec n f).sel = d.sel := rfl
@[simp] theorem Dev.modRec_std (d : Dev) (n : Nat) (f : ExtRec → ExtRec) : (d.modRec n f).std = d.std := rfl
@[simp] theorem Dev.modRec_time (d : Dev) (n : Nat) (f : ExtRec → ExtRec) : (d.modRec n f).time = d.time := rfl
@[simp] theorem Dev.modRec_draws (d : Dev) (n : Nat) (f : ExtRec → ExtRec) : (d.modRec n f).draws = d.draws := rfl
@[simp] theorem Dev.modRec_active (d : Dev) (n : Nat) (f : ExtRec → ExtRec) : (d.modRec n f).active = d.active := rfl
@[simp] theorem Dev.modRec_fmnBusy (d : Dev) (n : Nat) (f : ExtRec → ExtRec) : (d.modRec n f).fmnBusy = d.fmnBusy := rfl
@[simp] theorem Dev.modRec_tlhBusy (d : Dev) (n : Nat) (f : ExtRec → ExtRec) : (d.modRec n f).tlhBusy = d.tlhBusy := rfl
@[simp] theorem Dev.modRec_fz (d : Dev) (n : Nat) (f : ExtRec → ExtRec) : (d.modRec n f).fz = d.fz := rfl
@[simp] theorem Dev.modRec_brg (d : Dev) (n : Nat) (f : ExtRec → ExtRec) : (d.modRec n f).brg = d.brg := rfl
@[simp] theorem Dev.modRec_fmn (d : Dev) (n : Nat) (f : ExtRec → ExtRec) : (d.modRec n f).fmn = d.fmn := rfl
@[simp] theorem Dev.modRec_tlh (d : Dev) (n : Nat) (f : ExtRec → ExtRec) : (d.modRec n f).tlh = d.tlh := rfl
@[simp] theorem Dev.modRec_plt (d : Dev) (n : Nat) (f : ExtRec → ExtRec) : (d.modRec n f).plt = d.plt := rfl
@[simp] theorem Dev.modRec_mg (d : Dev) (n : Nat) (f : ExtRec → ExtRec) : (d.modRec n f).mg = d.mg := rfl
@[simp] theorem Dev.modRec_tele (d : Dev) (n : Nat) (f : ExtRec → ExtRec) : (d.modRec n f).tele = d.tele := rfl
@[simp] theorem Dev.modRec_gwy (d : Dev) (n : Nat) (f : ExtRec → ExtRec) : (d.modRec n f).gwy = d.gwy := rfl
@[simp] theorem Dev.modRec_boot (d : Dev) (n : Nat) (f : ExtRec → ExtRec) : (d.modRec n f).boot = d.boot := rfl
@[simp] theorem Dev.modRec_flash (d : Dev) (n : Nat) (f : ExtRec → ExtRec) : (d.modRec n f).flash = d.flash := rfl
@[simp] theorem Dev.modRec_pwr (d : Dev) (n : Nat) (f : ExtRec → ExtRec) : (d.modRec n f).pwr = d.pwr := rfl
@[simp] theorem Dev.modRec_moor (d : Dev) (n : Nat) (f : ExtRec → ExtRec) : (d.modRec n f).moor = d.moor := rfl
@[simp] theorem Dev.modRec_rgn (d : Dev) (n : Nat) (f : ExtRec → ExtRec) : (d.modRec n f).rgn = d.rgn := rfl
@[simp] theorem Dev.modRec_sram (d : Dev) (n : Nat) (f : ExtRec → ExtRec) : (d.modRec n f).sram = d.sram := rfl
@[simp] theorem Dev.modRec_save (d : Dev) (n : Nat) (f : ExtRec → ExtRec) : (d.modRec n f).save = d.save := rfl

/-! The parts of `mg` a path's change leaves alone. -/
@[simp] theorem Dev.modPath_mg_gen (d : Dev) (n : Nat) (f : CPath → CPath) : (d.modPath n f).mg.gen = d.mg.gen := rfl
@[simp] theorem Dev.modPath_mg_stateseq (d : Dev) (n : Nat) (f : CPath → CPath) : (d.modPath n f).mg.stateseq = d.mg.stateseq := rfl
@[simp] theorem Dev.modPath_mg_vdmDrop (d : Dev) (n : Nat) (f : CPath → CPath) : (d.modPath n f).mg.vdmDrop = d.mg.vdmDrop := rfl
@[simp] theorem Dev.modPath_mg_pold (d : Dev) (n : Nat) (f : CPath → CPath) : (d.modPath n f).mg.pold = d.mg.pold := rfl
@[simp] theorem Dev.modPath_mg_pend (d : Dev) (n : Nat) (f : CPath → CPath) : (d.modPath n f).mg.pend = d.mg.pend := rfl
@[simp] theorem Dev.modPath_mg_lrWait (d : Dev) (n : Nat) (f : CPath → CPath) : (d.modPath n f).mg.lrWait = d.mg.lrWait := rfl
@[simp] theorem Dev.modPath_mg_store (d : Dev) (n : Nat) (f : CPath → CPath) : (d.modPath n f).mg.store = d.mg.store := rfl
@[simp] theorem Dev.modPath_mg_storeBad (d : Dev) (n : Nat) (f : CPath → CPath) : (d.modPath n f).mg.storeBad = d.mg.storeBad := rfl
@[simp] theorem Dev.modPath_mg_feats (d : Dev) (n : Nat) (f : CPath → CPath) : (d.modPath n f).mg.feats = d.mg.feats := rfl
@[simp] theorem Dev.modPath_mg_alert (d : Dev) (n : Nat) (f : CPath → CPath) : (d.modPath n f).mg.alert = d.mg.alert := rfl
@[simp] theorem Dev.modPath_mg_scans (d : Dev) (n : Nat) (f : CPath → CPath) : (d.modPath n f).mg.scans = d.mg.scans := rfl
@[simp] theorem Dev.modPath_mg_bankEvt (d : Dev) (n : Nat) (f : CPath → CPath) : (d.modPath n f).mg.bankEvt = d.mg.bankEvt := rfl
@[simp] theorem Dev.modPath_mg_entry (d : Dev) (n : Nat) (f : CPath → CPath) : (d.modPath n f).mg.entry = d.mg.entry := rfl
@[simp] theorem Dev.modPath_mg_emptying (d : Dev) (n : Nat) (f : CPath → CPath) : (d.modPath n f).mg.emptying = d.mg.emptying := rfl
@[simp] theorem Dev.modPath_mg_warm (d : Dev) (n : Nat) (f : CPath → CPath) : (d.modPath n f).mg.warm = d.mg.warm := rfl
@[simp] theorem Dev.modPath_mg_nextOp (d : Dev) (n : Nat) (f : CPath → CPath) : (d.modPath n f).mg.nextOp = d.mg.nextOp := rfl
@[simp] theorem Dev.modPath_mg_convTo (d : Dev) (n : Nat) (f : CPath → CPath) : (d.modPath n f).mg.convTo = d.mg.convTo := rfl

/-! Counting events changes only counters and meters. -/
@[simp] theorem Dev.bump_codeH (d : Dev) (code inst n : Nat) (ld cls : Option Nat) : (d.bump code inst n ld cls).codeH = d.codeH := by
  unfold Dev.bump; dsimp only; split <;> rfl
@[simp] theorem Dev.bump_sealEn (d : Dev) (code inst n : Nat) (ld cls : Option Nat) : (d.bump code inst n ld cls).sealEn = d.sealEn := by
  unfold Dev.bump; dsimp only; split <;> rfl
@[simp] theorem Dev.bump_sealSh (d : Dev) (code inst n : Nat) (ld cls : Option Nat) : (d.bump code inst n ld cls).sealSh = d.sealSh := by
  unfold Dev.bump; dsimp only; split <;> rfl
@[simp] theorem Dev.bump_lnd (d : Dev) (code inst n : Nat) (ld cls : Option Nat) : (d.bump code inst n ld cls).lnd = d.lnd := by
  unfold Dev.bump; dsimp only; split <;> rfl
@[simp] theorem Dev.bump_slc (d : Dev) (code inst n : Nat) (ld cls : Option Nat) : (d.bump code inst n ld cls).slc = d.slc := by
  unfold Dev.bump; dsimp only; split <;> rfl
@[simp] theorem Dev.bump_chn (d : Dev) (code inst n : Nat) (ld cls : Option Nat) : (d.bump code inst n ld cls).chn = d.chn := by
  unfold Dev.bump; dsimp only; split <;> rfl
@[simp] theorem Dev.bump_pm (d : Dev) (code inst n : Nat) (ld cls : Option Nat) : (d.bump code inst n ld cls).pm = d.pm := by
  unfold Dev.bump; dsimp only; split <;> rfl
@[simp] theorem Dev.bump_ext (d : Dev) (code inst n : Nat) (ld cls : Option Nat) : (d.bump code inst n ld cls).ext = d.ext := by
  unfold Dev.bump; dsimp only; split <;> rfl
@[simp] theorem Dev.bump_mem (d : Dev) (code inst n : Nat) (ld cls : Option Nat) : (d.bump code inst n ld cls).mem = d.mem := by
  unfold Dev.bump; dsimp only; split <;> rfl
@[simp] theorem Dev.bump_ctx (d : Dev) (code inst n : Nat) (ld cls : Option Nat) : (d.bump code inst n ld cls).ctx = d.ctx := by
  unfold Dev.bump; dsimp only; split <;> rfl
@[simp] theorem Dev.bump_nonce (d : Dev) (code inst n : Nat) (ld cls : Option Nat) : (d.bump code inst n ld cls).nonce = d.nonce := by
  unfold Dev.bump; dsimp only; split <;> rfl
@[simp] theorem Dev.bump_logs (d : Dev) (code inst n : Nat) (ld cls : Option Nat) : (d.bump code inst n ld cls).logs = d.logs := by
  unfold Dev.bump; dsimp only; split <;> rfl
@[simp] theorem Dev.bump_pool (d : Dev) (code inst n : Nat) (ld cls : Option Nat) : (d.bump code inst n ld cls).pool = d.pool := by
  unfold Dev.bump; dsimp only; split <;> rfl
@[simp] theorem Dev.bump_lko (d : Dev) (code inst n : Nat) (ld cls : Option Nat) : (d.bump code inst n ld cls).lko = d.lko := by
  unfold Dev.bump; dsimp only; split <;> rfl
@[simp] theorem Dev.bump_pinLoss (d : Dev) (code inst n : Nat) (ld cls : Option Nat) : (d.bump code inst n ld cls).pinLoss = d.pinLoss := by
  unfold Dev.bump; dsimp only; split <;> rfl
@[simp] theorem Dev.bump_plog (d : Dev) (code inst n : Nat) (ld cls : Option Nat) : (d.bump code inst n ld cls).plog = d.plog := by
  unfold Dev.bump; dsimp only; split <;> rfl
@[simp] theorem Dev.bump_fatalN (d : Dev) (code inst n : Nat) (ld cls : Option Nat) : (d.bump code inst n ld cls).fatalN = d.fatalN := by
  unfold Dev.bump; dsimp only; split <;> rfl
@[simp] theorem Dev.bump_fenceQ (d : Dev) (code inst n : Nat) (ld cls : Option Nat) : (d.bump code inst n ld cls).fenceQ = d.fenceQ := by
  unfold Dev.bump; dsimp only; split <;> rfl
@[simp] theorem Dev.bump_blow (d : Dev) (code inst n : Nat) (ld cls : Option Nat) : (d.bump code inst n ld cls).blow = d.blow := by
  unfold Dev.bump; dsimp only; split <;> rfl
@[simp] theorem Dev.bump_dbgOut (d : Dev) (code inst n : Nat) (ld cls : Option Nat) : (d.bump code inst n ld cls).dbgOut = d.dbgOut := by
  unfold Dev.bump; dsimp only; split <;> rfl
@[simp] theorem Dev.bump_prm (d : Dev) (code inst n : Nat) (ld cls : Option Nat) : (d.bump code inst n ld cls).prm = d.prm := by
  unfold Dev.bump; dsimp only; split <;> rfl
@[simp] theorem Dev.bump_qos (d : Dev) (code inst n : Nat) (ld cls : Option Nat) : (d.bump code inst n ld cls).qos = d.qos := by
  unfold Dev.bump; dsimp only; split <;> rfl
@[simp] theorem Dev.bump_sel (d : Dev) (code inst n : Nat) (ld cls : Option Nat) : (d.bump code inst n ld cls).sel = d.sel := by
  unfold Dev.bump; dsimp only; split <;> rfl
@[simp] theorem Dev.bump_std (d : Dev) (code inst n : Nat) (ld cls : Option Nat) : (d.bump code inst n ld cls).std = d.std := by
  unfold Dev.bump; dsimp only; split <;> rfl
@[simp] theorem Dev.bump_time (d : Dev) (code inst n : Nat) (ld cls : Option Nat) : (d.bump code inst n ld cls).time = d.time := by
  unfold Dev.bump; dsimp only; split <;> rfl
@[simp] theorem Dev.bump_draws (d : Dev) (code inst n : Nat) (ld cls : Option Nat) : (d.bump code inst n ld cls).draws = d.draws := by
  unfold Dev.bump; dsimp only; split <;> rfl
@[simp] theorem Dev.bump_active (d : Dev) (code inst n : Nat) (ld cls : Option Nat) : (d.bump code inst n ld cls).active = d.active := by
  unfold Dev.bump; dsimp only; split <;> rfl
@[simp] theorem Dev.bump_fmnBusy (d : Dev) (code inst n : Nat) (ld cls : Option Nat) : (d.bump code inst n ld cls).fmnBusy = d.fmnBusy := by
  unfold Dev.bump; dsimp only; split <;> rfl
@[simp] theorem Dev.bump_tlhBusy (d : Dev) (code inst n : Nat) (ld cls : Option Nat) : (d.bump code inst n ld cls).tlhBusy = d.tlhBusy := by
  unfold Dev.bump; dsimp only; split <;> rfl
@[simp] theorem Dev.bump_fz (d : Dev) (code inst n : Nat) (ld cls : Option Nat) : (d.bump code inst n ld cls).fz = d.fz := by
  unfold Dev.bump; dsimp only; split <;> rfl
@[simp] theorem Dev.bump_brg (d : Dev) (code inst n : Nat) (ld cls : Option Nat) : (d.bump code inst n ld cls).brg = d.brg := by
  unfold Dev.bump; dsimp only; split <;> rfl
@[simp] theorem Dev.bump_fmn (d : Dev) (code inst n : Nat) (ld cls : Option Nat) : (d.bump code inst n ld cls).fmn = d.fmn := by
  unfold Dev.bump; dsimp only; split <;> rfl
@[simp] theorem Dev.bump_tlh (d : Dev) (code inst n : Nat) (ld cls : Option Nat) : (d.bump code inst n ld cls).tlh = d.tlh := by
  unfold Dev.bump; dsimp only; split <;> rfl
@[simp] theorem Dev.bump_plt (d : Dev) (code inst n : Nat) (ld cls : Option Nat) : (d.bump code inst n ld cls).plt = d.plt := by
  unfold Dev.bump; dsimp only; split <;> rfl
@[simp] theorem Dev.bump_mg (d : Dev) (code inst n : Nat) (ld cls : Option Nat) : (d.bump code inst n ld cls).mg = d.mg := by
  unfold Dev.bump; dsimp only; split <;> rfl
@[simp] theorem Dev.bump_gwy (d : Dev) (code inst n : Nat) (ld cls : Option Nat) : (d.bump code inst n ld cls).gwy = d.gwy := by
  unfold Dev.bump; dsimp only; split <;> rfl
@[simp] theorem Dev.bump_boot (d : Dev) (code inst n : Nat) (ld cls : Option Nat) : (d.bump code inst n ld cls).boot = d.boot := by
  unfold Dev.bump; dsimp only; split <;> rfl
@[simp] theorem Dev.bump_flash (d : Dev) (code inst n : Nat) (ld cls : Option Nat) : (d.bump code inst n ld cls).flash = d.flash := by
  unfold Dev.bump; dsimp only; split <;> rfl
@[simp] theorem Dev.bump_pwr (d : Dev) (code inst n : Nat) (ld cls : Option Nat) : (d.bump code inst n ld cls).pwr = d.pwr := by
  unfold Dev.bump; dsimp only; split <;> rfl
@[simp] theorem Dev.bump_moor (d : Dev) (code inst n : Nat) (ld cls : Option Nat) : (d.bump code inst n ld cls).moor = d.moor := by
  unfold Dev.bump; dsimp only; split <;> rfl
@[simp] theorem Dev.bump_rgn (d : Dev) (code inst n : Nat) (ld cls : Option Nat) : (d.bump code inst n ld cls).rgn = d.rgn := by
  unfold Dev.bump; dsimp only; split <;> rfl
@[simp] theorem Dev.bump_sram (d : Dev) (code inst n : Nat) (ld cls : Option Nat) : (d.bump code inst n ld cls).sram = d.sram := by
  unfold Dev.bump; dsimp only; split <;> rfl
@[simp] theorem Dev.bump_save (d : Dev) (code inst n : Nat) (ld cls : Option Nat) : (d.bump code inst n ld cls).save = d.save := by
  unfold Dev.bump; dsimp only; split <;> rfl

/-! A refusal changes only the power manager. -/
@[simp] theorem Dev.refuse_codeH (d : Dev) (code inst reason req : Nat) (a : Bool) : (d.refuse code inst reason req a).codeH = d.codeH := rfl
@[simp] theorem Dev.refuse_sealEn (d : Dev) (code inst reason req : Nat) (a : Bool) : (d.refuse code inst reason req a).sealEn = d.sealEn := rfl
@[simp] theorem Dev.refuse_sealSh (d : Dev) (code inst reason req : Nat) (a : Bool) : (d.refuse code inst reason req a).sealSh = d.sealSh := rfl
@[simp] theorem Dev.refuse_lnd (d : Dev) (code inst reason req : Nat) (a : Bool) : (d.refuse code inst reason req a).lnd = d.lnd := rfl
@[simp] theorem Dev.refuse_slc (d : Dev) (code inst reason req : Nat) (a : Bool) : (d.refuse code inst reason req a).slc = d.slc := rfl
@[simp] theorem Dev.refuse_chn (d : Dev) (code inst reason req : Nat) (a : Bool) : (d.refuse code inst reason req a).chn = d.chn := rfl
@[simp] theorem Dev.refuse_pm (d : Dev) (code inst reason req : Nat) (a : Bool) : (d.refuse code inst reason req a).pm = d.pm := rfl
@[simp] theorem Dev.refuse_ext (d : Dev) (code inst reason req : Nat) (a : Bool) : (d.refuse code inst reason req a).ext = d.ext := rfl
@[simp] theorem Dev.refuse_mem (d : Dev) (code inst reason req : Nat) (a : Bool) : (d.refuse code inst reason req a).mem = d.mem := rfl
@[simp] theorem Dev.refuse_ctx (d : Dev) (code inst reason req : Nat) (a : Bool) : (d.refuse code inst reason req a).ctx = d.ctx := rfl
@[simp] theorem Dev.refuse_nonce (d : Dev) (code inst reason req : Nat) (a : Bool) : (d.refuse code inst reason req a).nonce = d.nonce := rfl
@[simp] theorem Dev.refuse_logs (d : Dev) (code inst reason req : Nat) (a : Bool) : (d.refuse code inst reason req a).logs = d.logs := rfl
@[simp] theorem Dev.refuse_pool (d : Dev) (code inst reason req : Nat) (a : Bool) : (d.refuse code inst reason req a).pool = d.pool := rfl
@[simp] theorem Dev.refuse_lko (d : Dev) (code inst reason req : Nat) (a : Bool) : (d.refuse code inst reason req a).lko = d.lko := rfl
@[simp] theorem Dev.refuse_pinLoss (d : Dev) (code inst reason req : Nat) (a : Bool) : (d.refuse code inst reason req a).pinLoss = d.pinLoss := rfl
@[simp] theorem Dev.refuse_plog (d : Dev) (code inst reason req : Nat) (a : Bool) : (d.refuse code inst reason req a).plog = d.plog := rfl
@[simp] theorem Dev.refuse_fatalN (d : Dev) (code inst reason req : Nat) (a : Bool) : (d.refuse code inst reason req a).fatalN = d.fatalN := rfl
@[simp] theorem Dev.refuse_fenceQ (d : Dev) (code inst reason req : Nat) (a : Bool) : (d.refuse code inst reason req a).fenceQ = d.fenceQ := rfl
@[simp] theorem Dev.refuse_blow (d : Dev) (code inst reason req : Nat) (a : Bool) : (d.refuse code inst reason req a).blow = d.blow := rfl
@[simp] theorem Dev.refuse_dbgOut (d : Dev) (code inst reason req : Nat) (a : Bool) : (d.refuse code inst reason req a).dbgOut = d.dbgOut := rfl
@[simp] theorem Dev.refuse_prm (d : Dev) (code inst reason req : Nat) (a : Bool) : (d.refuse code inst reason req a).prm = d.prm := rfl
@[simp] theorem Dev.refuse_qos (d : Dev) (code inst reason req : Nat) (a : Bool) : (d.refuse code inst reason req a).qos = d.qos := rfl
@[simp] theorem Dev.refuse_ctr (d : Dev) (code inst reason req : Nat) (a : Bool) : (d.refuse code inst reason req a).ctr = d.ctr := rfl
@[simp] theorem Dev.refuse_sel (d : Dev) (code inst reason req : Nat) (a : Bool) : (d.refuse code inst reason req a).sel = d.sel := rfl
@[simp] theorem Dev.refuse_std (d : Dev) (code inst reason req : Nat) (a : Bool) : (d.refuse code inst reason req a).std = d.std := rfl
@[simp] theorem Dev.refuse_time (d : Dev) (code inst reason req : Nat) (a : Bool) : (d.refuse code inst reason req a).time = d.time := rfl
@[simp] theorem Dev.refuse_draws (d : Dev) (code inst reason req : Nat) (a : Bool) : (d.refuse code inst reason req a).draws = d.draws := rfl
@[simp] theorem Dev.refuse_active (d : Dev) (code inst reason req : Nat) (a : Bool) : (d.refuse code inst reason req a).active = d.active := rfl
@[simp] theorem Dev.refuse_fmnBusy (d : Dev) (code inst reason req : Nat) (a : Bool) : (d.refuse code inst reason req a).fmnBusy = d.fmnBusy := rfl
@[simp] theorem Dev.refuse_tlhBusy (d : Dev) (code inst reason req : Nat) (a : Bool) : (d.refuse code inst reason req a).tlhBusy = d.tlhBusy := rfl
@[simp] theorem Dev.refuse_fz (d : Dev) (code inst reason req : Nat) (a : Bool) : (d.refuse code inst reason req a).fz = d.fz := rfl
@[simp] theorem Dev.refuse_brg (d : Dev) (code inst reason req : Nat) (a : Bool) : (d.refuse code inst reason req a).brg = d.brg := rfl
@[simp] theorem Dev.refuse_fmn (d : Dev) (code inst reason req : Nat) (a : Bool) : (d.refuse code inst reason req a).fmn = d.fmn := rfl
@[simp] theorem Dev.refuse_tlh (d : Dev) (code inst reason req : Nat) (a : Bool) : (d.refuse code inst reason req a).tlh = d.tlh := rfl
@[simp] theorem Dev.refuse_plt (d : Dev) (code inst reason req : Nat) (a : Bool) : (d.refuse code inst reason req a).plt = d.plt := rfl
@[simp] theorem Dev.refuse_mg (d : Dev) (code inst reason req : Nat) (a : Bool) : (d.refuse code inst reason req a).mg = d.mg := rfl
@[simp] theorem Dev.refuse_tele (d : Dev) (code inst reason req : Nat) (a : Bool) : (d.refuse code inst reason req a).tele = d.tele := rfl
@[simp] theorem Dev.refuse_gwy (d : Dev) (code inst reason req : Nat) (a : Bool) : (d.refuse code inst reason req a).gwy = d.gwy := rfl
@[simp] theorem Dev.refuse_boot (d : Dev) (code inst reason req : Nat) (a : Bool) : (d.refuse code inst reason req a).boot = d.boot := rfl
@[simp] theorem Dev.refuse_flash (d : Dev) (code inst reason req : Nat) (a : Bool) : (d.refuse code inst reason req a).flash = d.flash := rfl
@[simp] theorem Dev.refuse_moor (d : Dev) (code inst reason req : Nat) (a : Bool) : (d.refuse code inst reason req a).moor = d.moor := rfl
@[simp] theorem Dev.refuse_rgn (d : Dev) (code inst reason req : Nat) (a : Bool) : (d.refuse code inst reason req a).rgn = d.rgn := rfl
@[simp] theorem Dev.refuse_sram (d : Dev) (code inst reason req : Nat) (a : Bool) : (d.refuse code inst reason req a).sram = d.sram := rfl
@[simp] theorem Dev.refuse_save (d : Dev) (code inst reason req : Nat) (a : Bool) : (d.refuse code inst reason req a).save = d.save := rfl

end Sys2Proof.Machine
end

