-- ==== Sys2Proof/Laws/Table.lean ====
section
/-! SUPPORT. Laws of the sparse tables and of the byte memory: a read after a write, and that every write keeps the canonical form. -/
namespace Sys2Proof.Machine
set_option Elab.async false

variable {α : Type} [DecidableEq α]

/-- A place written with a value other than the default reads as that value. -/
theorem tget_tput_same (z v : α) (hv : v ≠ z) (t : Tbl α) (n : Nat) : tget z (tput z t n v) n = v := by
  induction t with
  | nil => simp [tput, tget, hv]
  | cons x t ih =>
    obtain ⟨k, w⟩ := x
    by_cases h1 : k < n
    · have h2 : k ≠ n := by omega
      simp [tput, tget, h1, h2, ih]
    · by_cases h2 : k = n
      · simp [tput, tget, h2, hv]
      · simp [tput, tget, h1, h2, hv]

/-- A write leaves every other place alone. -/
theorem tget_tput_ne (z v : α) (t : Tbl α) {n m : Nat} (h : m ≠ n) : tget z (tput z t n v) m = tget z t m := by
  induction t with
  | nil =>
    by_cases hv : v = z
    · simp [tput, tget, hv]
    · simp [tput, tget, hv, Ne.symm h]
  | cons x t ih =>
    obtain ⟨k, w⟩ := x
    by_cases h1 : k < n
    · by_cases h3 : k = m
      · simp [tput, tget, h3]
        have : m < n := by omega
        simp [this, tget]
      · simp [tput, tget, h1, h3, ih]
    · by_cases h2 : k = n
      · subst h2
        by_cases hv : v = z
        · simp [tput, tget, hv, Ne.symm h]
        · simp [tput, tget, hv, Ne.symm h]
      · by_cases hv : v = z
        · simp [tput, tget, h1, h2, hv]
        · simp [tput, tget, h1, h2, hv, Ne.symm h]

/-- Every entry of a written table is an old entry or the one written. -/
theorem mem_tput (z v : α) (t : Tbl α) (n : Nat) (x : Nat × α) (h : x ∈ tput z t n v) : x ∈ t ∨ x = (n, v) := by
  induction t with
  | nil =>
    by_cases hv : v = z
    · simp [tput, hv] at h
    · simp [tput, hv] at h
      exact .inr h
  | cons y t ih =>
    obtain ⟨k, w⟩ := y
    simp only [tput] at h
    split at h
    · rcases List.mem_cons.1 h with h | h
      · exact .inl (by simp [h])
      · rcases ih h with h | h
        · exact .inl (List.mem_cons_of_mem _ h)
        · exact .inr h
    · split at h
      · split at h
        · exact .inl (List.mem_cons_of_mem _ h)
        · rcases List.mem_cons.1 h with h | h
          · exact .inr h
          · exact .inl (List.mem_cons_of_mem _ h)
      · split at h
        · exact .inl h
        · rcases List.mem_cons.1 h with h | h
          · exact .inr h
          · exact .inl h

omit [DecidableEq α] in
/-- What a table holds at a place is the default or one of its entries. -/
theorem tget_mem (z : α) (t : Tbl α) (n : Nat) : tget z t n = z ∨ ∃ x ∈ t, tget z t n = x.2 := by
  induction t with
  | nil => exact .inl rfl
  | cons y t ih =>
    obtain ⟨k, w⟩ := y
    by_cases h : k = n
    · exact .inr ⟨(k, w), by simp, by simp [tget, h]⟩
    · rcases ih with h' | ⟨x, hx, h'⟩
      · exact .inl (by simp [tget, h, h'])
      · exact .inr ⟨x, List.mem_cons_of_mem _ hx, by simp [tget, h, h']⟩

/-- A property of the default and of every entry passes to every entry of a changed table. -/
theorem all_tmod (z : α) (p : α → Bool) (f : α → α) (hz : p z = true) (hf : ∀ x, p x = true → p (f x) = true) (t : Tbl α) (n : Nat)
    (h : (t.all fun x => p x.2) = true) : ((tmod z t n f).all fun x => p x.2) = true := by
  rw [List.all_eq_true] at h ⊢
  intro x hx
  rcases mem_tput z _ t n x hx with hx | rfl
  · exact h x hx
  · refine hf _ ?_
    rcases tget_mem z t n with h' | ⟨y, hy, h'⟩
    · rw [h']; exact hz
    · rw [h']; exact h y hy

omit [DecidableEq α] in
theorem risesFrom_mono {lo lo' : Nat} (h : lo' ≤ lo) (t : Tbl α) (hw : Tbl.risesFrom lo t = true) : Tbl.risesFrom lo' t = true := by
  cases t with
  | nil => rfl
  | cons x t =>
    obtain ⟨k, v⟩ := x
    simp [Tbl.risesFrom] at hw ⊢
    exact ⟨by omega, hw.2⟩

theorem risesFrom_tput (z v : α) (t : Tbl α) (n : Nat) {lo : Nat} (hn : lo ≤ n) (h : Tbl.risesFrom lo t = true) : Tbl.risesFrom lo (tput z t n v) = true := by
  induction t generalizing lo with
  | nil =>
    by_cases hv : v = z
    · simp [tput, hv, Tbl.risesFrom]
    · simp [tput, hv, Tbl.risesFrom, hn]
  | cons x t ih =>
    obtain ⟨k, w⟩ := x
    simp [Tbl.risesFrom] at h
    by_cases h1 : k < n
    · simp [tput, h1, Tbl.risesFrom, h.1, ih (show k + 1 ≤ n from h1) h.2]
    · by_cases h2 : k = n
      · subst h2
        by_cases hv : v = z
        · simp [tput, hv]
          exact risesFrom_mono (by omega) t h.2
        · simp [tput, hv, Tbl.risesFrom, hn, h.2]
      · by_cases hv : v = z
        · simp [tput, h1, h2, hv, Tbl.risesFrom, h.1, h.2]
        · simp [tput, h1, h2, hv, Tbl.risesFrom, hn, h.2]
          omega

/-- A write keeps the one form of a table. -/
theorem rises_tput (z v : α) (t : Tbl α) (n : Nat) (h : Tbl.rises t = true) : Tbl.rises (tput z t n v) = true :=
  risesFrom_tput z v t n (Nat.zero_le _) h

omit [DecidableEq α] in
theorem tget_low (z : α) (t : Tbl α) {lo n : Nat} (h : Tbl.risesFrom lo t = true) (hn : n < lo) : tget z t n = z := by
  induction t generalizing lo with
  | nil => rfl
  | cons x t ih =>
    obtain ⟨k, w⟩ := x
    simp [Tbl.risesFrom] at h
    have h1 : k ≠ n := by omega
    simp [tget, h1, ih h.2 (by omega)]

theorem tget_tput_self (z v : α) (t : Tbl α) (n : Nat) {lo : Nat} (h : Tbl.risesFrom lo t = true) : tget z (tput z t n v) n = v := by
  induction t generalizing lo with
  | nil =>
    by_cases hv : v = z
    · simp [tput, tget, hv]
    · simp [tput, tget, hv]
  | cons x t ih =>
    obtain ⟨k, w⟩ := x
    simp [Tbl.risesFrom] at h
    by_cases h1 : k < n
    · have h2 : k ≠ n := by omega
      simp [tput, tget, h1, h2, ih h.2]
    · by_cases h2 : k = n
      · subst h2
        by_cases hv : v = z
        · simp [tput, hv, tget_low z t h.2 (Nat.lt_succ_self k)]
        · simp [tput, tget, hv]
      · by_cases hv : v = z
        · simp [tput, tget, h1, h2, hv, tget_low z t h.2 (show n < k + 1 by omega)]
        · simp [tput, tget, h1, h2, hv]

/-- A table in its one form reads, after a write, what was written there and what it held elsewhere. -/
theorem tget_tput (z v : α) (t : Tbl α) (n m : Nat) (h : Tbl.rises t = true) : tget z (tput z t n v) m = if m = n then v else tget z t m := by
  by_cases hm : m = n
  · rw [if_pos hm, hm]
    exact tget_tput_self z v t n h
  · rw [if_neg hm]
    exact tget_tput_ne z v t hm

/-- Writing below the first listed place. -/
theorem tput_low (z v : α) (t : Tbl α) {lo n : Nat} (h : Tbl.risesFrom lo t = true) (hn : n < lo) : tput z t n v = if v = z then t else (n, v) :: t := by
  cases t with
  | nil => rfl
  | cons x t =>
    obtain ⟨k, w⟩ := x
    simp [Tbl.risesFrom] at h
    have h1 : ¬ k < n := by omega
    have h2 : k ≠ n := by omega
    simp [tput, h1, h2]

theorem tput_tput_from (z v w : α) (t : Tbl α) (n : Nat) {lo : Nat} (h : Tbl.risesFrom lo t = true) : tput z (tput z t n v) n w = tput z t n w := by
  induction t generalizing lo with
  | nil =>
    by_cases hv : v = z
    · simp [tput, hv]
    · simp [tput, hv]
  | cons x t ih =>
    obtain ⟨k, u⟩ := x
    simp [Tbl.risesFrom] at h
    by_cases h1 : k < n
    · simp [tput, h1, ih h.2]
    · by_cases h2 : k = n
      · subst h2
        by_cases hv : v = z
        · simp [tput, hv, tput_low z w t h.2 (Nat.lt_succ_self k)]
        · simp [tput, hv]
      · by_cases hv : v = z
        · simp [tput, h1, h2, hv]
        · simp [tput, h1, h2, hv]

/-- The last of two writes of a place is the one that stays. -/
theorem tput_tput (z v w : α) (t : Tbl α) (n : Nat) (h : Tbl.rises t = true) : tput z (tput z t n v) n w = tput z t n w :=
  tput_tput_from z v w t n h

end Sys2Proof.Machine
end

