-- ==== Sys2Proof/Laws/Rest.lean ====
section
/-! SUPPORT. What follows a command on a device with no internal work waiting: nothing; and the frames every command runs in. -/
namespace Sys2Proof.Machine
set_option Elab.async false

theorem foldl_keep {β γ : Type} (f : γ → β → γ) (d : γ) (l : List β) (h : ∀ b ∈ l, f d b = d) : l.foldl f d = d := by
  induction l with
  | nil => rfl
  | cons b l ih =>
    rw [List.foldl_cons, h b (by simp)]
    exact ih fun x hx => h x (List.mem_cons_of_mem _ hx)

/-- The parts of `tidy`. -/
structure Dev.Tidy (d : Dev) : Prop where
  lnd : Tbl.rises d.lnd = true
  slc : Tbl.rises d.slc = true
  chn : Tbl.rises d.chn = true
  brg : Tbl.rises d.brg = true
  prm : Tbl.rises d.prm = true
  paths : Tbl.rises d.mg.paths = true
  ctx : Tbl.rises d.ctx = true
  plt : Tbl.rises d.plt = true

/-- The parts of `atRest`. -/
structure Dev.Rest (d : Dev) : Prop where
  fence : d.fenceQ = []
  blow : d.blow = 0#2048
  slc : ∀ x ∈ d.slc, x.2.waitq = [] ∧ x.2.filt.colls = [] ∧ x.2.filt.credReq = []
  lnd : ∀ x ∈ d.lnd, x.2.pool.txq = []
  entry : d.mg.entry = none
  chn : d.fmnBusy = true ∨ ∀ x ∈ d.chn, x.2.retQ = []
  ovr : d.active = false ∨ decide (d.nominal < d.usedBlocks) = d.ext.ovr
  recs : d.fmnBusy = true ∨ ∀ r ∈ d.lko.recs, r.held = true
  tidy : d.Tidy

/-- The parts of rest that the work after a command looks at. -/
structure Dev.Calm (d : Dev) : Prop where
  fence : d.fenceQ = []
  slc : ∀ x ∈ d.slc, x.2.waitq = [] ∧ x.2.filt.colls = [] ∧ x.2.filt.credReq = []
  lnd : ∀ x ∈ d.lnd, x.2.pool.txq = []
  entry : d.mg.entry = none
  chn : d.fmnBusy = true ∨ ∀ x ∈ d.chn, x.2.retQ = []
  ovr : d.active = false ∨ decide (d.nominal < d.usedBlocks) = d.ext.ovr
  recs : d.fmnBusy = true ∨ ∀ r ∈ d.lko.recs, r.held = true

theorem Dev.Rest.calm {d : Dev} (h : d.Rest) : d.Calm := ⟨h.fence, h.slc, h.lnd, h.entry, h.chn, h.ovr, h.recs⟩

/-- Fuses to blow are no work for the device. -/
theorem Dev.Calm.blown {d : Dev} (h : d.Calm) (b : BitVec 2048) : ({ d with blow := b } : Dev).Calm :=
  ⟨h.fence, h.slc, h.lnd, h.entry, h.chn, h.ovr, h.recs⟩

theorem Dev.tidy_iff (d : Dev) : d.tidy = true ↔ d.Tidy := by
  simp only [Dev.tidy, Bool.and_eq_true]
  exact ⟨fun ⟨⟨⟨⟨⟨⟨⟨a, b⟩, c⟩, e⟩, f⟩, g⟩, h⟩, i⟩ => ⟨a, b, c, e, f, g, h, i⟩, fun h => ⟨⟨⟨⟨⟨⟨⟨h.lnd, h.slc⟩, h.chn⟩, h.brg⟩, h.prm⟩, h.paths⟩, h.ctx⟩, h.plt⟩⟩

/-- A device at rest has every part of `atRest`. -/
theorem Dev.atRest_iff (d : Dev) : d.atRest = true ↔ d.Rest := by
  constructor
  · intro h
    simp only [Dev.atRest, Slice.atRest, Bool.and_eq_true, Bool.or_eq_true, List.all_eq_true, List.isEmpty_iff, decide_eq_true_eq, Option.isNone_iff_eq_none,
      beq_iff_eq, Bool.not_eq_true'] at h
    obtain ⟨⟨⟨⟨⟨⟨⟨⟨h1, h2⟩, h3⟩, h4⟩, h5⟩, h6⟩, h7⟩, h8⟩, h9⟩ := h
    exact ⟨h1, h2, fun x hx => ⟨(h3 x hx).1.1, (h3 x hx).1.2, (h3 x hx).2⟩, h4, h5, h6, h7, h8, d.tidy_iff.1 h9⟩
  · intro h
    simp only [Dev.atRest, Slice.atRest, Bool.and_eq_true, Bool.or_eq_true, List.all_eq_true, List.isEmpty_iff, decide_eq_true_eq, Option.isNone_iff_eq_none,
      beq_iff_eq, Bool.not_eq_true']
    exact ⟨⟨⟨⟨⟨⟨⟨⟨h.fence, h.blow⟩, fun x hx => ⟨⟨(h.slc x hx).1, (h.slc x hx).2.1⟩, (h.slc x hx).2.2⟩⟩, h.lnd⟩, h.entry⟩, h.chn⟩, h.ovr⟩, h.recs⟩,
      d.tidy_iff.2 h.tidy⟩

theorem map_pump (t : Tbl Landing) (h : ∀ x ∈ t, x.2.pool.txq = []) : (t.map fun x => (x.1, x.2.pump x.2.pool.txq.length)) = t := by
  induction t with
  | nil => rfl
  | cons x t ih =>
    rw [List.map_cons, ih fun y hy => h y (List.mem_cons_of_mem _ hy), h x (by simp)]
    rfl

/-- With no ordered fence, request, collection, credit or response waiting, nothing follows inside the block. -/
theorem Dev.calm_rest (d : Dev) (h : d.Calm) : d.calm = d := by
  have e1 : Dev.applyFences fenceFuel d = d := by
    simp [fenceFuel, Dev.applyFences, h.fence]
  have e2 : d.finishColls = d := by
    unfold Dev.finishColls
    apply foldl_keep
    intro x hx
    rw [(h.slc x hx).2.1]
    rfl
  have e3 : d.retryAll = d := by
    unfold Dev.retryAll
    apply foldl_keep
    intro x hx
    rw [(h.slc x hx).1]
    rfl
  have e4 : d.grantCredits = d := by
    unfold Dev.grantCredits
    apply foldl_keep
    intro x hx
    rw [(h.slc x hx).2.2]
    rfl
  have e5 : d.pumpAll = d := by
    unfold Dev.pumpAll
    rw [map_pump d.lnd h.lnd]
  unfold Dev.calm
  dsimp only
  rw [e1]
  split
  · rfl
  · rw [e2, e3, e4, e5, e1]

theorem Dev.retirePending_rest (d : Dev) (h : d.Calm) : d.retirePending = d := by
  unfold Dev.retirePending
  rcases h.chn with h | h
  · rw [if_pos h]
  · split
    · rfl
    · apply foldl_keep
      intro x hx
      have e : (d.ch x.1).retQ = [] := by
        rcases tget_mem {} d.chn x.1 with h' | ⟨y, hy, h'⟩
        · unfold Dev.ch
          rw [h']
        · unfold Dev.ch
          rw [h']
          exact h y hy
      dsimp only
      rw [e]
      rfl

theorem Dev.overcommit_rest (d : Dev) (h : d.Calm) : d.overcommit = d := by
  unfold Dev.overcommit
  rcases h.ovr with h | h
  · rw [h]
    rfl
  · split
    · rfl
    · dsimp only
      rw [h]
      simp

/-- Records that wait for their acknowledgement are not changed by Syust's logging. -/
theorem held_keep (rs : List FRec) (h : ∀ r ∈ rs, r.held = true) :
    (rs.filter fun r => !r.logged) = [] ∧
      ((rs.map fun r => ({ r with logged := true, ack := r.ack || decide (r.fin = .corrected) } : FRec)).filter fun r => !r.ack) = rs := by
  induction rs with
  | nil => exact ⟨rfl, rfl⟩
  | cons r rs ih =>
    obtain ⟨a, b⟩ := ih fun x hx => h x (List.mem_cons_of_mem _ hx)
    have hr := h r (by simp)
    simp only [FRec.held, Bool.and_eq_true, Bool.not_eq_true', decide_eq_true_eq] at hr
    obtain ⟨⟨h1, h2⟩, h3⟩ := hr
    refine ⟨?_, ?_⟩
    · simp [h1, a]
    · rw [List.map_cons, List.filter_cons_of_pos, b]
      · congr 1
        cases r
        simp_all
      · simp [h2, h3]

theorem Dev.syustLogs_rest (d : Dev) (h : d.Calm) : d.syustLogs = d := by
  unfold Dev.syustLogs
  rcases h.recs with h | h
  · rw [if_pos h]
  · split
    · rfl
    · obtain ⟨a, b⟩ := held_keep _ h
      rw [a]
      dsimp only
      rw [b]
      rfl

/-- Nothing follows a command that leaves no internal work waiting, whatever fuses are to blow. -/
theorem settle_calm (old d : Dev) (h : d.Calm) : settle old d = d := by
  have hw : Dev.entryWatch old d = d := by
    unfold Dev.entryWatch
    rw [h.entry]
  unfold settle
  rw [d.calm_rest h, hw, d.retirePending_rest h, d.overcommit_rest h, d.syustLogs_rest h]

/-- Nothing follows a command that leaves the device at rest. -/
theorem settle_rest (old d : Dev) (h : d.Rest) : settle old d = d := settle_calm old d h.calm

/-- A command that leaves no internal work waiting ends in the device it computes. -/
theorem onDev_rest (s : State) (f : Dev → Dev) (h : (f s.dev).Rest) : onDev s f = .next { s with dev := f s.dev } := by
  unfold onDev
  dsimp only
  rw [settle_rest _ _ h, h.blow]
  have e : s.otp.map ||| 0#2048 = s.otp.map := by simp
  rw [e, ← h.blow]

/-- Everything a command on the device can do: a next state, the queue and the board fuses as they were, the core fuses grown, nothing left to blow. -/
theorem onDev_next (s : State) (f : Dev → Dev) : ∃ t, onDev s f = .next t ∧ t.pending = s.pending ∧ t.otp.board = s.otp.board
    ∧ s.otp.map ||| t.otp.map = t.otp.map ∧ t.dev.blow = 0#2048 := by
  refine ⟨_, rfl, rfl, rfl, ?_, rfl⟩
  dsimp only
  rw [← BitVec.or_assoc, BitVec.or_self]

theorem Dev.blow_self {e : Dev} (h : e.blow = 0#2048) : ({ e with blow := 0#2048 } : Dev) = e := by
  rw [← h]

/-- A command ends in what its internal work leaves, when it blows no fuse. -/
theorem onDev_settle {s : State} {f : Dev → Dev} {d : Dev} (hf : f s.dev = d) (hb : (settle s.dev d).blow = 0#2048) :
    onDev s f = .next { s with dev := settle s.dev d } := by
  unfold onDev
  rw [hf]
  dsimp only
  rw [Dev.blow_self hb, hb, BitVec.or_zero]

/-- A command that names a present unit runs as one on the device. -/
theorem onUnit_on (n : Nat) (s : State) (f : Dev → Dev) (h : s.dev.on n = true) : onUnit n s f = onDev s f := by
  simp [onUnit, h]

/-- A command that names a fused-off unit stops. -/
theorem onUnit_off (n : Nat) (s : State) (f : Dev → Dev) (h : s.dev.on n = false) : onUnit n s f = .fault .absentUnit := by
  simp [onUnit, h]

/-- A command of the Barge runs as one on the device while its slice is clocked and powered. -/
theorem onBarge_on (s : State) (f : Dev → Dev) (h : s.dev.bargeOn1 = true) (hr : (f s.dev).Rest) : onBarge s f = .next { s with dev := f s.dev } := by
  unfold onBarge
  rw [onDev_rest]
  · simp [h]
  · simpa [h] using hr

/-- A mailbox command of a path other than I3C runs as one on the device. -/
theorem onMail_rest (p : CmdPath) (s : State) (f : Dev → Nat → Dev) (hp : pathNo p ≠ 32) (hr : (f s.dev (pathNo p)).Rest) :
    onMail p s f = .next { s with dev := f s.dev (pathNo p) } := by
  unfold onMail
  rw [onDev_rest] <;> simp [Dev.onPath, hp, hr]

/-- A command that computes a device at rest ends in it. -/
theorem onDev_to {s : State} {f : Dev → Dev} {d : Dev} (hf : f s.dev = d) (hd : d.Rest) : onDev s f = .next { s with dev := d } := by
  rw [onDev_rest s f (by rw [hf]; exact hd), hf]

/-- The same for a command that names a present unit. -/
theorem onUnit_to {n : Nat} {s : State} {f : Dev → Dev} {d : Dev} (hn : s.dev.on n = true) (hf : f s.dev = d) (hd : d.Rest) :
    onUnit n s f = .next { s with dev := d } := by
  rw [onUnit_on n s f hn, onDev_to hf hd]

/-- The same for a command of the Barge with its slice running. -/
theorem onBarge_to {s : State} {f : Dev → Dev} {d : Dev} (hb : s.dev.bargeOn1 = true) (hf : f s.dev = d) (hd : d.Rest) :
    onBarge s f = .next { s with dev := d } :=
  onDev_to (by simp [hb, hf]) hd

/-! Updates that leave a device at rest at rest. -/

/-- A device that differs from one at rest only in fields rest does not look at is at rest. -/
theorem Dev.Rest.same {d e : Dev} (h : d.Rest) (fence : e.fenceQ = d.fenceQ := by rfl) (blow : e.blow = d.blow := by rfl) (slc : e.slc = d.slc := by rfl)
    (lnd : e.lnd = d.lnd := by rfl) (entry : e.mg.entry = d.mg.entry := by rfl) (chn : e.chn = d.chn := by rfl) (fmn : e.fmnBusy = d.fmnBusy := by rfl)
    (act : e.active = d.active := by rfl) (nom : e.nominal = d.nominal := by rfl) (used : e.usedBlocks = d.usedBlocks := by rfl)
    (ovr : e.ext.ovr = d.ext.ovr := by rfl) (recs : e.lko.recs = d.lko.recs := by rfl) (brg : e.brg = d.brg := by rfl) (prm : e.prm = d.prm := by rfl)
    (paths : e.mg.paths = d.mg.paths := by rfl) (ctx : e.ctx = d.ctx := by rfl) (plt : e.plt = d.plt := by rfl) : e.Rest :=
  { fence := fence.trans h.fence
    blow := blow.trans h.blow
    slc := slc ▸ h.slc
    lnd := lnd ▸ h.lnd
    entry := entry.trans h.entry
    chn := by rw [fmn, chn]; exact h.chn
    ovr := by rw [act, nom, used, ovr]; exact h.ovr
    recs := by rw [fmn, recs]; exact h.recs
    tidy := ⟨lnd ▸ h.tidy.lnd, slc ▸ h.tidy.slc, chn ▸ h.tidy.chn, brg ▸ h.tidy.brg, prm ▸ h.tidy.prm, paths ▸ h.tidy.paths, ctx ▸ h.tidy.ctx, plt ▸ h.tidy.plt⟩ }

theorem Dev.Rest.modLd {d : Dev} (h : d.Rest) (n : Nat) (f : Landing → Landing) (hf : ∀ l, l.pool.txq = [] → (f l).pool.txq = [] := by intro l hl; exact hl) :
    (d.modLd n f).Rest := by
  refine ⟨h.fence, h.blow, h.slc, ?_, h.entry, h.chn, h.ovr, h.recs, { h.tidy with lnd := rises_tput _ _ _ _ h.tidy.lnd }⟩
  have := all_tmod ({} : Landing) (fun l => l.pool.txq.isEmpty) f rfl (fun x hx => by simpa [hf] using hf x (by simpa using hx)) d.lnd n
    (by simpa [List.all_eq_true] using h.lnd)
  simpa [List.all_eq_true, Dev.modLd] using this

theorem Dev.Rest.modMs {d : Dev} (h : d.Rest) (n : Nat) (f : Slice → Slice)
    (hf : ∀ x, x.atRest = true → (f x).atRest = true := by intro x hx; exact hx) : (d.modMs n f).Rest := by
  refine ⟨h.fence, h.blow, ?_, h.lnd, h.entry, h.chn, h.ovr, h.recs, { h.tidy with slc := rises_tput _ _ _ _ h.tidy.slc }⟩
  have := all_tmod ({} : Slice) Slice.atRest f rfl hf d.slc n
    (by simpa [List.all_eq_true, Slice.atRest, and_assoc] using h.slc)
  simpa [List.all_eq_true, Slice.atRest, Dev.modMs, and_assoc] using this

theorem Dev.Rest.modBg {d : Dev} (h : d.Rest) (n : Nat) (f : BrgCh → BrgCh) : (d.modBg n f).Rest :=
  ⟨h.fence, h.blow, h.slc, h.lnd, h.entry, h.chn, h.ovr, h.recs, { h.tidy with brg := rises_tput _ _ _ _ h.tidy.brg }⟩

theorem Dev.Rest.modPath {d : Dev} (h : d.Rest) (n : Nat) (f : CPath → CPath) : (d.modPath n f).Rest :=
  ⟨h.fence, h.blow, h.slc, h.lnd, h.entry, h.chn, h.ovr, h.recs, { h.tidy with paths := rises_tput _ _ _ _ h.tidy.paths }⟩

theorem Dev.Rest.modCtx {d : Dev} (h : d.Rest) (t : Tbl CtxRec) (ht : Tbl.rises t = true) : ({ d with ctx := t } : Dev).Rest :=
  ⟨h.fence, h.blow, h.slc, h.lnd, h.entry, h.chn, h.ovr, h.recs, { h.tidy with ctx := ht }⟩

theorem Dev.Rest.modPlt {d : Dev} (h : d.Rest) (t : Tbl Pilot) (ht : Tbl.rises t = true) : ({ d with plt := t } : Dev).Rest :=
  ⟨h.fence, h.blow, h.slc, h.lnd, h.entry, h.chn, h.ovr, h.recs, { h.tidy with plt := ht }⟩

theorem Dev.ld_modLd {d : Dev} (h : d.Rest) (n m : Nat) (f : Landing → Landing) : (d.modLd n f).ld m = if m = n then f (d.ld n) else d.ld m :=
  tget_tput _ _ _ _ _ h.tidy.lnd

theorem Dev.ms_modMs {d : Dev} (h : d.Rest) (n m : Nat) (f : Slice → Slice) : (d.modMs n f).ms m = if m = n then f (d.ms n) else d.ms m :=
  tget_tput _ _ _ _ _ h.tidy.slc

theorem Dev.ch_modCh {d : Dev} (h : d.Rest) (n m : Nat) (f : Chan → Chan) : (d.modCh n f).ch m = if m = n then f (d.ch n) else d.ch m :=
  tget_tput _ _ _ _ _ h.tidy.chn

theorem Dev.path_modPath {d : Dev} (h : d.Rest) (n m : Nat) (f : CPath → CPath) : (d.modPath n f).path m = if m = n then f (d.path n) else d.path m :=
  tget_tput _ _ _ _ _ h.tidy.paths

theorem Dev.bg_modBg {d : Dev} (h : d.Rest) (n m : Nat) (f : BrgCh → BrgCh) : (d.modBg n f).bg m = if m = n then f (d.bg n) else d.bg m := by
  unfold Dev.bg Dev.modBg
  rw [tget_tput _ _ _ _ _ h.tidy.brg]
  by_cases hm : m = n
  · subst hm
    simp [Dev.bg]
  · simp [hm]

theorem units_foldl_congr {β : Type} (l : List Nat) (p q : Nat → Bool) (f g : β → Nat → β) (b : β) (hp : ∀ x, p x = q x) (hf : ∀ b x, f b x = g b x) :
    (l.filter p).foldl f b = (l.filter q).foldl g b := by
  rw [show p = q from funext hp, show f = g from funext fun b => funext fun x => hf b x]

theorem Dev.nominal_modCh {d : Dev} (h : d.Rest) (n : Nat) (f : Chan → Chan)
    (hf : (f (d.ch n)).pop = (d.ch n).pop ∧ (f (d.ch n)).usable = (d.ch n).usable) : (d.modCh n f).nominal = d.nominal := by
  have hb : ∀ c, ((d.modCh n f).ch c).bytes = (d.ch c).bytes := by
    intro c
    rw [Dev.ch_modCh h]
    split
    · subst_vars
      unfold Chan.bytes
      rw [hf.1]
    · rfl
  have hu : ∀ c, ((d.modCh n f).ch c).usable = (d.ch c).usable := by
    intro c
    rw [Dev.ch_modCh h]
    split
    · subst_vars
      exact hf.2
    · rfl
  have : (d.modCh n f).installed = d.installed :=
    units_foldl_congr _ _ _ _ _ _ (fun c => by unfold Dev.chOk; rw [hu]; rfl) fun s c => by rw [hb]
  unfold Dev.nominal
  rw [this]
  rfl

theorem Dev.Rest.modCh {d : Dev} (h : d.Rest) (n : Nat) (f : Chan → Chan) (hq : ∀ x, x.retQ = [] → (f x).retQ = [] := by intro x hx; exact hx)
    (hf : (f (d.ch n)).pop = (d.ch n).pop ∧ (f (d.ch n)).usable = (d.ch n).usable := by exact ⟨rfl, rfl⟩) : (d.modCh n f).Rest := by
  refine ⟨h.fence, h.blow, h.slc, h.lnd, h.entry, ?_, ?_, h.recs, { h.tidy with chn := rises_tput _ _ _ _ h.tidy.chn }⟩
  · rcases h.chn with hb | hb
    · exact .inl hb
    · refine .inr ?_
      have := all_tmod ({} : Chan) (fun l => l.retQ.isEmpty) f rfl (fun x hx => by simpa using hq x (by simpa using hx)) d.chn n
        (by simpa [List.all_eq_true] using hb)
      simpa [List.all_eq_true, Dev.modCh] using this
  · rcases h.ovr with ho | ho
    · exact .inl ho
    · refine .inr ?_
      rw [Dev.nominal_modCh h n f hf]
      exact ho

/-- Two changes of a landing, one after the other. -/
theorem Dev.modLd_modLd {d : Dev} (h : d.Rest) (n : Nat) (f g : Landing → Landing) : (d.modLd n f).modLd n g = d.modLd n fun l => g (f l) := by
  unfold Dev.modLd tmod
  dsimp only
  rw [tget_tput _ _ _ _ _ h.tidy.lnd, if_pos rfl, tput_tput _ _ _ _ _ h.tidy.lnd]

/-- Two changes of a slice, one after the other. -/
theorem Dev.modMs_modMs {d : Dev} (h : d.Rest) (n : Nat) (f g : Slice → Slice) : (d.modMs n f).modMs n g = d.modMs n fun l => g (f l) := by
  unfold Dev.modMs tmod
  dsimp only
  rw [tget_tput _ _ _ _ _ h.tidy.slc, if_pos rfl, tput_tput _ _ _ _ _ h.tidy.slc]

/-- Two changes of a channel, one after the other. -/
theorem Dev.modCh_modCh {d : Dev} (h : d.Rest) (n : Nat) (f g : Chan → Chan) : (d.modCh n f).modCh n g = d.modCh n fun l => g (f l) := by
  unfold Dev.modCh tmod
  dsimp only
  rw [tget_tput _ _ _ _ _ h.tidy.chn, if_pos rfl, tput_tput _ _ _ _ _ h.tidy.chn]

/-- Two changes of a path, one after the other. -/
theorem Dev.modPath_modPath {d : Dev} (h : d.Rest) (n : Nat) (f g : CPath → CPath) : (d.modPath n f).modPath n g = d.modPath n fun l => g (f l) := by
  unfold Dev.modPath tmod
  dsimp only
  rw [tget_tput _ _ _ _ _ h.tidy.paths, if_pos rfl, tput_tput _ _ _ _ _ h.tidy.paths]

end Sys2Proof.Machine
end

