-- ==== Sys2Proof/Laws/Frame.lean ====
section
/-! SUPPORT. What the operations that nearly every command uses do to a device at rest: counters, checks, responses, events. -/
namespace Sys2Proof.Machine
set_option Elab.async false

theorem State.to_dev (s : State) (d : Dev) : (s.to d).dev = d := rfl

/-- Counting leaves a device at rest. -/
theorem Dev.Rest.bump {d : Dev} (h : d.Rest) (code inst n : Nat) (ld cls : Option Nat) : (d.bump code inst n ld cls).Rest := by
  unfold Dev.bump
  dsimp only
  split <;> exact h.same

theorem Dev.Rest.txq {d : Dev} (h : d.Rest) (n : Nat) : (d.ld n).pool.txq = [] := by
  rcases tget_mem ({} : Landing) d.lnd n with h' | ⟨y, hy, h'⟩
  · unfold Dev.ld
    rw [h']
  · unfold Dev.ld
    rw [h']
    exact h.lnd y hy

theorem Dev.Rest.slice {d : Dev} (h : d.Rest) (n : Nat) : (d.ms n).waitq = [] ∧ (d.ms n).filt.colls = [] ∧ (d.ms n).filt.credReq = [] := by
  rcases tget_mem ({} : Slice) d.slc n with h' | ⟨y, hy, h'⟩
  · unfold Dev.ms
    rw [h']
    exact ⟨rfl, rfl, rfl⟩
  · unfold Dev.ms
    rw [h']
    exact h.slc y hy

/-- Two changes of a landing that agree on what it holds are the same change. -/
theorem Dev.modLd_congr (d : Dev) (n : Nat) (f g : Landing → Landing) (h : f (d.ld n) = g (d.ld n)) : d.modLd n f = d.modLd n g := by
  unfold Dev.modLd tmod
  rw [show f (tget {} d.lnd n) = g (tget {} d.lnd n) from h]

theorem Dev.modMs_congr (d : Dev) (n : Nat) (f g : Slice → Slice) (h : f (d.ms n) = g (d.ms n)) : d.modMs n f = d.modMs n g := by
  unfold Dev.modMs tmod
  rw [show f (tget {} d.slc n) = g (tget {} d.slc n) from h]

theorem Dev.modCh_congr (d : Dev) (n : Nat) (f g : Chan → Chan) (h : f (d.ch n) = g (d.ch n)) : d.modCh n f = d.modCh n g := by
  unfold Dev.modCh tmod
  rw [show f (tget {} d.chn n) = g (tget {} d.chn n) from h]

/-- With no injection waiting a check comes out as the silicon has it. -/
theorem Dev.check_noInj {d : Dev} (h : d.noInj = true) (srcs : List Nat) (c : Chk) : d.check srcs c = (c, false, d) := by
  unfold Dev.check
  have : (srcs.find? fun s => decide (0 < (tget {} d.lko.src s).inj)) = none := by
    rw [List.find?_eq_none]
    intro x _
    rcases tget_mem ({} : Src) d.lko.src x with h' | ⟨y, hy, h'⟩
    · rw [h']
      simp
    · rw [h']
      have := (List.all_eq_true.1 h) y hy
      simpa using this
  rw [this]

theorem Dev.noInj_of_lko {d e : Dev} (h : d.noInj = true) (hl : e.lko = d.lko) : e.noInj = true := by
  unfold Dev.noInj
  rw [hl]
  exact h

/-- A response to a host that can be answered at once leaves as a flit. -/
theorem Dev.respond_hears {d : Dev} {n : Nat} (hr : d.Rest) (h : d.hears n = true) (r : Rsp) : d.respond n r = d.modLd n fun l => l.sent r := by
  simp only [Dev.hears, Bool.and_eq_true, decide_eq_true_eq] at h
  obtain ⟨⟨h1, h2⟩, h3⟩ := h
  have hq := hr.txq n
  unfold Dev.respond
  rw [h1]
  apply Dev.modLd_congr
  simp [hq, Landing.pump, h1, h2, h3, Landing.sent, Landing.sendFlit, Pool.giveHost]

theorem Landing.sent_txq (l : Landing) (r : Rsp) : (l.sent r).pool.txq = l.pool.txq := rfl

theorem Dev.Rest.sent {d : Dev} (h : d.Rest) (n : Nat) (r : Rsp) : (d.modLd n fun l => l.sent r).Rest := h.modLd n _

/-- An interrupt of a landing leaves its transmit queue alone. -/
theorem Landing.msi_txq (l : Landing) (v : Nat) : (l.msi v).pool.txq = l.pool.txq := by
  unfold Landing.msi
  split <;> rfl

theorem Dev.Rest.evHost {d : Dev} (h : d.Rest) (n : Nat) (k : EvKind) (args : List Nat) (sev : Nat) : (d.evHost n k args sev).Rest := by
  unfold Dev.evHost
  dsimp only
  have : ({ d with logs := tmod {} d.logs n fun l => l.add { kind := k, args, sev, time := d.time } } : Dev).Rest := h.same
  split
  · exact this.modLd n _ fun l hl => by rw [Landing.msi_txq]; exact hl
  · exact this

theorem Dev.Rest.evPool {d : Dev} (h : d.Rest) (k : EvKind) (args : List Nat) (sev : Nat) : (d.evPool k args sev).Rest := h.same

theorem Dev.Rest.answerPath {d : Dev} (h : d.Rest) (pn : Nat) (a : Ans) : (d.answerPath pn a).Rest := by
  unfold Dev.answerPath
  dsimp only
  have := h.modPath pn fun x => { x with ans := a }
  split
  · split
    · exact this.modLd _ _ fun l hl => by rw [Landing.msi_txq]; exact hl
    · exact this
  · exact this

/-- Where no C800h waits, an event that would abort a power entry changes nothing. -/
theorem Dev.Rest.abortLaidUp {d : Dev} (h : d.Rest) (code inst reason : Nat) : d.abortLaidUp code inst reason = d := by
  unfold Dev.abortLaidUp
  rw [h.entry]

theorem Dev.Rest.memHook {d : Dev} (h : d.Rest) (ld : Nat) : d.memHook ld = d := h.abortLaidUp _ _ _

theorem Dev.Rest.flitHook {d : Dev} (h : d.Rest) (ld : Nat) (f : Flit) : d.flitHook ld f = d := by
  unfold Dev.flitHook
  rw [h.memHook]
  simp

end Sys2Proof.Machine
end

