-- ==== Sys2Proof/Laws/Mail.lean ====
section
/-! SUPPORT. What a mailbox command does on a path the device takes commands from: the checks pass in their order, the effect happens, the path is answered. -/
namespace Sys2Proof.Machine
set_option Elab.async false

/-- A private write over I3C to a device at rest that is not Moored changes nothing of its own. -/
theorem Dev.onPath_takes {d : Dev} (h : d.Rest) {pn : Nat} (ht : d.takes pn = true) (f : Dev → Dev) : d.onPath pn f = f d := by
  unfold Dev.onPath
  by_cases hp : pn = 32
  · simp only [Dev.takes, Bool.and_eq_true, Bool.or_eq_true, decide_eq_true_eq] at ht
    obtain ⟨⟨⟨h1, _⟩, _⟩, h4⟩ := ht
    have hm : d.pwr.st ≠ .moored := h4.resolve_left (fun k => k hp)
    have hph : d.boot.phase ≠ .laidUp := by
      subst hp
      intro e
      simp [Dev.pathLive, pathLd, e] at h1
    rw [if_neg (by simpa using hp), if_neg hph]
    congr 1
    unfold Dev.i3cMatch
    split
    · unfold Dev.wakeUp
      split
      · rfl
      · exact h.abortLaidUp 8 0 0
    · rfl
  · simp [hp]

/-- A mailbox command on a path that is taken runs as one on the device. -/
theorem onMail_to {p : CmdPath} {s : State} {f : Dev → Nat → Dev} {d : Dev} (h : s.dev.Rest) (ht : s.dev.takes (pathNo p) = true)
    (hf : f s.dev (pathNo p) = d) (hd : d.Rest) : onMail p s f = .next (s.to d) := by
  unfold onMail
  exact onDev_to (by rw [Dev.onPath_takes h ht, hf]) hd

/-- The same, with the internal work that follows left standing. -/
theorem onMail_settle {p : CmdPath} {s : State} {f : Dev → Nat → Dev} {d : Dev} (h : s.dev.Rest) (ht : s.dev.takes (pathNo p) = true)
    (hf : f s.dev (pathNo p) = d) (hb : (settle s.dev d).blow = 0#2048) : onMail p s f = .next (s.to (settle s.dev d)) := by
  unfold onMail
  exact onDev_settle (by rw [Dev.onPath_takes h ht, hf]) hb

/-- The checks of R358 pass on a path that is taken, for a role that may issue the command, with the right length and fields, the device Active where needed. -/
theorem Dev.gate_takes {d : Dev} (h : d.Rest) {pn : Nat} (ht : d.takes pn = true) (c : CSpec) (n : Nat) (fields : Role → Option Ans)
    (hp : c.permits (d.role pn) pn = true) (hl : ∀ l, c.len = some l → n = l) (hf : fields (d.role pn) = none) (ha : c.active = true → d.works = true) :
    d.gate pn c n fields = .inr (d.role pn) := by
  simp only [Dev.takes, Bool.and_eq_true, Bool.not_eq_true'] at ht
  obtain ⟨⟨⟨h1, h2⟩, h3⟩, _⟩ := ht
  unfold Dev.gate
  rw [h.entry]
  have h3' : ¬ (33 ≤ pn ∧ pn ≤ 48 ∧ bits (d.p 0x1E1) (pn - 33) 1 = 0) := by
    intro ⟨a, b, c⟩
    simp [a, b, c] at h3
  have hact : (c.active && (!d.active || d.mg.warm.isSome)) = false := by
    cases hc : c.active with
    | false => rfl
    | true =>
      have := ha hc
      simp only [Dev.works, Bool.and_eq_true, Option.isNone_iff_eq_none] at this
      simp [this.1, this.2]
  simp only [h1, h2, h3', hp, hf, hact, Bool.not_true, Bool.false_or, Bool.false_eq_true, if_false]
  cases hc : c.len with
  | none => rfl
  | some l => simp [hl l hc]

/-- A command whose checks pass is its effect, answered. -/
theorem Dev.command_takes {d : Dev} (h : d.Rest) {pn : Nat} (ht : d.takes pn = true) (c : CSpec) (n : Nat) (fields : Role → Option Ans) (act : Role → Ans × Dev)
    (hp : c.permits (d.role pn) pn = true) (hl : ∀ l, c.len = some l → n = l) (hf : fields (d.role pn) = none) (ha : c.active = true → d.works = true) :
    d.command pn c n fields act = (act (d.role pn)).2.close pn c (act (d.role pn)).1 := by
  unfold Dev.command
  rw [d.gate_takes h ht c n fields hp hl hf ha]

/-- An answer without a detail record is given as it is. -/
theorem CSpec.trim_plain (c : CSpec) (a : Ans) (h : a.dcode = 0) : c.trim a = a := by
  unfold CSpec.trim
  simp [h]

/-- A command without a side effect only answers. -/
theorem Dev.close_read (d : Dev) (pn : Nat) (c : CSpec) (a : Ans) (he : c.effect = false) (h : a.dcode = 0) : d.close pn c a = d.answerPath pn a := by
  unfold Dev.close
  simp [he, c.trim_plain a h]

/-- A command carried out with a side effect is counted and answered. -/
theorem Dev.close_effect (d : Dev) (pn : Nat) (c : CSpec) (a : Ans) (he : c.effect = true) (hd : a.rc.did = true) (h : a.dcode = 0) :
    d.close pn c a = d.acted.answerPath pn a := by
  unfold Dev.close
  simp [he, hd, c.trim_plain a h, Dev.acted]

theorem Dev.Rest.acted {d : Dev} (h : d.Rest) : d.acted.Rest := h.same

/-- A standard command that reads. -/
theorem Dev.std_read {d : Dev} (h : d.Rest) {pn : Nat} (ht : d.takes pn = true) (op : Nat) (fields : Role → Option Ans) (act : Role → Ans × Dev)
    (hp : (stdSpec op false false).permits (d.role pn) pn = true) (hl : (stdSpec op false false).len = none) (hf : fields (d.role pn) = none)
    (hd : (act (d.role pn)).1.dcode = 0) :
    d.std1 pn op false false fields act = (act (d.role pn)).2.answerPath pn (act (d.role pn)).1 := by
  unfold Dev.std1
  rw [d.command_takes h ht _ _ _ _ hp (fun l k => by rw [hl] at k; cases k) hf (fun k => by cases k), Dev.close_read _ _ _ _ rfl hd]

/-- A standard command that sets something. -/
theorem Dev.std_effect {d : Dev} (h : d.Rest) {pn : Nat} (ht : d.takes pn = true) (op : Nat) (a : Bool) (fields : Role → Option Ans) (act : Role → Ans × Dev)
    (hp : (stdSpec op a true).permits (d.role pn) pn = true) (hl : (stdSpec op a true).len = none) (hf : fields (d.role pn) = none) (ha : a = true → d.works = true)
    (hr : (act (d.role pn)).1.rc.did = true) (hd : (act (d.role pn)).1.dcode = 0) :
    d.std1 pn op a true fields act = (act (d.role pn)).2.acted.answerPath pn (act (d.role pn)).1 := by
  unfold Dev.std1
  rw [d.command_takes h ht _ _ _ _ hp (fun l k => by rw [hl] at k; cases k) hf ha, Dev.close_effect _ _ _ _ rfl hr hd]

end Sys2Proof.Machine
end

