-- ==== Sys2Proof/Laws/Memory.lean ====
section
/-! SUPPORT. Laws of the byte memory: every write keeps the canonical form, a byte read after a write, and that a channel write goes through one write. -/
namespace Sys2Proof.Machine
set_option Elab.async false

theorem wfFrom_mono {lo lo' : Nat} (h : lo' ≤ lo) (m : List Host.Cell) (hw : Memory.wfFrom lo m = true) : Memory.wfFrom lo' m = true := by
  cases m with
  | nil => rfl
  | cons x t =>
    obtain ⟨k, v⟩ := x
    simp [Memory.wfFrom] at hw ⊢
    exact ⟨⟨by omega, hw.1.2⟩, hw.2⟩

theorem wfFrom_append (l r : List Host.Cell) {lo mid : Nat} (hl : Memory.wfFrom lo l = true) (hk : ∀ x ∈ l, x.1 < mid) (hm : lo ≤ mid)
    (hr : Memory.wfFrom mid r = true) : Memory.wfFrom lo (l ++ r) = true := by
  induction l generalizing lo with
  | nil => exact wfFrom_mono hm r hr
  | cons x t ih =>
    obtain ⟨k, v⟩ := x
    simp [Memory.wfFrom] at hl ⊢
    have hkm := hk (k, v) (by simp)
    exact ⟨hl.1, ih hl.2 (fun y hy => hk y (List.mem_cons_of_mem _ hy)) (by simpa using hkm)⟩

theorem memBelow_wf (a : Nat) (m : List Host.Cell) {lo : Nat} (h : Memory.wfFrom lo m = true) :
    Memory.wfFrom lo (memBelow a m) = true ∧ ∀ x ∈ memBelow a m, x.1 < a := by
  induction m generalizing lo with
  | nil => simp [memBelow, Memory.wfFrom]
  | cons x t ih =>
    obtain ⟨k, v⟩ := x
    simp [Memory.wfFrom] at h
    by_cases hk : k < a
    · obtain ⟨h1, h2⟩ := ih h.2
      simp only [memBelow, if_pos hk]
      constructor
      · simp [Memory.wfFrom, h.1, h1]
      · intro y hy
        rcases List.mem_cons.1 hy with rfl | hy
        · exact hk
        · exact h2 y hy
    · simp [memBelow, hk, Memory.wfFrom]

theorem memFrom_wf (b : Nat) (m : List Host.Cell) {lo : Nat} (h : Memory.wfFrom lo m = true) : Memory.wfFrom b (memFrom b m) = true := by
  induction m generalizing lo with
  | nil => rfl
  | cons x t ih =>
    obtain ⟨k, v⟩ := x
    simp [Memory.wfFrom] at h
    by_cases hk : k < b
    · simp only [memFrom, if_pos hk]
      exact ih h.2
    · simp only [memFrom, if_neg hk]
      simp [Memory.wfFrom, h.1.2, h.2]
      omega

theorem memCells_wf (bs : List Byte) (a : Nat) : Memory.wfFrom a (memCells a bs) = true ∧ ∀ x ∈ memCells a bs, x.1 < a + bs.length := by
  induction bs generalizing a with
  | nil => simp [memCells, Memory.wfFrom]
  | cons b bs ih =>
    obtain ⟨h1, h2⟩ := ih (a + 1)
    by_cases hb : b = unwritten
    · simp only [memCells, if_pos hb]
      exact ⟨wfFrom_mono (by omega) _ h1, fun x hx => by have := h2 x hx; simp; omega⟩
    · simp only [memCells, if_neg hb]
      refine ⟨by simp [Memory.wfFrom, hb, h1], fun x hx => ?_⟩
      rcases List.mem_cons.1 hx with rfl | hx
      · simp
      · have := h2 x hx
        simp
        omega

/-- Storing bytes keeps the canonical form. -/
theorem memPut_wf (m : List Host.Cell) (a : Nat) (bs : List Byte) (h : Memory.wf m = true) : Memory.wf (memPut m a bs) = true := by
  obtain ⟨h1, h2⟩ := memBelow_wf a m h
  obtain ⟨h3, h4⟩ := memCells_wf bs a
  have h5 := memFrom_wf (a + bs.length) m h
  unfold Memory.wf memPut
  rw [List.append_assoc]
  exact wfFrom_append _ _ h1 h2 (Nat.zero_le _) (wfFrom_append _ _ h3 h4 (by omega) h5)

theorem memGet_below (m : List Host.Cell) {lo x : Nat} (h : Memory.wfFrom lo m = true) (hx : x < lo) : memGet m x = unwritten := by
  cases m with
  | nil => rfl
  | cons y t =>
    obtain ⟨k, v⟩ := y
    simp [Memory.wfFrom] at h
    have h1 : k ≠ x := by omega
    have h2 : x < k := by omega
    simp [memGet, h1, h2]

theorem memGet_append_left (l r : List Host.Cell) {lo mid x : Nat} (hl : Memory.wfFrom lo l = true) (hr : Memory.wfFrom mid r = true) (hx : x < mid) :
    memGet (l ++ r) x = memGet l x := by
  induction l generalizing lo with
  | nil => exact memGet_below r hr hx
  | cons y t ih =>
    obtain ⟨k, v⟩ := y
    simp [Memory.wfFrom] at hl
    simp [memGet, ih hl.2]

theorem memGet_append_right (l r : List Host.Cell) {mid x : Nat} (hk : ∀ y ∈ l, y.1 < mid) (hx : mid ≤ x) : memGet (l ++ r) x = memGet r x := by
  induction l with
  | nil => rfl
  | cons y t ih =>
    obtain ⟨k, v⟩ := y
    have h1 := hk (k, v) (by simp)
    simp at h1
    have h2 : k ≠ x := by omega
    have h3 : ¬ x < k := by omega
    simp [memGet, h2, h3, ih fun y hy => hk y (List.mem_cons_of_mem _ hy)]

theorem memGet_memBelow (m : List Host.Cell) {lo a x : Nat} (h : Memory.wfFrom lo m = true) (hx : x < a) : memGet (memBelow a m) x = memGet m x := by
  induction m generalizing lo with
  | nil => rfl
  | cons y t ih =>
    obtain ⟨k, v⟩ := y
    simp [Memory.wfFrom] at h
    by_cases hk : k < a
    · simp [memBelow, hk, memGet, ih h.2]
    · have h1 : k ≠ x := by omega
      have h2 : x < k := by omega
      simp [memBelow, hk, memGet, h1, h2]

theorem memGet_memFrom (m : List Host.Cell) {b x : Nat} (hx : b ≤ x) : memGet (memFrom b m) x = memGet m x := by
  induction m with
  | nil => rfl
  | cons y t ih =>
    obtain ⟨k, v⟩ := y
    by_cases hk : k < b
    · have h1 : k ≠ x := by omega
      have h2 : ¬ x < k := by omega
      simp [memFrom, hk, memGet, h1, h2, ih]
    · simp [memFrom, hk]

theorem memGet_memCells (bs : List Byte) (a x : Nat) (h1 : a ≤ x) (h2 : x < a + bs.length) : memGet (memCells a bs) x = bs.getD (x - a) unwritten := by
  induction bs generalizing a with
  | nil => simp at h2; omega
  | cons b bs ih =>
    by_cases hx : x = a
    · subst hx
      by_cases hb : b = unwritten
      · simp only [memCells, if_pos hb]
        rw [memGet_below _ (memCells_wf bs (x + 1)).1 (by omega)]
        simp [hb]
      · simp [memCells, hb, memGet]
    · have h3 : a + 1 ≤ x := by omega
      have h4 : x < a + 1 + bs.length := by simp at h2; omega
      have h5 : x - a = x - (a + 1) + 1 := by omega
      have h6 : ¬ x < a := by omega
      by_cases hb : b = unwritten
      · simp only [memCells, if_pos hb]
        rw [ih (a + 1) h3 h4, h5]
        simp
      · simp only [memCells, if_neg hb, memGet, if_neg (Ne.symm hx), if_neg h6]
        rw [ih (a + 1) h3 h4, h5]
        simp

/-- A byte read after a write: one of the bytes written, or what it was. -/
theorem memGet_memPut (m : List Host.Cell) (a : Nat) (bs : List Byte) (x : Nat) (h : Memory.wf m = true) :
    memGet (memPut m a bs) x = if a ≤ x ∧ x < a + bs.length then bs.getD (x - a) unwritten else memGet m x := by
  obtain ⟨h1, h2⟩ := memBelow_wf a m h
  obtain ⟨h3, h4⟩ := memCells_wf bs a
  have h5 := memFrom_wf (a + bs.length) m h
  have h6 := wfFrom_append _ _ h3 h4 (by omega) h5
  unfold memPut
  rw [List.append_assoc]
  by_cases c1 : x < a
  · rw [memGet_append_left _ _ h1 h6 c1, memGet_memBelow m h c1]
    rw [if_neg (by omega)]
  · rw [memGet_append_right _ _ h2 (by omega)]
    by_cases c2 : x < a + bs.length
    · rw [memGet_append_left _ _ h3 h5 c2, memGet_memCells bs a x (by omega) c2, if_pos ⟨by omega, c2⟩]
    · rw [memGet_append_right _ _ h4 (by omega), memGet_memFrom m (by omega), if_neg (by omega)]

/-- Dropping cells keeps the canonical form. -/
theorem wfFrom_filter (p : Host.Cell → Bool) (m : List Host.Cell) {lo : Nat} (h : Memory.wfFrom lo m = true) : Memory.wfFrom lo (m.filter p) = true := by
  induction m generalizing lo with
  | nil => rfl
  | cons x t ih =>
    obtain ⟨k, v⟩ := x
    simp [Memory.wfFrom] at h
    by_cases hp : p (k, v) = true
    · simp [List.filter, hp, Memory.wfFrom, h.1, ih h.2]
    · simp only [List.filter, Bool.not_eq_true] at hp ⊢
      rw [hp]
      exact wfFrom_mono (by omega) _ (ih h.2)

@[simp] theorem Dev.activateRow_mem (d : Dev) (c : Nat) (r : RowAddr) (cls : Option Nat) : (d.activateRow c r cls).mem = d.mem := by
  simp [Dev.activateRow]

theorem foldl_mem {β : Type} (f : Dev → β → Dev) (hf : ∀ d b, (f d b).mem = d.mem) (l : List β) (d : Dev) : (l.foldl f d).mem = d.mem := by
  induction l generalizing d with
  | nil => rfl
  | cons b l ih => rw [List.foldl_cons, ih, hf]

@[simp] theorem Dev.payOwed_mem (d : Dev) (c : Nat) : (d.payOwed c).mem = d.mem := by
  unfold Dev.payOwed
  rw [foldl_mem _ (fun d b => by simp)]
  simp

@[simp] theorem Dev.openAt_mem (d : Dev) (c off : Nat) (cls : Option Nat) : (d.openAt c off cls).mem = d.mem := by
  unfold Dev.openAt
  dsimp only
  split <;> split <;> simp

/-- A channel read changes no byte, and returns the bytes that stand there. -/
theorem Dev.rd_mem (d : Dev) (c off n : Nat) (cls : Option Nat) : (d.rd c off n cls).2.mem = d.mem ∧ (d.rd c off n cls).1 = memRead d.mem (chBase c + off) n := by
  simp [Dev.rd]

/-- A channel write is one write of the byte memory. -/
theorem Dev.wr_mem (d : Dev) (c off : Nat) (bs : List Byte) (cls : Option Nat) : (d.wr c off bs cls).mem = memPut d.mem (chBase c + off) bs := by
  simp [Dev.wr]

/-- A channel write keeps the canonical form. -/
theorem Dev.wr_wf (d : Dev) (c off : Nat) (bs : List Byte) (cls : Option Nat) (h : Memory.wf d.mem = true) : Memory.wf (d.wr c off bs cls).mem = true := by
  rw [Dev.wr_mem]
  exact memPut_wf _ _ _ h

/-- Sanitize keeps the canonical form of what is left. -/
theorem Dev.zeroPools_wf (d : Dev) (h : Memory.wf d.mem = true) : Memory.wf d.zeroPools.mem = true := wfFrom_filter _ _ h

theorem State.reset_memWf : State.reset.dev.memWf = true := rfl

end Sys2Proof.Machine
end

