-- ==== Sys2Proof/Laws/Report.lean ====
section
/-! SUPPORT. What a report to the Lookout leaves alone: everything but its own store, the event logs, interrupts and the viral signals; a device at rest with the Ferryman unavailable stays at rest under a report that orders no fence. -/
namespace Sys2Proof.Machine
set_option Elab.async false

/-- Two devices with the same contents in every unit, table, register and unit of time but the Lookout, logs and the landings' interrupt and viral bits. -/
structure SameCore (d e : Dev) : Prop where
  mem : e.mem = d.mem
  slc : e.slc = d.slc
  chn : e.chn = d.chn
  pm : e.pm = d.pm
  ext : e.ext = d.ext
  brg : e.brg = d.brg
  prm : e.prm = d.prm
  ctx : e.ctx = d.ctx
  plt : e.plt = d.plt
  paths : e.mg.paths = d.mg.paths
  entry : e.mg.entry = d.mg.entry
  blow : e.blow = d.blow
  fmn : e.fmnBusy = d.fmnBusy
  act : e.active = d.active
  nom : e.nominal = d.nominal
  used : e.usedBlocks = d.usedBlocks
  time : e.time = d.time
  link : ∀ m, (e.ld m).link = (d.ld m).link
  pool : ∀ m, (e.ld m).pool = (d.ld m).pool
  acc : ∀ m, (e.ld m).acc = (d.ld m).acc
  coh : ∀ m, (e.ld m).coh = (d.ld m).coh
  ide : ∀ m, (e.ld m).ideMem = (d.ld m).ideMem

theorem SameCore.refl (d : Dev) : SameCore d d :=
  ⟨rfl, rfl, rfl, rfl, rfl, rfl, rfl, rfl, rfl, rfl, rfl, rfl, rfl, rfl, rfl, rfl, rfl, fun _ => rfl, fun _ => rfl, fun _ => rfl, fun _ => rfl, fun _ => rfl⟩

theorem SameCore.trans {a b c : Dev} (h : SameCore a b) (k : SameCore b c) : SameCore a c :=
  ⟨k.mem.trans h.mem, k.slc.trans h.slc, k.chn.trans h.chn, k.pm.trans h.pm, k.ext.trans h.ext, k.brg.trans h.brg, k.prm.trans h.prm, k.ctx.trans h.ctx,
    k.plt.trans h.plt, k.paths.trans h.paths, k.entry.trans h.entry, k.blow.trans h.blow, k.fmn.trans h.fmn, k.act.trans h.act, k.nom.trans h.nom,
    k.used.trans h.used, k.time.trans h.time, fun m => (k.link m).trans (h.link m), fun m => (k.pool m).trans (h.pool m), fun m => (k.acc m).trans (h.acc m),
    fun m => (k.coh m).trans (h.coh m), fun m => (k.ide m).trans (h.ide m)⟩

/-- A change of landings that keeps their links, pools, access registers, coherence and encryption. -/
theorem SameCore.modLd {d : Dev} (h : d.Rest) (n : Nat) (f : Landing → Landing)
    (hf : ∀ l, (f l).link = l.link ∧ (f l).pool = l.pool ∧ (f l).acc = l.acc ∧ (f l).coh = l.coh ∧ (f l).ideMem = l.ideMem) : SameCore d (d.modLd n f) := by
  have key : ∀ m, (d.modLd n f).ld m = f (d.ld m) ∨ (d.modLd n f).ld m = d.ld m := by
    intro m
    rw [Dev.ld_modLd h]
    split
    · subst_vars
      exact .inl rfl
    · exact .inr rfl
  refine ⟨rfl, rfl, rfl, rfl, rfl, rfl, rfl, rfl, rfl, rfl, rfl, rfl, rfl, rfl, rfl, rfl, rfl, ?_, ?_, ?_, ?_, ?_⟩ <;> intro m <;>
    rcases key m with e | e <;> rw [e]
  · exact (hf _).1
  · exact (hf _).2.1
  · exact (hf _).2.2.1
  · exact (hf _).2.2.2.1
  · exact (hf _).2.2.2.2

theorem Landing.msi_same (l : Landing) (v : Nat) :
    (l.msi v).link = l.link ∧ (l.msi v).pool = l.pool ∧ (l.msi v).acc = l.acc ∧ (l.msi v).coh = l.coh ∧ (l.msi v).ideMem = l.ideMem := by
  unfold Landing.msi
  split <;> exact ⟨rfl, rfl, rfl, rfl, rfl⟩

theorem SameCore.evHost {d : Dev} (h : d.Rest) (n : Nat) (k : EvKind) (args : List Nat) (sev : Nat) :
    SameCore d (d.evHost n k args sev) ∧ (d.evHost n k args sev).lko = d.lko ∧ (d.evHost n k args sev).fenceQ = d.fenceQ ∧ (d.evHost n k args sev).pool = d.pool
      ∧ (d.evHost n k args sev).mg = d.mg := by
  unfold Dev.evHost
  dsimp only
  have hr : ({ d with logs := tmod {} d.logs n fun l => l.add { kind := k, args, sev, time := d.time } } : Dev).Rest := h.same
  have h1 : SameCore d ({ d with logs := tmod {} d.logs n fun l => l.add { kind := k, args, sev, time := d.time } } : Dev) :=
    ⟨rfl, rfl, rfl, rfl, rfl, rfl, rfl, rfl, rfl, rfl, rfl, rfl, rfl, rfl, rfl, rfl, rfl, fun _ => rfl, fun _ => rfl, fun _ => rfl, fun _ => rfl, fun _ => rfl⟩
  split
  · exact ⟨h1.trans (SameCore.modLd hr _ _ fun l => l.msi_same _), rfl, rfl, rfl, rfl⟩
  · exact ⟨h1, rfl, rfl, rfl, rfl⟩

theorem evHosts_rest (l : List Nat) (k : EvKind) (args : List Nat) (sev : Nat) : ∀ {d : Dev}, d.Rest →
    (l.foldl (fun d n => d.evHost n k args sev) d).Rest ∧ SameCore d (l.foldl (fun d n => d.evHost n k args sev) d) ∧
      (l.foldl (fun d n => d.evHost n k args sev) d).lko = d.lko ∧ (l.foldl (fun d n => d.evHost n k args sev) d).pool = d.pool := by
  induction l with
  | nil => exact fun h => ⟨h, SameCore.refl _, rfl, rfl⟩
  | cons x l ih =>
    intro d h
    obtain ⟨a, b, c, e⟩ := ih (h.evHost x k args sev)
    obtain ⟨p, q, _, r, _⟩ := SameCore.evHost h x k args sev
    exact ⟨a, p.trans b, c.trans q, e.trans r⟩

theorem viral_rest (l : List Nat) : ∀ {d : Dev}, d.Rest →
    let e := l.foldl (fun d n => if (d.ld n).link.st = .up then d.modLd n fun l => { l with viral := true } else d) d
    e.Rest ∧ SameCore d e ∧ e.lko = d.lko ∧ e.pool = d.pool := by
  induction l with
  | nil => exact fun h => ⟨h, SameCore.refl _, rfl, rfl⟩
  | cons x l ih =>
    intro d h
    dsimp only [List.foldl_cons]
    split
    · obtain ⟨a, b, c, e⟩ := ih (h.modLd x fun l => { l with viral := true })
      exact ⟨a, (SameCore.modLd h x (fun l => { l with viral := true }) fun l => ⟨rfl, rfl, rfl, rfl, rfl⟩).trans b, c, e⟩
    · exact ih h

/-- Entering the Fatal state leaves a device at rest. -/
theorem enterFatal_rest {d : Dev} (h : d.Rest) :
    d.enterFatal.Rest ∧ SameCore d d.enterFatal ∧ d.enterFatal.lko.recs = d.lko.recs ∧ d.enterFatal.pool = d.pool := by
  have key : ∀ e : Dev, (e.Rest ∧ SameCore d e ∧ e.lko = d.lko ∧ e.pool = d.pool) →
      let f := ({ e with lko := { e.lko with fatal := true }, fatalN := true } : Dev)
      f.Rest ∧ SameCore d f ∧ f.lko.recs = d.lko.recs ∧ f.pool = d.pool := by
    intro e ⟨a, b, c, k⟩ f
    refine ⟨a.same, ?_, by simp [f, c], k⟩
    exact ⟨b.mem, b.slc, b.chn, b.pm, b.ext, b.brg, b.prm, b.ctx, b.plt, b.paths, b.entry, b.blow, b.fmn, b.act, b.nom, b.used, b.time, b.link, b.pool,
      b.acc, b.coh, b.ide⟩
  exact key _ (viral_rest (List.range 16) h)

/-- A device at rest under the same device with another Lookout, with the Ferryman unavailable. -/
theorem Dev.Rest.lko {d : Dev} (h : d.Rest) (hf : d.fmnBusy = true) (k : Lko) : ({ d with lko := k } : Dev).Rest :=
  ⟨h.fence, h.blow, h.slc, h.lnd, h.entry, h.chn, h.ovr, .inl hf,
    ⟨h.tidy.lnd, h.tidy.slc, h.tidy.chn, h.tidy.brg, h.tidy.prm, h.tidy.paths, h.tidy.ctx, h.tidy.plt⟩⟩

theorem SameCore.lko (d : Dev) (k : Lko) : SameCore d { d with lko := k } :=
  ⟨rfl, rfl, rfl, rfl, rfl, rfl, rfl, rfl, rfl, rfl, rfl, rfl, rfl, rfl, rfl, rfl, rfl, fun _ => rfl, fun _ => rfl, fun _ => rfl, fun _ => rfl, fun _ => rfl⟩

theorem Dev.Rest.lkoLog {d : Dev} (h : d.Rest) (hf : d.fmnBusy = true) (g : PLogs) (k : Lko) : ({ d with plog := g, lko := k } : Dev).Rest :=
  (h.lko hf k).same

theorem SameCore.lkoLog (d : Dev) (g : PLogs) (k : Lko) : SameCore d { d with plog := g, lko := k } :=
  ⟨rfl, rfl, rfl, rfl, rfl, rfl, rfl, rfl, rfl, rfl, rfl, rfl, rfl, rfl, rfl, rfl, rfl, fun _ => rfl, fun _ => rfl, fun _ => rfl, fun _ => rfl, fun _ => rfl⟩

theorem keepRecord_rest {d : Dev} (h : d.Rest) (hf : d.fmnBusy = true) (r : FRec) : (d.keepRecord r).Rest ∧ SameCore d (d.keepRecord r) := by
  unfold Dev.keepRecord
  dsimp only
  split
  · exact ⟨h.lko hf _, SameCore.lko _ _⟩
  · split <;> exact ⟨h.lko hf _, SameCore.lko _ _⟩

theorem tellRecord_rest {d : Dev} (h : d.Rest) (r : Rep) (seq : Nat) (fin : FCls) :
    (d.tellRecord r seq fin).Rest ∧ SameCore d (d.tellRecord r seq fin) ∧ (d.tellRecord r seq fin).lko.recs = d.lko.recs := by
  have h1 := h.evPool .fault [seq, r.src, r.det0, r.det1] fin.sev
  have y : SameCore d (d.evPool .fault [seq, r.src, r.det0, r.det1] fin.sev) :=
    ⟨rfl, rfl, rfl, rfl, rfl, rfl, rfl, rfl, rfl, rfl, rfl, rfl, rfl, rfl, rfl, rfl, rfl, fun _ => rfl, fun _ => rfl, fun _ => rfl, fun _ => rfl, fun _ => rfl⟩
  obtain ⟨a, b, c, _⟩ := evHosts_rest ((d.evPool .fault [seq, r.src, r.det0, r.det1] fin.sev).affected r fin) .fault [seq, r.src, r.det0, r.det1] fin.sev h1
  unfold Dev.tellRecord
  dsimp only
  split
  · obtain ⟨p, q, u, _⟩ := enterFatal_rest a
    exact ⟨p, (y.trans b).trans q, u.trans (congrArg Lko.recs c)⟩
  · exact ⟨a, y.trans b, congrArg Lko.recs c⟩

/-- A new record of a source with no fence. -/
theorem newRecord_rest {d : Dev} (h : d.Rest) (hf : d.fmnBusy = true) (r : Rep) (i : SInfo) (path : Path) (arr : FCls) (hi : i.fence = none) :
    (d.newRecord r i path arr).Rest ∧ SameCore d (d.newRecord r i path arr) := by
  unfold Dev.newRecord
  simp only [hi, Option.map_none]
  obtain ⟨a, b⟩ := keepRecord_rest h hf _
  obtain ⟨c, e, _⟩ := tellRecord_rest a r _ _
  exact ⟨c, b.trans e⟩

/-- A report of a source that orders no fence leaves a device at rest, with the Ferryman unavailable, at rest. -/
theorem Dev.Rest.report {d : Dev} (h : d.Rest) (hf : d.fmnBusy = true) (r : Rep) (hn : (sourceInfo r.src).bind (·.fence) = none) :
    (d.report r).Rest ∧ SameCore d (d.report r) := by
  unfold Dev.report
  cases hs : sourceInfo r.src with
  | none => exact ⟨h, SameCore.refl _⟩
  | some i =>
    dsimp only
    rw [hs] at hn
    have hi : i.fence = none := hn
    have h1 := h.lko hf { d.lko with src := tmod {} d.lko.src r.src fun x => { x with count := satAdd (2 ^ 32 - 1) x.count 1 } }
    have f1 : ({ d with lko := { d.lko with src := tmod {} d.lko.src r.src fun x => { x with count := satAdd (2 ^ 32 - 1) x.count 1 } } } : Dev).fmnBusy = true := hf
    have y := SameCore.lko d { d.lko with src := tmod {} d.lko.src r.src fun x => { x with count := satAdd (2 ^ 32 - 1) x.count 1 } }
    have nr : ∀ (p : Path) (a : FCls), _ := fun p a => newRecord_rest h1 f1 r i p a hi
    split
    · split
      · exact ⟨h1.lkoLog f1 _ _, y.trans (SameCore.lkoLog _ _ _)⟩
      · split
        · exact ⟨h1.lko f1 _, y.trans (SameCore.lko _ _)⟩
        · exact ⟨(nr _ _).1, y.trans (nr _ _).2⟩
    · split
      · split
        · exact ⟨h1.lko f1 _, y.trans (SameCore.lko _ _)⟩
        · exact ⟨(nr _ _).1, y.trans (nr _ _).2⟩
      · exact ⟨(nr _ _).1, y.trans (nr _ _).2⟩

/-- Replay and credit sources of a landing order no fence. -/
theorem ldSrc_noFence (n : Fin 16) : (sourceInfo (ldSrc n 0)).bind (·.fence) = none ∧ (sourceInfo (ldSrc n 2)).bind (·.fence) = none := by
  revert n
  decide

end Sys2Proof.Machine
end

