-- ==== Sys2Proof/Laws/Writeback.lean ====
section
/-! SUPPORT. Accesses to a channel leave a device at rest at rest and everything but the channel alone; what the writeback of one whole quad does. -/
namespace Sys2Proof.Machine
set_option Elab.async false

theorem Dev.Rest.activateRow {d : Dev} (h : d.Rest) (c : Nat) (r : RowAddr) (cls : Option Nat) : (d.activateRow c r cls).Rest := by
  unfold Dev.activateRow
  dsimp only
  exact (h.bump _ _ _ _ _).modCh _ _

theorem foldl_rest {β : Type} (f : Dev → β → Dev) (hf : ∀ d b, d.Rest → (f d b).Rest) (l : List β) (d : Dev) (h : d.Rest) : (l.foldl f d).Rest := by
  induction l generalizing d with
  | nil => exact h
  | cons b l ih => exact ih _ (hf _ _ h)

theorem Dev.Rest.openAt {d : Dev} (h : d.Rest) (c off : Nat) (cls : Option Nat) : (d.openAt c off cls).Rest := by
  have h1 : (d.payOwed c).Rest := by
    unfold Dev.payOwed
    dsimp only
    refine foldl_rest _ ?_ _ _ ((h.modCh _ _).bump _ _ _ _ _)
    intro d r hd
    exact (hd.activateRow _ _ _).modCh _ _
  have h2 : ∀ e : Dev, e.Rest → (if tget none (e.ch c).openRow (e.rowOf c off).bank = some (e.rowOf c off).row then e else e.activateRow c (e.rowOf c off) cls).Rest := by
    intro e he
    split
    · exact he
    · exact he.activateRow _ _ _
  unfold Dev.openAt
  dsimp only
  cases (d.ch c).owed.isEmpty
  · exact h2 _ h1
  · exact h2 _ h

theorem Dev.Rest.wr {d : Dev} (h : d.Rest) (c off : Nat) (bs : List Byte) (cls : Option Nat) : (d.wr c off bs cls).Rest := by
  unfold Dev.wr
  dsimp only
  exact Dev.Rest.same (((h.openAt c off cls).bump _ _ _ _ _).bump _ _ _ _ _)

theorem Dev.Rest.rd {d : Dev} (h : d.Rest) (c off n : Nat) (cls : Option Nat) : (d.rd c off n cls).2.Rest := by
  unfold Dev.rd
  dsimp only
  exact ((h.openAt c off cls).bump _ _ _ _ _).bump _ _ _ _ _

theorem Dev.Rest.setEnt {d : Dev} (h : d.Rest) (p : Nat) (e : PEnt) : (d.setEnt p e).Rest := by
  unfold Dev.setEnt
  exact h.same

theorem Dev.Rest.countTally {d : Dev} (h : d.Rest) (sl p : Nat) : (d.countTally sl p).Rest := by
  unfold Dev.countTally
  split
  · exact h
  · exact h.modMs _ _

theorem Dev.Rest.tallyQuads {d : Dev} (h : d.Rest) (sl p n : Nat) : (d.tallyQuads sl p n).Rest :=
  foldl_rest _ (fun _ _ h => h.countTally _ _) _ _ h

theorem Dev.Rest.modW {d : Dev} (h : d.Rest) (sl : Nat) (f : Wharf → Wharf) : (d.modW sl f).Rest := h.modMs _ _

theorem Dev.Rest.invalidate {d : Dev} (h : d.Rest) (sl k : Nat) (b : Bool) : (d.invalidate sl k b).Rest := by
  unfold Dev.invalidate
  dsimp only
  split
  · exact Dev.Rest.same (d := d.modW sl fun w => w.put k {}) (h.modW _ _)
  · exact h.modW _ _

theorem Dev.Rest.finishQuad {d : Dev} (h : d.Rest) (sl q : Nat) (st : WSt) (ev : Bool) : (d.finishQuad sl q st ev).Rest := by
  refine foldl_rest _ ?_ _ _ h
  intro d k hd
  dsimp only
  split
  · exact hd.modW _ _
  · split
    · exact (hd.modW _ _).invalidate _ _ _
    · exact hd.modW _ _

theorem Dev.Rest.placeQpois {d : Dev} (h : d.Rest) (p : Nat) (ps : List PQuad) : (d.placeQpois p ps).Rest := by
  unfold Dev.placeQpois
  dsimp only
  split
  · exact h
  · exact h.setEnt _ _

theorem memPut_nil (m : List Host.Cell) (a : Nat) : memPut m a [] = m := by
  unfold memPut memCells
  simp only [List.append_nil, List.length_nil, Nat.add_zero]
  induction m with
  | nil => rfl
  | cons x m ih =>
    obtain ⟨k, v⟩ := x
    by_cases h : k < a
    · simp [memBelow, memFrom, h, ih]
    · simp [memBelow, memFrom, h]

theorem pmLookup_hit {d : Dev} (hi : d.noInj = true) {sl page : Nat} (hp : d.plainP sl page = true) (cls : Option Nat) :
    d.pmLookup sl page {} cls = ((some (d.entNow sl page), true), d) := by
  simp only [Dev.plainP, Bool.and_eq_true, decide_eq_true_eq] at hp
  obtain ⟨⟨⟨h1, h2⟩, h3⟩, h4⟩ := hp
  obtain ⟨k, hk⟩ := Option.isSome_iff_exists.1 h3
  unfold Dev.pmLookup
  rw [hk]
  dsimp only
  rw [Dev.check_noInj hi]
  unfold Dev.touchFenced
  simp [h4]

theorem place_plainP {d : Dev} (hi : d.noInj = true) {sl page : Nat} (hp : d.plainP sl page = true) (ps : List PQuad) (bal : Bool) (cls : Option Nat) :
    d.place sl page ps bal {} cls = (.done, (d.placeP sl page ps {} cls).tallyQuads sl page ps.length) := by
  unfold Dev.place
  rw [pmLookup_hit hi hp]
  simp only [Dev.plainP, Bool.and_eq_true, decide_eq_true_eq] at hp
  obtain ⟨⟨⟨h1, h2⟩, h3⟩, h4⟩ := hp
  simp [h1]

theorem Dev.Rest.storeUnit {d : Dev} (h : d.Rest) (sl : Nat) (e : PEnt) (he : e.sld = false) (quad kind c off : Nat) (pt : List Byte) (ph : Phys) (cls : Option Nat) :
    (d.storeUnit sl e quad kind c off pt ph cls).Rest := by
  unfold Dev.storeUnit Dev.sealUnit
  simp only [he, Bool.false_eq_true, if_false]
  split
  · exact h
  · exact h.wr _ _ _ _

theorem storeUnit_mem {d : Dev} (sl : Nat) (e : PEnt) (he : e.sld = false) (quad kind c off : Nat) (pt : List Byte) (ph : Phys) (cls : Option Nat) :
    (d.storeUnit sl e quad kind c off pt ph cls).mem = memPut d.mem (chBase c + off) (d.encOpen sl e.ctx quad pt) := by
  unfold Dev.storeUnit Dev.sealUnit
  simp only [he, Bool.false_eq_true, if_false]
  split
  · rename_i h
    rw [List.isEmpty_iff.1 h, memPut_nil]
  · exact Dev.wr_mem _ _ _ _ _

/-- What an access to a channel leaves alone. -/
structure SameButChan (d e : Dev) : Prop where
  slc : e.slc = d.slc
  lnd : e.lnd = d.lnd
  pm : e.pm = d.pm
  lko : e.lko = d.lko
  ext : e.ext = d.ext
  prm : e.prm = d.prm

theorem activateRow_same (d : Dev) (c : Nat) (r : RowAddr) (cls : Option Nat) : SameButChan d (d.activateRow c r cls) := by
  unfold Dev.activateRow
  dsimp only
  constructor <;> simp

theorem SameButChan.trans {a b c : Dev} (h : SameButChan a b) (k : SameButChan b c) : SameButChan a c :=
  ⟨k.slc.trans h.slc, k.lnd.trans h.lnd, k.pm.trans h.pm, k.lko.trans h.lko, k.ext.trans h.ext, k.prm.trans h.prm⟩

theorem SameButChan.refl (a : Dev) : SameButChan a a := ⟨rfl, rfl, rfl, rfl, rfl, rfl⟩

theorem foldl_same {β : Type} (f : Dev → β → Dev) (hf : ∀ d b, SameButChan d (f d b)) (l : List β) (d : Dev) : SameButChan d (l.foldl f d) := by
  induction l generalizing d with
  | nil => exact .refl d
  | cons b l ih => exact (hf d b).trans (ih _)

theorem openAt_same (d : Dev) (c off : Nat) (cls : Option Nat) : SameButChan d (d.openAt c off cls) := by
  have h1 : SameButChan d (d.payOwed c) := by
    unfold Dev.payOwed
    dsimp only
    refine SameButChan.trans (b := (d.modCh c fun x => { x with owed := [] }).bump 0x404 c (d.ch c).owed.length) (by constructor <;> simp) (foldl_same _ ?_ _ _)
    intro d r
    exact (activateRow_same d c r none).trans (by constructor <;> simp)
  have h2 : ∀ e : Dev, SameButChan d e → SameButChan d (if tget none (e.ch c).openRow (e.rowOf c off).bank = some (e.rowOf c off).row then e else e.activateRow c (e.rowOf c off) cls) := by
    intro e he
    split
    · exact he
    · exact he.trans (activateRow_same _ _ _ _)
  unfold Dev.openAt
  dsimp only
  cases (d.ch c).owed.isEmpty
  · exact h2 _ h1
  · exact h2 _ (.refl d)

theorem wr_same (d : Dev) (c off : Nat) (bs : List Byte) (cls : Option Nat) : SameButChan d (d.wr c off bs cls) := by
  unfold Dev.wr
  dsimp only
  refine (openAt_same d c off cls).trans ?_
  constructor <;> simp

theorem rd_same (d : Dev) (c off n : Nat) (cls : Option Nat) : SameButChan d (d.rd c off n cls).2 := by
  unfold Dev.rd
  dsimp only
  refine (openAt_same d c off cls).trans ?_
  constructor <;> simp

theorem dirtyQuad_at {w : Wharf} {quad : Nat} {k : Nat → Nat} (h : w.dirtyQuad quad k = true) {j : Nat} (hj : j < 4) :
    w.find (quad * 4 + j) = some (k j) ∧ (w.get (k j)).st = .dirty ∧ (w.get (k j)).snap = none ∧ (w.get (k j)).pois = false ∧ k j ∉ w.disabled := by
  have := List.all_eq_true.1 h j (List.mem_range.2 hj)
  simpa [and_assoc] using this

theorem keysIn_dirty {w : Wharf} {quad : Nat} {k : Nat → Nat} (h : w.dirtyQuad quad k = true) : w.keysIn quad .dirty = [k 0, k 1, k 2, k 3] := by
  have h0 := dirtyQuad_at h (show 0 < 4 by decide)
  have h1 := dirtyQuad_at h (show 1 < 4 by decide)
  have h2 := dirtyQuad_at h (show 2 < 4 by decide)
  have h3 := dirtyQuad_at h (show 3 < 4 by decide)
  unfold Wharf.keysIn
  rw [show List.range 4 = [0, 1, 2, 3] from rfl]
  simp only [List.filterMap_cons, List.filterMap_nil]
  rw [h0.1, h1.1, h2.1, h3.1]
  simp [h0.2.1, h1.2.1, h2.2.1, h3.2.1]

theorem gather_dirty {d : Dev} (hi : d.noInj = true) {sl quad : Nat} {k : Nat → Nat} (h : (d.ms sl).wharf.dirtyQuad quad k = true) (cls : Option Nat) :
    ∃ p, d.gather sl quad {} cls = (p, d) ∧ p.quad = quad ∧ p.data = (d.ms sl).wharf.quadData k ∧ p.pois = false := by
  have h0 := dirtyQuad_at h (show 0 < 4 by decide)
  have h1 := dirtyQuad_at h (show 1 < 4 by decide)
  have h2 := dirtyQuad_at h (show 2 < 4 by decide)
  have h3 := dirtyQuad_at h (show 3 < 4 by decide)
  have hp : ∀ x : Nat, d.parityRead sl x {} = (true, d) := by
    intro x
    unfold Dev.parityRead
    dsimp only
    simp only [Bool.false_eq_true, if_false]
    rw [Dev.check_noInj hi]
    simp
  have step : ∀ j xs, j < 4 → Dev.gatherLine sl quad (xs, {}, d) j = (xs ++ [some ((d.ms sl).wharf.get (k j))], {}, d) := by
    intro j xs hj
    unfold Dev.gatherLine
    dsimp only
    rw [(dirtyQuad_at h hj).1]
    dsimp only
    rw [hp]
    rfl
  have hr : List.range 4 = [0, 1, 2, 3] := rfl
  have hg : (List.range 4).foldl (Dev.gatherLine sl quad) ([], {}, d) = ([some ((d.ms sl).wharf.get (k 0)), some ((d.ms sl).wharf.get (k 1)),
      some ((d.ms sl).wharf.get (k 2)), some ((d.ms sl).wharf.get (k 3))], {}, d) := by
    rw [hr]
    simp only [List.foldl_cons, List.foldl_nil, step _ _ (show 0 < 4 by decide), step _ _ (show 1 < 4 by decide), step _ _ (show 2 < 4 by decide),
      step _ _ (show 3 < 4 by decide)]
    rfl
  have e : d.gather sl quad {} cls = ((d.gather sl quad {} cls).1, d) := by
    refine Prod.ext (by simp) ?_
    unfold Dev.gather
    rw [hg]
    simp
  refine ⟨_, e, ?_⟩
  unfold Dev.gather
  rw [hg]
  simp only [List.all_cons, List.all_nil, Option.isSome_some, Bool.and_self, if_true, List.getD_cons_zero, List.getD_cons_succ, true_and]
  refine ⟨rfl, ?_⟩
  rw [hr]
  simp [h0.2.2.2.1, h1.2.2.2.1, h2.2.2.2.1, h3.2.2.2.1]

theorem Wharf.get_put (w : Wharf) (k x : Nat) (l : WLine) (hl : l.st ≠ .invalid) : (w.put k l).get x = if x = k then l else w.get x := by
  unfold Wharf.put Wharf.get
  by_cases h : x = k
  · subst h
    rw [if_pos rfl, tget_tput_same]
    intro h
    rw [h] at hl
    exact hl rfl
  · rw [if_neg h, tget_tput_ne _ _ _ h]

theorem Dev.ms_modW {d : Dev} (h : d.Rest) (n m : Nat) (f : Wharf → Wharf) :
    ((d.modW n f).ms m).wharf = if m = n then f (d.ms n).wharf else (d.ms m).wharf := by
  unfold Dev.modW
  rw [Dev.ms_modMs h]
  split
  · rfl
  · rfl

/-- What ends a writeback at one place. -/
def finishOne (sl : Nat) (evict : Bool) (d : Dev) (k : Nat) : Dev :=
  let w := (d.ms sl).wharf
  let l := w.get k
  if l.snap.isSome then d.modW sl fun w => w.put k { l with st := .dirty, snap := none }
  else
    let d := d.modW sl fun w => w.put k { l with st := .clean }
    if evict || decide (k ∈ w.disabled) then d.invalidate sl k else d

theorem finishFold {d : Dev} (hr : d.Rest) (sl : Nat) (ks : List Nat)
    (hk : ∀ k ∈ ks, ((d.ms sl).wharf.get k).snap = none ∧ k ∉ (d.ms sl).wharf.disabled) :
    let e := ks.foldl (finishOne sl false) d
    e.Rest ∧ e.mem = d.mem ∧ e.lnd = d.lnd ∧ e.lko = d.lko ∧ (∀ m, m ≠ sl → e.ms m = d.ms m) ∧ (e.ms sl).wharf.disabled = (d.ms sl).wharf.disabled ∧
      (∀ x, (e.ms sl).wharf.get x = if x ∈ ks then { (d.ms sl).wharf.get x with st := .clean } else (d.ms sl).wharf.get x) := by
  induction ks generalizing d with
  | nil => simp [hr]
  | cons k ks ih =>
    have h1 := hk k (by simp)
    have e1 : finishOne sl false d k = d.modW sl fun w => w.put k { (d.ms sl).wharf.get k with st := .clean } := by
      unfold finishOne
      simp [h1.1, h1.2]
    have hr1 : (d.modW sl fun w => w.put k { (d.ms sl).wharf.get k with st := .clean }).Rest := hr.modW _ _
    have hw : ((d.modW sl fun w => w.put k { (d.ms sl).wharf.get k with st := .clean }).ms sl).wharf
        = (d.ms sl).wharf.put k { (d.ms sl).wharf.get k with st := .clean } := by
      rw [Dev.ms_modW hr, if_pos rfl]
    have hg : ∀ x, ((d.ms sl).wharf.put k { (d.ms sl).wharf.get k with st := .clean }).get x
        = if x = k then { (d.ms sl).wharf.get k with st := .clean } else (d.ms sl).wharf.get x := fun x => Wharf.get_put _ _ _ _ (by simp)
    simp only [List.foldl_cons]
    rw [e1]
    obtain ⟨a1, a2, a3, a4, a5, a6, a7⟩ := ih hr1 (by
      intro x hx
      rw [hw, hg]
      have := hk x (List.mem_cons_of_mem _ hx)
      constructor
      · split
        · exact h1.1
        · exact this.1
      · exact this.2)
    refine ⟨a1, a2, a3, a4, ?_, ?_, ?_⟩
    · intro m hm
      rw [a5 m hm]
      unfold Dev.modW
      rw [Dev.ms_modMs hr, if_neg hm]
    · rw [a6, hw]
      rfl
    · intro x
      rw [a7, hw, hg]
      by_cases hx : x = k
      · subst hx
        by_cases hxs : x ∈ ks <;> simp [hxs]
      · by_cases hxs : x ∈ ks <;> simp [hx, hxs]

theorem finishQuad_eq (d : Dev) (sl quad : Nat) (st : WSt) (ev : Bool) :
    d.finishQuad sl quad st ev = ((d.ms sl).wharf.keysIn quad st).foldl (finishOne sl ev) d := rfl

theorem plainP_of {d e : Dev} (hpm : e.pm = d.pm) (hs : e.slc = d.slc) (hc : e.chn = d.chn) (hH : e.codeH = d.codeH) (sl page : Nat) :
    e.plainP sl page = d.plainP sl page := by
  unfold Dev.plainP Dev.ent Dev.ms Dev.chOk Dev.on Dev.ch
  rw [hpm, hs, hc, hH]

theorem placeQpois_same (d : Dev) (page : Nat) (ps : List PQuad) :
    (d.placeQpois page ps).mem = d.mem ∧ (d.placeQpois page ps).lnd = d.lnd ∧ (d.placeQpois page ps).lko = d.lko ∧ (d.placeQpois page ps).slc = d.slc := by
  unfold Dev.placeQpois Dev.setEnt
  dsimp only
  split <;> exact ⟨rfl, rfl, rfl, rfl⟩

theorem countTally_same {d : Dev} (hr : d.Rest) (sl page : Nat) :
    (d.countTally sl page).mem = d.mem ∧ (d.countTally sl page).lnd = d.lnd ∧ (d.countTally sl page).lko = d.lko ∧
      (∀ m, m ≠ sl → (d.countTally sl page).ms m = d.ms m) ∧ ((d.countTally sl page).ms sl).wharf = (d.ms sl).wharf := by
  unfold Dev.countTally
  split
  · exact ⟨rfl, rfl, rfl, fun _ _ => rfl, rfl⟩
  · refine ⟨rfl, rfl, rfl, ?_, ?_⟩
    · intro m hm
      rw [Dev.ms_modMs hr, if_neg hm]
    · rw [Dev.ms_modMs hr, if_pos rfl]

/-- What a writeback of one whole dirty quad of a plainly stored page does. -/
theorem writeback_plain {d : Dev} (hr : d.Rest) (hi : d.noInj = true) {sl page quad : Nat} {k : Nat → Nat} (hp : d.plainP sl page = true)
    (hd : (d.ms sl).wharf.dirtyQuad quad k = true) (hh : (d.ms sl).held = []) (eager : Bool) :
    let e := d.writeback sl page [quad] false eager {}
    e.Rest ∧ e.mem = memPut d.mem (chBase (d.ent page).chan + ((d.ent page).frame * 4096 + quad % 16 * 256))
        (d.encOpen sl (d.ent page).ctx quad (bytesOf 256 ((d.ms sl).wharf.quadData k))) ∧
      e.lnd = d.lnd ∧ e.lko = d.lko ∧ (∀ m, m ≠ sl → e.ms m = d.ms m) ∧
      (∀ x, (e.ms sl).wharf.get x = if x ∈ [k 0, k 1, k 2, k 3] then { (d.ms sl).wharf.get x with st := .clean } else (d.ms sl).wharf.get x) := by
  intro e
  have hq : ([quad].filter fun q => !((d.ms sl).wharf.keysIn q .dirty).isEmpty && !(d.ms sl).heldQuad q) = [quad] := by
    simp [keysIn_dirty hd, Slice.heldQuad, hh]
  obtain ⟨p, hg, hpq, hpd, hpp⟩ := gather_dirty hi hd (some ((d.ms sl).wharf.get (k 0)).cls)
  obtain ⟨b, hb⟩ : ∃ b, b = d.bump (if eager then 0x103 else 0x104) sl 4 none (some ((d.ms sl).wharf.get (k 0)).cls) := ⟨_, rfl⟩
  have hbr : b.Rest := hb ▸ hr.bump _ _ _ _ _
  have hbs : b.slc = d.slc := by rw [hb]; simp
  have hbm : ∀ m, b.ms m = d.ms m := fun m => by unfold Dev.ms; rw [hbs]
  have hbe : b.ent page = d.ent page := by unfold Dev.ent; rw [show b.pm = d.pm by rw [hb]; simp]
  have hbp : b.plainP sl page = true := by
    rw [plainP_of (by rw [hb]; simp) hbs (by rw [hb]; simp) (by rw [hb]; simp), hp]
  have hbi : b.noInj = true := Dev.noInj_of_lko hi (by rw [hb]; simp)
  have hsld : (b.ent page).sld = false := by
    simp only [Dev.plainP, Bool.and_eq_true, decide_eq_true_eq, Bool.not_eq_true'] at hbp
    exact hbp.1.1.2
  obtain ⟨u, hu⟩ : ∃ u, u = b.storeUnit sl (b.ent page) quad 8 (b.ent page).chan ((b.ent page).frame * 4096 + quad % 16 * 256)
    (bytesOf 256 ((d.ms sl).wharf.quadData k)) {} (some ((d.ms sl).wharf.get (k 0)).cls) := ⟨_, rfl⟩
  have hur : u.Rest := hu ▸ hbr.storeUnit _ _ hsld _ _ _ _ _ _ _
  have hum : u.mem = memPut b.mem (chBase (b.ent page).chan + ((b.ent page).frame * 4096 + quad % 16 * 256))
      (b.encOpen sl (b.ent page).ctx quad (bytesOf 256 ((d.ms sl).wharf.quadData k))) := hu ▸ storeUnit_mem _ _ hsld _ _ _ _ _ _ _
  have hus : SameButChan b u := by
    rw [hu]
    unfold Dev.storeUnit Dev.sealUnit
    simp only [hsld, Bool.false_eq_true, if_false]
    split
    · exact .refl _
    · exact wr_same _ _ _ _ _
  obtain ⟨v, hv⟩ : ∃ v, v = (u.placeQpois page [p]).countTally sl page := ⟨_, rfl⟩
  have hqr : (u.placeQpois page [p]).Rest := hur.placeQpois _ _
  obtain ⟨q1, q2, q3, q4⟩ := placeQpois_same u page [p]
  obtain ⟨c1, c2, c3, c4, c5⟩ := countTally_same hqr sl page
  have hvr : v.Rest := hv ▸ hqr.countTally _ _
  have hvw : (v.ms sl).wharf = (d.ms sl).wharf := by
    rw [hv, c5]
    unfold Dev.ms
    rw [q4, hus.slc, hbs]
  have hplace : b.place sl page [p] false {} (some ((d.ms sl).wharf.get (k 0)).cls) = (.done, v) := by
    rw [place_plainP hbi hbp, hv, hu]
    unfold Dev.placeP Dev.tallyQuads PQuad.q
    simp [List.range_succ, hpq, hpd]
  have he : e = [k 0, k 1, k 2, k 3].foldl (finishOne sl false) v := by
    show d.writeback sl page [quad] false eager {} = _
    unfold Dev.writeback
    dsimp only
    rw [hq]
    simp only [List.isEmpty_cons, Bool.false_eq_true, if_false, List.flatMap_cons, List.flatMap_nil, List.append_nil, keysIn_dirty hd, List.headD_cons,
      List.foldl_cons, List.foldl_nil, hg, List.nil_append, List.length_cons, List.length_nil]
    rw [← hb, hplace]
    simp only [finishQuad_eq, hvw, keysIn_dirty hd, List.foldl_cons, List.foldl_nil]
  have h0 := dirtyQuad_at hd (show 0 < 4 by decide)
  have h1 := dirtyQuad_at hd (show 1 < 4 by decide)
  have h2 := dirtyQuad_at hd (show 2 < 4 by decide)
  have h3 := dirtyQuad_at hd (show 3 < 4 by decide)
  obtain ⟨f1, f2, f3, f4, f5, f6, f7⟩ := finishFold hvr sl [k 0, k 1, k 2, k 3] (by
    rw [hvw]
    intro x hx
    simp only [List.mem_cons, List.not_mem_nil, or_false] at hx
    rcases hx with rfl | rfl | rfl | rfl
    · exact ⟨h0.2.2.1, h0.2.2.2.2⟩
    · exact ⟨h1.2.2.1, h1.2.2.2.2⟩
    · exact ⟨h2.2.2.1, h2.2.2.2.2⟩
    · exact ⟨h3.2.2.1, h3.2.2.2.2⟩)
  rw [he]
  refine ⟨f1, ?_, ?_, ?_, ?_, ?_⟩
  · rw [f2, hv, c1, q1, hum, hbe]
    have : b.mem = d.mem := by rw [hb]; simp
    rw [this]
    unfold Dev.encOpen Dev.keysOf
    rw [hbm]
  · rw [f3, hv, c2, q2, hus.lnd, hb]
    simp
  · rw [f4, hv, c3, q3, hus.lko, hb]
    simp
  · intro m hm
    rw [f5 m hm, hv, c4 m hm]
    unfold Dev.ms
    rw [q4, hus.slc, hbs]
  · intro x
    rw [f7, hvw]

end Sys2Proof.Machine
end

