-- ==== Sys2Proof/Tests/Slice0.lean ====
section
/-! SUPPORT. Worked examples of the spec, one ill-formed term for each check, and for every statement with hypotheses a concrete state and operands that meet
them together. -/
namespace Sys2Proof.Tests
open Sys2Proof Sys2Proof.Machine
set_option Elab.async false

/-- A landing that is Up, its decoder committed over the whole region, its labels in class 1, its host's credits at hand. -/
def liveLd : Landing :=
  { link := { speed := 4#3, width := 4#3, flit := 2#2, st := .up, memen := true, released := true }
    pool := { held := [256, 256, 128, 64, 32, 64], hostCred := 1000 }
    acc := { dec := { hbase := 0x100000000000, size := 0x200000000000, committed := true }, biEn := true, lbl := [(0, { sc := 1#6, valid := true })] }
    memActive := true }

/-- An active channel of two 64 GiB DIMMs. -/
def liveCh : Chan :=
  { pop := { gib := 64, dpc := 2, ranks := 2, x4 := true, speed := 6400 }, st := .active, speed := 5200, spA := 5200, spB := 3200, free := 259784704, tokens := 4 }

/-- A record that grants block `b` to landing `n`. -/
def grantTo (n b : Nat) : ExtRec := { base := b, nblk1 := 0, ld := n, st := .granted, seq := 1#16 }

/-- An active device: landings 0 and 1 Up, all channels active, block 0 granted to landing 0 and block 1 to landing 1, context 0 enabled. -/
def liveDev : Dev :=
  (({ lnd := [(0, liveLd), (1, liveLd)]
      chn := (List.range 16).map fun c => (c, liveCh)
      pm := { blocks := [(0, { seg := some 0 }), (1, { seg := some 1 })], segs := 32768 }
      ext := { recs := [(0, grantTo 0 0), (1, grantTo 1 1)] }
      ctx := [(0, { st := .enabled, gen := 1#8 })]
      active := true, std := true, fmnBusy := false, tlhBusy := false
      fmn := { st := .running }, tlh := { st := .running }
      gwy := { st := .on, present := true, vin := 12000, vinOk := true, vout := 11900, pg := true, pgTh := 10800 }
      boot := { phase := .active, kind := .pgCold, released := true, chDone := List.range 16, sramDone := true, laneDone := true, bank := 1, marks := [] }
      pwr := { st := .underway }, moor := { linkUp := true, i3c := some 9 } } : Dev).fusedRegions).syustRegions

/-- The active device with nothing waiting. -/
def live : State := { State.reset with dev := liveDev }

/-- The host address of a DPA of landings 0 and 1. -/
def hpa (dpa : Nat) : BitVec 64 := BitVec.ofNat 64 (0x100000000000 + dpa)

/-- A line of landing 0's first page in the Wharf of its home slice MS01, in way 3 of its set. -/
def lineAt (j : Nat) : Nat := 16 * wSet (64 + j) + 3

theorem test_home_slice_example : (0xA7C52B3C0 : Nat) < 2 ^ 45 ∧ ({} : Dev).codeH = false ∧ ({} : Dev).spread (0xA7C52B3C0 / 4096) = 13 ∧ ({} : Dev).nearHome 5 (0xA7C52B3C0 / 4096) = 6 ∧
    ({ codeH := true } : Dev).spread (0xA7C52B3C0 / 4096) = 8 ∧ ({ codeH := true } : Dev).nearHome 5 (0xA7C52B3C0 / 4096) = 5 := by decide +kernel
theorem test_home_slice_top : (2 ^ 45 - 1 : Nat) < 2 ^ 45 ∧ ({} : Dev).spread ((2 ^ 45 - 1) / 4096) = 1 ∧ ({} : Dev).nearHome 15 ((2 ^ 45 - 1) / 4096) = 13 := by decide +kernel
def hDev : Dev := { liveDev with codeH := true }
theorem test_witness_entry : (tget {} liveDev.pm.blocks 1).seg = some 1 ∧ (65535 + 65536) / 2 ^ 16 = 1 ∧ (tget {} hDev.pm.blocks 1).seg = some 1 ∧
    liveDev.spread 65551 = liveDev.spread 65566 ∧ 65551 / 2 ^ 16 = 1 ∧ 65566 / 2 ^ 16 = 1 ∧ 15 ∈ List.range 16 ∧ 13 ∈ [0, 1, 4, 5, 8, 9, 12, 13] ∧ hDev.codeH = true := by decide +kernel
def nomDev : Dev := { liveDev with chn := tput {} (tput {} liveDev.chn 3 { liveCh with st := .fenced }) 5 {} }
theorem test_witness_nominal : (∀ c, c < 16 → nomDev.on c = true → (nomDev.ch c).st = .fenced ∨ (nomDev.ch c).usable = true ∨ (nomDev.ch c).pop.dpc = 0) ∧
    (∀ r ∈ nomDev.recList, r.2.base + r.2.nblk1 < nomDev.regionBlocks) ∧ nomDev.nominal = 14 * 512 ∧ nomDev.usedBlocks = 2 := by decide +kernel

def wRead : State := live.to (liveDev.modW 1 fun w => w.put (lineAt 0) { st := .clean, addr := 64, data := 5#512, age := 3, whole := true })
def qRead : ReadReq := { hpa := hpa 0x1000, tag := 7#16 }
def okWork (q : Req) (line : Nat) : Work := { ld := some 0, req := q, line, cls := 1, shared := false, rdonly := false, near := false }
theorem test_witness_readHit :
    wRead.dev.atRest = true ∧ wRead.dev.on 0 = true ∧ wRead.dev.noInj = true ∧ wRead.dev.hears 0 = true ∧ (wRead.dev.ld 0).link.memen = true ∧ qRead.minv = false ∧
      wRead.dev.checkReq 0 qRead.toReq = .ok 1 (okWork qRead.toReq 64) ∧ (wRead.dev.ms 1).wharf.find 64 = some (lineAt 0) ∧ (wRead.dev.ld 0).strides = [] ∧ (wRead.dev.ld 0).wait = [] := by decide +kernel

/-- Page 1 stored whole in berth 5 of CH01, its entry cached at MS01. -/
def plainDev : Dev := ({ liveDev with pm := { liveDev.pm with ents := [(1, some { form := .p, chan := 1, frame := 5, gm1 := 7 })], alloc := [(2 ^ 28 + 5, 0xFF#8)] } } : Dev).modMs 1 fun x =>
  { x with pmc := [(0, { page := 1, valid := true })], sl := { x.sl with keys := [(0, some (3#256, 4#256))] } }
/-- Line `64 + j` of a dirty quad. -/
def dirtyLine (j : Nat) : WLine := { st := .dirty, addr := 64 + j, data := BitVec.ofNat 512 (j + 1), whole := true }
def wWrite : State := live.to (liveDev.modW 1 fun w => w.put (lineAt 0) { st := .dirty, addr := 64, data := 5#512, age := 3, cls := 2 })
def qWrite : WriteReq := { hpa := hpa 0x1000, tag := 9#16, data := 0x77#512 }
def qEvct : Req := { kind := .clnEvct, hpa := hpa 0x1000, tag := 9#16 }
theorem test_witness_writeHit :
    wWrite.dev.atRest = true ∧ wWrite.dev.on 0 = true ∧ wWrite.dev.noInj = true ∧ wWrite.dev.hears 0 = true ∧ (wWrite.dev.ld 0).link.memen = true ∧
      (okWork qWrite.toReq 64).shared = false ∧ qWrite.ptl = false ∧ wWrite.dev.checkReq 0 qWrite.toReq = .ok 1 (okWork qWrite.toReq 64) ∧
      (wWrite.dev.ld 0).ideMem.mode ≠ .skid ∧ (wWrite.dev.ms 1).wharf.find 64 = some (lineAt 0) ∧ ((wWrite.dev.ms 1).wharf.get (lineAt 0)).st = .dirty ∧
      (wWrite.dev.ms 1).misses = [] ∧ wWrite.dev.checkReq 0 qEvct = .ok 1 (okWork qEvct 64) := by decide +kernel
def qFar : ReadReq := { hpa := hpa 0x20000000, tag := 3#16 }
def qLow : WriteReq := { hpa := 0x0FFFFFFFFFC0#64, tag := 3#16, data := 1#512 }
theorem test_witness_failedCheck :
    live.dev.atRest = true ∧ live.dev.on 0 = true ∧ live.dev.hears 0 = true ∧ (live.dev.ld 0).link.memen = true ∧ qFar.minv = false ∧
      live.dev.checkReq 0 qFar.toReq = .fail 3 0 ∧ live.dev.checkReq 0 qLow.toReq = .fail 1 0 ∧ (∀ x ∈ (live.dev.ld 0).coh.snoops, x.line ≠ (5#39).toNat) := by decide +kernel
def wDirty : State := live.to (plainDev.modW 1 fun w => (List.range 4).foldl (fun w j => w.put (lineAt j) (dirtyLine j)) w)
theorem test_witness_writeback :
    wDirty.dev.atRest = true ∧ wDirty.dev.on 1 = true ∧ wDirty.dev.noInj = true ∧ wDirty.dev.plainP 1 1 = true ∧ 16 / 16 = 1 ∧
      (wDirty.dev.ms 1).wharf.dirtyQuad 16 lineAt = true ∧ (wDirty.dev.ms 1).held = [] ∧ maskQuads 1 1#16 = [16] := by decide +kernel
theorem test_witness_idleCleaning : 0 < wDirty.dev.p 0x175 ∧
    argMin (fun y : Nat × WLine => (y.1 / 16 + 16384 - (wDirty.dev.ms 1).wharf.scan) % 16384) ((wDirty.dev.ms 1).wharf.lines.filter fun y => y.2.st = .dirty) = some (lineAt 0, dirtyLine 0) ∧
    ((((wDirty.dev.ms 1).wharf.lines.filter fun y => y.2.st = .dirty).filter fun y => y.1 / 16 = lineAt 0 / 16).map (·.2.addr)) = [16 * 4] := by decide +kernel
def hold16 : Held := { page := 1, quads := [(16, 9#2048, false, true)], evict := false }
def wHeld : State := live.to (plainDev.modMs 1 fun x => { x with held := [hold16] })
def bufQuad : QBuf := { quad := 16, lines := [(0, 1#512, false), (1, 2#512, false), (2, 3#512, false), (3, 4#512, false)], cls := 1 }
def wBuf : State := live.to (plainDev.modW 1 fun w => { w with fenced := true, qbuf := [bufQuad] })
theorem test_witness_held :
    wHeld.dev.atRest = true ∧ wHeld.dev.on 1 = true ∧ wHeld.dev.noInj = true ∧ wHeld.dev.plainP 1 1 = true ∧ (wHeld.dev.ms 1).held = [hold16] ∧ (1#33).toNat = 1 ∧
      wBuf.dev.atRest = true ∧ wBuf.dev.noInj = true ∧ (wBuf.dev.ms 1).wharf.qbuf = [bufQuad] ∧ (wBuf.dev.ms 1).held = [] ∧ wBuf.dev.plainP 1 ((16#37).toNat / 16) = true := by decide +kernel
def rdWork : Work := okWork qRead.toReq 64
def missed : Miss := { quad := 16, ws := [rdWork], line := 64, cls := 1, pf := false, doomed := true }
def wMiss : State := live.to ((plainDev.modMs 1 fun x => { x with misses := [missed] }).modCh 1 fun c =>
  { c with sched := [{ quad := 16, home := 1, off := 5 * 4096, len := 256, cls := 1, low := false }] })
def minvWork : Work := okWork { kind := .minv, hpa := hpa 0x1000, tag := 5#16 } 64
def wWait : State := live.to (wRead.dev.modLd 0 fun l => { l with wait := [(1, minvWork)] })
theorem test_witness_dramReturn :
    wMiss.dev.atRest = true ∧ wMiss.dev.noInj = true ∧ (wMiss.dev.ms 1).misses = [missed] ∧ (∀ j, j < 16 → j ≠ 1 → (wMiss.dev.ms j).misses = []) ∧ rdWork.ld = some 0 ∧
      rdWork.req.kind = .rd .none ∧ rdWork.pf = false ∧ rdWork.dead = false ∧ rdWork.line / 4 = 16 ∧ wMiss.dev.hears 0 = true ∧ wMiss.dev.plainP 1 (16 / 16) = true ∧
      wMiss.dev.unqueued 1 missed = false ∧ (wMiss.dev.ent 1).qpois = 0#16 ∧ (wMiss.dev.ms 1).sl.reload = [] := by decide +kernel
theorem test_witness_trackerFree :
    wWait.dev.atRest = true ∧ wWait.dev.noInj = true ∧ (wWait.dev.ms 1).misses.length < 512 ∧ wWait.dev.nextOffered 1 (wWait.dev.ms 1).offer = some 0 ∧
      wWait.dev.firstWaiting 0 1 = some (0, minvWork) ∧ minvWork.ld = some 0 ∧ minvWork.req.kind = .minv ∧ minvWork.shared = false ∧ wWait.dev.hears 0 = true ∧
      (wWait.dev.ms 1).wharf.find 64 = some (lineAt 0) ∧ ((wWait.dev.ms 1).wharf.get (lineAt 0)).pf = false ∧ ((wWait.dev.ms 1).wharf.get (lineAt 0)).pois = false := by decide +kernel
/-- Three Clean lines of class 2 in a slice whose class 2 may hold one. -/
def wTrim : State := live.to (({ liveDev with qos := { liveDev.qos with recs := [(2, some { xw := 0 })] } } : Dev).modW 1 fun w =>
  w.put (lineAt 0) { st := .clean, addr := 64, cls := 2, age := 7 })
def wUpkeep : State := live.to ((({ liveDev with pm := { liveDev.pm with sweep := true, ents := [(1, some { form := .z, tepoch := 5#4, pin := true })] } } : Dev).modCh 1 fun c =>
  { c with tide := .ballast, tokens := 0 }).modMs 1 fun x => { x with pmc := [(0, { page := 1, valid := true, tally := 3#8, dirty := true })] })
theorem test_witness_upkeep :
    wUpkeep.dev.atRest = true ∧ wUpkeep.dev.on 1 = true ∧ (wUpkeep.dev.ch 1).tide = .ballast ∧ wUpkeep.dev.pm.sweep = true ∧
      (wUpkeep.dev.ms 1).pmc = [(0, { page := 1, valid := true, tally := 3#8, dirty := true })] ∧
      (∀ x ∈ wUpkeep.dev.pm.ents, (wUpkeep.dev.ent x.1).tepoch ≠ wUpkeep.dev.pm.epoch + 1#4) ∧
      (∀ x ∈ wUpkeep.dev.pm.ents, (wUpkeep.dev.ent x.1).form = .z ∨ wUpkeep.dev.chOk (wUpkeep.dev.ent x.1).chan = true) := by decide +kernel
theorem test_witness_trim : wTrim.dev.atRest = true ∧ 0 < (wTrim.dev.ms 1).wharf.occ 2 - wTrim.dev.wX (wTrim.dev.ms 1).wharf 2 ∧
    (wTrim.dev.ms 1).wharf.occ 2 - wTrim.dev.wX (wTrim.dev.ms 1).wharf 2 ≤
      ((List.range 8).reverse.flatMap fun a => ((wTrim.dev.ms 1).wharf.lines.filter fun x => decide (x.2.cls = 2) && !x.2.pin &&
        decide (x.1 % 16 ∈ (wTrim.dev.ms 1).wharf.cacheWays) && decide (x.2.st = .clean)).filter fun x => x.2.age = a).length := by decide +kernel

/-- The active device with landing 0 changed. -/
def onLd (f : Landing → Landing) : State := live.to (liveDev.modLd 0 f)
def lnk (f : Link → Link) : State := onLd fun l => { l with link := f l.link }
def wLost : State := lnk fun k => { k with st := .recovering, lost := some 5000 }
def wDown : State := lnk fun k => { k with st := .down }
def wReset : State := lnk fun k => { k with st := .reset, perst := true }
theorem test_witness_recovery :
    live.dev.atRest = true ∧ (live.dev.ld 0).link.st = .up ∧ wLost.dev.atRest = true ∧ (wLost.dev.ld 0).link.lost.isSome ∧ wDown.dev.atRest = true ∧
      (wDown.dev.ld 0).link.st = .down ∧ wReset.dev.atRest = true ∧ (wReset.dev.ld 0).link.st = .reset ∧ (wReset.dev.ld 0).link.released = true ∧ 999 < 1000 := by decide +kernel
def wTrain : State := lnk fun k => { k with st := .training, memen := false, lanes := 0x80#16 }
def gen1 : Train := { speed := 0#3, width := 4#3 }
theorem test_witness_training : wTrain.dev.atRest = true ∧ (wTrain.dev.ld 0).link.st = .training ∧ (wLost.dev.ld 0).link.st = .recovering ∧
    min gen1.speed.toNat (min (speedCode 64) (if (wTrain.dev.ld 0).link.flitFor gen1 = 0#2 then 3 else 4)) = 0 := by decide +kernel
def flitRd : Flit := { seq := 0, credits := 3, msgs := [.rd qRead] }
def tx (n : Nat) : TxFlit := { seq := n, body := some (.cmp 1#16 .noOp), credits := {} }
def wFlit : State := onLd fun l => { l with pool := { l.pool with held := [1, 256, 128, 64, 32, 64] } }
def wTx : State := live.to ({ liveDev with fmnBusy := true } : Dev) |>.to ((({ liveDev with fmnBusy := true } : Dev).modLd 0 fun l =>
  { l with pool := { l.pool with replay := [tx 4, tx 5], replays := 4, pend := { rwd := 1 } } }))
theorem test_witness_credits : wFlit.dev.atRest = true ∧ (wFlit.dev.ld 0).link.st = .up ∧ flitRd.good = true ∧ flitRd.seq = (wFlit.dev.ld 0).pool.rxSeq ∧ (wFlit.dev.ld 0).pool.msgs = [] ∧
    1 ≤ (wFlit.dev.ld 0).pool.held.getD 0 0 ∧ wFlit.dev.hears 0 = true ∧ wTx.dev.atRest = true ∧ wTx.dev.fmnBusy = true ∧ (∀ f ∈ (wTx.dev.ld 0).pool.replay, 4 ≤ f.seq) ∧
    (wTx.dev.ld 0).pool.replay ≠ [] ∧ wTx.dev.linkLive 0 = true := by decide +kernel
theorem test_witness_replay : wTx.dev.atRest = true ∧ wTx.dev.fmnBusy = true ∧ (wTx.dev.ld 0).coh.xfers = [] ∧ (∃ f ∈ (wTx.dev.ld 0).pool.replay, f.seq ≤ 4) ∧ 4 ≤ (wTx.dev.ld 0).pool.replays ∧
    (wTx.dev.ld 0).link.st = .up ∧ (wTx.dev.ld 0).pool.pend.req + (wTx.dev.ld 0).pool.pend.rwd + (wTx.dev.ld 0).pool.pend.birsp ≠ 0 ∧ (wTx.dev.ld 0).pool.replay.length < 256 ∧
    wTx.dev.mg.warm = none := by decide +kernel
def evctMsg : PoolMsg := { msg := .clnEvct (hpa 0x1000) 9#16, cls := 1, home := 1, ord := 0 }
def wPool : State := onLd fun l => { l with pool := { l.pool with msgs := [evctMsg], next := 1 } }
theorem test_witness_departure : wPool.dev.atRest = true ∧ wPool.dev.hears 0 = true ∧ (wPool.dev.ld 0).link.memen = true ∧ wPool.dev.nextDeparture 0 = some evctMsg ∧
    wPool.dev.checkReq 0 qEvct = .ok 1 (okWork qEvct 64) ∧ (okWork qEvct 64).shared = false ∧ (wPool.dev.ld 0).wait = [] ∧
    (∀ x ∈ (wPool.dev.ld 0).pool.msgs, msgClass x.msg < 2) := by decide +kernel
def wStill : State := live.to ({ liveDev with fmnBusy := true, brg := [(0, some { enable := true, hostok := true, st := .idle })] } : Dev)
def wStillLost : State := wStill.to (wStill.dev.modLd 0 fun l => { l with link := { l.link with st := .recovering, lost := some 5000 } })
theorem test_witness_down : wStill.dev.atRest = true ∧ wStill.dev.still 0 = true ∧ (wStill.dev.ld 0).link.st.live = true ∧ (wStill.dev.ld 0).link.merged = false ∧ wStill.dev.mg.pend = [] ∧
    wStill.dev.fmnBusy = true ∧ wStillLost.dev.atRest = true ∧ wStillLost.dev.still 0 = true ∧ (wStillLost.dev.ld 0).link.st.live = true ∧ (wStillLost.dev.ld 0).link.lost.isSome ∧
    1000 ≤ 1000 ∧ (wStill.dev.ld 0).link.released = true := by decide +kernel
def sess0 : Spdm := { id := 1, ld := some 0 }
def wSess : State := live.to ({ liveDev with tlh := { liveDev.tlh with spdm := [sess0] } } : Dev)
def wIde : State := wSess.to (wSess.dev.modLd 0 fun l => { l with ideMem := { mode := .skid, rx := { k0 := some 1#256 }, tx := { k1 := some 2#256, go := some true }, skid := [64] } })
theorem test_witness_ide : wIde.dev.atRest = true ∧ (wIde.dev.ld 0).ideMem.mode = .skid ∧ (wIde.dev.ld 0).link.st.live = true ∧ (wIde.dev.ld 0).pool.msgs = [] ∧ wIde.dev.tlhBusy = false ∧
    wIde.dev.hasSession 0 = true ∧ (((wIde.dev.ld 0).ideDir .mem .rx).act1 = true → ((wIde.dev.ld 0).ideDir .mem .rx).has true = false) ∧ ((wIde.dev.ld 0).ideDir .mem .tx).has true = true ∧
    live.dev.hasSession 0 = false ∧ live.dev.tlhBusy = false := by decide +kernel
def wFree : State := onLd fun l => { l with link := { l.link with memen := false }, acc := { l.acc with dec := {}, lbits := 2#3, lpos := 42#6 } }
def decOk (l : Landing) (d : Dev) (size dbase iw ig : Nat) : Prop := size = iw * 2 ^ (l.acc.lpos.toNat + l.acc.lbits.toNat) ∧ dbase % 2 ^ 28 = 0 ∧
  dbase + 2 ^ l.acc.lpos.toNat ≤ d.regionBlocks * 2 ^ 28 ∧ l.acc.lbits.toNat ≤ 4 ∧ 28 ≤ l.acc.lpos.toNat ∧ l.acc.lpos.toNat ≤ 45 ∧ iw ∈ [1, 2, 4, 8] ∧ ig ∈ [256, 512, 1024, 2048, 4096, 8192, 16384]
theorem test_witness_decoder : wFree.dev.atRest = true ∧ wFree.dev.linkLive 0 = true ∧ (wFree.dev.ld 0).acc.dec.committed = false ∧ live.dev.linkLive 0 = true ∧
    (live.dev.ld 0).acc.dec.committed = true ∧ ((wFree.dev.regionBlocks : Nat) * 2 ^ 28 = 2 ^ 45) := by decide +kernel
theorem test_witness_decoder_ok : decOk (wFree.dev.ld 0) wFree.dev (2 ^ 44) (2 ^ 45 - 2 ^ 42) 1 256 ∧ ¬ decOk (wFree.dev.ld 0) wFree.dev (2 ^ 44) (2 ^ 45 - 2 ^ 42 + 2 ^ 28) 1 256 := by
  unfold decOk
  decide +kernel
def wNoCredit : State := live.to (({ liveDev with fmnBusy := true } : Dev).modLd 0 fun l => { l with pool := { l.pool with held := [0, 256, 128, 64, 32, 64] } })
theorem test_witness_uncovered : wNoCredit.dev.atRest = true ∧ (wNoCredit.dev.ld 0).link.st = .up ∧ flitRd.good = true ∧ flitRd.seq = (wNoCredit.dev.ld 0).pool.rxSeq ∧ flitRd.msgs = [.rd qRead] ∧
    msgClass (.rd qRead) ≠ 5 ∧ (wNoCredit.dev.ld 0).pool.held.getD (msgClass (.rd qRead)) 0 < msgCredit (.rd qRead) ∧ (wNoCredit.dev.ld 0).pool.msgs = [] ∧ wNoCredit.dev.fmnBusy = true ∧
    wNoCredit.dev.lko.recs = [] ∧ wNoCredit.dev.arrival (ldSrc 0 2) { cls := .corrected } = .corrected := by decide +kernel

/-- Sector 16 of page 1, line 64 in A at landing `n`. -/
def ent16 (n : Fin 16) : FEnt := { valid := true, sector := 16, owner := n, lstate := 2#8 }
def fwd1 : Fwd := { sector := 16, line := 0, home := 1, ld := some 1, req := { kind := .rd .inv, hpa := hpa 0x1000, tag := 3#16 }, cls := 1, epoch := 0#4, rdonly := false, shared := false }
def snp64 : Snoop := { line := 64, blk := false, kind := .inv, home := 1, why := .board, limit := 50 }
def sharedDev : Dev := liveDev.modF 1 fun f => { f with ents := [(0, ent16 0)], fwds := [fwd1] }
def wHead : State := live.to (sharedDev.modLd 0 fun l => { l with coh := { l.coh with board := [fwd1] } })
def wHold : State := onLd fun l => { l with coh := { l.coh with hold := [16] } }
theorem test_witness_ownerSnoop : wHead.dev.atRest = true ∧ wHead.dev.hears 0 = true ∧ (wHead.dev.ld 0).coh.ofSector 16 = [fwd1] ∧ 16 ∉ (wHead.dev.ld 0).coh.hold ∧
    (∀ x ∈ (wHead.dev.ld 0).coh.snoops, x.line / 4 = 16 → x.why ≠ .board) ∧ wHead.dev.fent 1 16 = some (.way 1 0, ent16 0) ∧ wHold.dev.atRest = true ∧ wHold.dev.hears 0 = true ∧
    16 ∈ (wHold.dev.ld 0).coh.hold := by decide +kernel
def wSnoop : State := live.to (sharedDev.modLd 0 fun l => { l with coh := { l.coh with board := [fwd1], snoops := [snp64] } })
def hand1 : Handoff := { from_ := 0, head := some fwd1, snooped := 1#4, sent := true }
def wHand : State := live.to (sharedDev.modF 1 fun f => { f with handoffs := [hand1] })
theorem test_witness_answer : wSnoop.dev.atRest = true ∧ wSnoop.dev.hears 0 = true ∧ (wSnoop.dev.ld 0).coh.board = [fwd1] ∧ (wSnoop.dev.ld 0).coh.snoops = [snp64] ∧ snp64.why = .board ∧
    snp64.got = [] ∧ snp64.line = fwd1.sector * 4 + fwd1.line ∧ fwd1.line < 4 ∧ snp64.line < 2 ^ 39 ∧ fwd1.req.kind = .rd .inv ∧ fwd1.rdonly = false := by decide +kernel
theorem test_witness_handoff : wHand.dev.atRest = true ∧ (wHand.dev.ms 1).filt.handoffs = [hand1] ∧ hand1.head = some fwd1 ∧ hand1.back = [] ∧ hand1.data = [] ∧ hand1.sent = true ∧
    fwd1.ld = some 1 ∧ wHand.dev.fent 1 16 = some (.way 1 0, ent16 0) ∧ (wHand.dev.ms 1).filt.lossWait = [] ∧ (∀ x ∈ (wHand.dev.ld 1).coh.xfers, x.got = false) := by decide +kernel
def waiting : Work := { ld := some 1, req := fwd1.req, line := 64, cls := 1, shared := true, rdonly := false, near := false }
def wAsk : State := live.to ((sharedDev.modMs 1 fun x => { x with waitq := [waiting] }).modLd 0 fun l => { l with coh := { l.coh with board := [fwd1] } })
def wAskFull : State := wAsk.to (wAsk.dev.modLd 0 fun l => { l with coh := { l.coh with shared := List.replicate 16 3 } })
theorem test_witness_sharedCredit : (((wAsk.dev.ms 1).waitq.any fun w => w.shared && w.grant.isNone && (match wAsk.dev.fent 1 (w.line / 4) with
      | some (_, e) => e.owned && decide (e.owner.val = 0) && decide (w.ld ≠ some 0)
      | none => false)) = true) ∧ ((wAsk.dev.ld 0).coh.board.any fun f => decide (f.home = 1) && !f.shared) = true ∧ 1 ∉ (wAsk.dev.ld 0).coh.shared ∧ 0 < wAsk.dev.sharedFree 0 ∧
    wAskFull.dev.sharedFree 0 = 0 ∧ 1 ∉ (wAskFull.dev.ld 0).coh.shared := by decide +kernel
theorem test_witness_sharedCredit_fuses :
    (settle wAsk.dev ((wAsk.dev.modLd 0 fun l => { l with coh := { l.coh with shared := l.coh.shared ++ [1] } }).modF 1 fun f => { f with credReq := f.credReq.erase 0 })).blow = 0#2048 ∧
    (settle wAskFull.dev (wAskFull.dev.modF 1 fun f => { f with credReq := if 0 ∈ f.credReq then f.credReq else f.credReq ++ [0] })).blow = 0#2048 := by decide +kernel
def xfer1 (e : BitVec 4) : Xfer := { sector := 16, line := 0, home := 1, epoch := 1#4, tag := 3#16, grant := .a, inFlight := [(e, 0x55#512, false)] }
def wXfer (e : BitVec 4) : State := onLd fun l => { l with coh := { l.coh with xfers := [xfer1 e] } }
theorem test_witness_transfer : (wXfer 1#4).dev.atRest = true ∧ (wXfer 1#4).dev.hears 0 = true ∧ ((wXfer 1#4).dev.ld 0).coh.xfers = [xfer1 1#4] ∧ (xfer1 1#4).got = false ∧
    (wXfer 0#4).dev.atRest = true ∧ (0#4) ≠ (xfer1 0#4).epoch := by decide +kernel
def wLoss : State := live.to (liveDev.modF 1 fun f => { f with ents := [(0, ent16 0)], losses := [{ ld := 0, xfers := [(16, 0, 1#4, false)] }] })
def wMove : State := live.to (liveDev.modMs 1 fun x => { x with filt := { x.filt with moving := true }, wharf := { x.wharf with fenced := true } })
theorem test_witness_losses : wLoss.dev.atRest = true ∧ (wLoss.dev.ms 1).filt.losses = [{ ld := 0, xfers := [(16, 0, 1#4, false)] }] ∧ (wLoss.dev.ms 1).filt.handoffs = [] ∧
    (wLoss.dev.ms 1).filt.fwds = [] ∧ wLoss.dev.fent 1 16 = some (.way 1 0, ent16 0) ∧ (ent16 0).ls 0 = 2 ∧ (ent16 0).owner.val = 0 ∧ wMove.dev.atRest = true ∧
    (wMove.dev.ms 1).filt.moving = true ∧ (wMove.dev.ms (partner 1)).wharf.fenced = false ∧ (wMove.dev.ms 1).filt.ents = [] := by decide +kernel
/-- An inactive device in which record 5 is in state `st` and, when `two`, another record of its share group holds its block too. -/
def wRec (st : ExtSt) (two : Bool) : State := live.to { liveDev with active := false, ext := { recs :=
  [(5, { base := 7, nblk1 := 0, ld := 2, shared := two, st, seq := 3#16, share := 1 })] ++ if two then [(6, { base := 7, nblk1 := 0, ld := 3, shared := true, st := .granted, seq := 4#16, share := 1 })] else [] } }
theorem test_witness_records : (wRec .offered true).dev.atRest = true ∧ (wRec .offered true).dev.active = false ∧ ((wRec .offered true).dev.xrec 5).st = .offered ∧
    (((wRec .offered true).dev.xrec 5).blocks.all fun b => (wRec .offered true).dev.heldBut 5 b) = true ∧ (wRec .releasing true).dev.atRest = true ∧
    (wRec .releasing true).dev.linkLive 2 = false ∧ (wRec .releasing false).dev.atRest = true ∧
    (((wRec .releasing false).dev.xrec 5).blocks.all fun b => (wRec .releasing false).dev.heldBut 5 b) = false ∧ (wRec .reclaiming true).dev.atRest = true ∧
    (wRec .reclaiming false).dev.atRest = true ∧ (∀ e ∈ (wRec .reclaiming false).dev.pm.ents, pageBlock e.1 ≠ 7) ∧ (∀ x ∈ (wRec .reclaiming false).dev.slc, x.2.sl.roots = []) ∧
    (wRec .reclaiming false).dev.heldBut 5 7 = false := by decide +kernel
def wScr : State := live.to liveDev
theorem test_witness_scratch : wScr.dev.atRest = true ∧ wScr.dev.noInj = true ∧ wScr.dev.coreOn = true ∧ 0xFC0 < 2 ^ 27 ∧ 0xFC0 % 4096 + 64 ≤ 4096 ∧
    wScr.dev.allowed (scrAgent .syust) (0x80000000 + 0xFC0) 64 false = true := by decide +kernel
def wConv : State := live.to { liveDev with mg := { liveDev.mg with convTo := some 3 } }
def rop : RangeOp := { id := 4, op := .clean, lo := 0, hi := 63 }
def wRange : State := live.to (liveDev.modW 1 fun w => { w with ranges := [rop] })
def wDrain : State := live.to (liveDev.modW 1 fun w => (w.put (lineAt 0) { st := .clean, addr := 64 }).put 5 {} |> fun w => { w with draining := true })
theorem test_witness_maintenance : wConv.dev.atRest = true ∧ wConv.dev.mg.convTo = some 3 ∧ (∀ k ∈ wConv.dev.units, (wConv.dev.ms k).wharf.lines = [] ∧ (wConv.dev.ms k).wharf.scratch = [] ∧
    (wConv.dev.ms k).wharf.scrPois = []) ∧ wRange.dev.atRest = true ∧ (wRange.dev.ms 1).wharf.ranges = [rop] ∧ (wRange.dev.ms 1).wharf.rangeQ = [] ∧ (wRange.dev.ms 1).wharf.lines = [] ∧
    (wRange.dev.ms 1).wharf.qbuf = [] ∧ (wRange.dev.ms 1).held = [] ∧ wDrain.dev.atRest = true ∧ (wDrain.dev.ms 1).wharf.draining = true ∧
    (∀ x ∈ (wDrain.dev.ms 1).wharf.lines, x.2.st.isDirty = false) := by decide +kernel
def nodeL : SLine := { blk := 0, lvl := 3, idx := 0, node := List.replicate 8 (1#64, 2#64), dirty := true }
def wNode : State := live.to (liveDev.modMs 1 fun x => { x with sl := { x.sl with cache := [nodeL], roots := [(0, { st := 2#2, chA := 1, frA := 10, chB := 9, frB := 11, top := 3, ctr := 6#64 })] } })
theorem test_witness_nodeClean : wNode.dev.atRest = true ∧ (wNode.dev.ms 1).sl.cache = [nodeL] ∧ nodeL.dirty = true ∧ nodeL.lvl = (wNode.dev.root 1 0).top ∧
    Tbl.rises (wNode.dev.ms 1).sl.roots = true ∧ wNode.dev.chOk 1 = true ∧ wNode.dev.chOk 9 = true := by decide +kernel
def awaitRec (sld : Bool) : CtxRec := { st := .awaiting, sld, imported := true, gen := 4#8, mask := 1#16 }
def wImp : State := wSess.to { wSess.dev with ctx := [(0, { st := .enabled, gen := 1#8 }), (5, awaitRec false), (6, awaitRec true), (7, { awaitRec false with mask := 2#16 })] }
theorem test_witness_keyImport : wImp.dev.atRest = true ∧ wImp.dev.tlhBusy = false ∧ wImp.dev.hasSession 0 = true ∧ live.dev.hasSession 0 = false ∧ (wImp.dev.ctxOf 5).st = .awaiting ∧
    (wImp.dev.ctxOf 5).mask.getLsbD 0 = true ∧ (wImp.dev.ctxOf 5).sld = false ∧ (wImp.dev.ctxOf 6).sld = true ∧ (wImp.dev.ctxOf 7).mask.getLsbD 0 = false ∧ (wImp.dev.ctxOf 1).st ≠ .awaiting ∧
    (live.to { liveDev with tlhBusy := true }).dev.atRest = true := by decide +kernel

/-- The active device with channel 1 changed. -/
def onCh (f : Chan → Chan) : State := live.to (({ liveDev with fmnBusy := true } : Dev).modCh 1 f)
def wCh : State := onCh fun x => { x with pollFail := 1, postponed := [(3, 3)], raa := [(3, 40)], pop := { x.pop with rfm := some 32 }, openRow := [(3, some 9)], rtrk := [(3, { ents := [(0, 9, 5)] })] }
theorem test_witness_refresh : wCh.dev.atRest = true ∧ wCh.dev.on 1 = true ∧ (wCh.dev.ch 1).pop.dpc ≠ 0 ∧ 1 ≤ (wCh.dev.ch 1).pollFail ∧ (wCh.dev.ch 1).usable = true ∧
    tget 0 (wCh.dev.ch 1).postponed 3 < 4 ∧ (wCh.dev.ch 1).owed = [] ∧ (wCh.dev.ch 1).pop.rfm = some 32 ∧ (wCh.dev.ch 1).rfmEn = true ∧ 32 ≤ tget 0 (wCh.dev.ch 1).raa 3 := by decide +kernel
def entQ (q : Nat) : SEntry := { quad := q, home := 1, off := 64, len := 256, cls := 1, low := false }
def wUp (r : Bool) : State := onCh fun x => { x with sched := [entQ 16, entQ 32], repause := r, scrub := x.bytes - 64 }
theorem test_witness_channelUpkeep : (wUp false).dev.atRest = true ∧ ((wUp false).dev.ch 1).usable = true ∧ (wUp false).dev.fmnBusy = true ∧ (wUp false).dev.noInj = true ∧
    ((wUp false).dev.ch 1).repause = false ∧ (wUp true).dev.atRest = true ∧ ((wUp true).dev.ch 1).repause = true := by decide +kernel
def row9 : RowAddr := { bank := 3, row := 9 }
def wSoft : State := onCh fun x => { x with queue := [row9], openRow := [(3, some 9)] }
theorem test_witness_softRepair : wSoft.dev.atRest = true ∧ (wSoft.dev.ch 1).usable = true ∧ (wSoft.dev.ch 1).queue = row9 :: [] ∧ row9 ∉ (wSoft.dev.ch 1).noRepair ∧
    tget 0 (wSoft.dev.ch 1).spprUsed (row9.bank / 4) < (wSoft.dev.ch 1).pop.sppr := by decide +kernel
def wQos : State := live.to { liveDev with qos := { liveDev.qos with pend := [(2, some { gw := 16 })], slots := [(3, 5)], deps := [(1, 1)] } }
def recp (g : Nat) : Receipt := { share := .q, unit := 1, cls := 2, got := g, demand := true }
theorem test_witness_window : wQos.dev.atRest = true ∧ wQos.dev.qos.dwNext = wQos.dev.qos.dw ∧ wQos.dev.qos.dqNext = wQos.dev.qos.dq ∧ wQos.dev.qos.diNext = wQos.dev.qos.di ∧
    wQos.dev.qos.lastEv = [] := by decide +kernel

/-- Internal address of the scratch window as SRC or DST names it. -/
def scr (o : Nat) : Nat := 2 ^ 62 + 0x80000000 + o
/-- The 64 bytes of a descriptor. -/
def descBytes (op irq len src dst arg : Nat) : List Byte := le 8 (1 + op * 2 + irq * 2 ^ 8 + len * 2 ^ 32) ++ le 8 src ++ le 8 dst ++ le 8 arg ++ zeros 32
def descOf (bs : List Byte) : Desc := (parseDesc (ofBytes 512 bs)).2
def lineA : Line := 0x1234#512
/-- The active device with channel BG16 changed and `bs` written at the start of the scratch window and `lineA` at 1000h of it. -/
def onBg (bs : List Byte) (f : BrgCh → BrgCh) : State :=
  live.to ((((liveDev.intWrite .bs 0x80000000 bs).2).intWrite .bs 0x80001000 (bytesOf 64 lineA)).2.modBg 16 fun b =>
    f { b with space := 1, base := 0x80000000, enable := true, irqen := true, st := .running, tail := 1#17 })
def n16 : BgNo := 16
def wBg (f : BrgCh → BrgCh) : State := onBg [] f
theorem test_witness_bargeControl : (wBg fun b => { b with st := .idle, tail := 0#17 }).dev.atRest = true ∧ (wBg id).dev.bargeOn1 = true ∧
    (let b := (wBg fun b => { b with st := .idle, tail := 0#17 }).dev.bg n16; b.st = .idle ∧ 8#17 ≠ b.head ∧ (8#17 - b.head).toNat ≤ b.ringSize ∧ b.cur = none) ∧
    (let b := (wBg fun b => { b with cur := some {op := 1, len := 64} }).dev.bg n16; b.st = .running ∧ b.cur ≠ none) ∧
    (let b := (wBg fun b => { b with st := .halted }).dev.bg n16; b.st = .halted ∧ b.enable = true ∧ b.stop = false) ∧
    (let b := (wBg fun b => { b with st := .disabled, enable := false }).dev.bg n16; b.st = .disabled ∧ b.bad = false ∧ b.stop = false ∧ b.owner = .syust) ∧
    (let b := (wBg fun b => { b with prog := { b.prog with err := some (scr 0), retry := 0 } }).dev.bg n16; b.prog.err = some (scr 0) ∧ spaceOf (2 ^ 63) ≠ 1) := by decide +kernel
def hostCh : State := live.to (liveDev.modBg 0 fun b => { b with hostok := true })
def busErr : State := wBg fun b => { b with prog := { b.prog with err := some (2 ^ 63 + 64) } }
theorem test_witness_bargeHost : hostCh.dev.atRest = true ∧ (hostCh.dev.bg 0).owner = .host ∧ (hostCh.dev.bg 0).hostok = true ∧ hostCh.dev.on 0 = true ∧ 0 % 2 = 0 ∧ (hostCh.dev.bg 0).st = .disabled ∧
    (hostCh.dev.bg 0).bad = false ∧ (hostCh.dev.bg 0).stop = false ∧ busErr.dev.atRest = true ∧ (busErr.dev.bg 16).prog.err = some (2 ^ 63 + 64) ∧ spaceOf (2 ^ 63 + 64) ≠ 1 ∧
    (busErr.dev.bg 16).prog.retry < busErr.dev.p 0x1B0 := by decide +kernel
def packBytes : List Byte := descBytes 4 1 1 0x1000 0 0
def wFetch (bs : List Byte) : State := onBg bs id
theorem test_witness_fetch : (wFetch packBytes).dev.atRest = true ∧ ((wFetch packBytes).dev.bg 16).owner = .syust ∧ ((wFetch packBytes).dev.bg 16).space = 1 ∧
    spaceOf ((wFetch packBytes).dev.bg 16).slotAddr = 1 ∧ ((wFetch packBytes).dev.bg 16).cur = none ∧ ((wFetch packBytes).dev.bg 16).head ≠ ((wFetch packBytes).dev.bg 16).tail ∧
    (wFetch packBytes).dev.intRead .bs (addrIn ((wFetch packBytes).dev.bg 16).slotAddr) 64 .ok = (some (packBytes, false), (wFetch packBytes).dev) ∧
    (parseDesc (ofBytes 512 packBytes)).1 = true ∧ (wFetch packBytes).dev.descOk .syust (descOf packBytes) = true ∧ isByteOp (descOf packBytes).op = false ∧
    (parseDesc (ofBytes 512 (zeros 64))).1 = false ∧ (wFetch packBytes).dev.descOk .syust (descOf (descBytes 0xC 1 1 0x1000 0 0)) = false := by decide +kernel
def wComplete : State := onBg packBytes fun b => { b with cur := some (descOf packBytes), prog := { fin := true, code := 0x18 } }
theorem test_witness_complete : wComplete.dev.atRest = true ∧ (wComplete.dev.bg 16).cur = some (descOf packBytes) ∧ (wComplete.dev.bg 16).prog.fin = true ∧ (wComplete.dev.bg 16).prog.code ≠ 0x20 ∧
    (wComplete.dev.intWrite .bs (0x80000000 + 48) ((wComplete.dev.bg 16).prog.words (isByteOp (descOf packBytes).op))).1 = true ∧
    ((wComplete.dev.intWrite .bs (0x80000000 + 48) ((wComplete.dev.bg 16).prog.words (isByteOp (descOf packBytes).op))).2.intWrite .bs 0x80000000
      (bytesOf 8 (BitVec.ofNat 64 ((descOf packBytes).w0 / 2 * 2)))).1 = true := by decide +kernel
def cur16 (bs : List Byte) (f : BrgCh → BrgCh := id) : State := onBg bs fun b => f { b with cur := some (descOf bs) }
def copyBytes : List Byte := descBytes 1 0 64 (scr 0x1000) (scr 0x2000) 0
def fillBs : List Byte := descBytes 3 0 64 (scr 0x2000) 0 0xAABBCCDD
def zeroBs : List Byte := descBytes 2 0 4096 0x1000 0 0
def dictBs (op : Nat) : List Byte := descBytes op 0 64 (scr 0x1000) (scr 0x2000) 64
theorem test_witness_copy : (cur16 copyBytes).dev.atRest = true ∧ (cur16 copyBytes).dev.noInj = true ∧ (cur16 copyBytes).dev.outranked 16 = false ∧ ((cur16 copyBytes).dev.bg 16).owner = .syust ∧
    ((cur16 copyBytes).dev.bg 16).st = .running ∧ ((cur16 copyBytes).dev.bg 16).cur = some (descOf copyBytes) ∧ (descOf copyBytes).op = 1 ∧ (descOf copyBytes).len = 64 ∧
    ((cur16 copyBytes).dev.bg 16).prog = {} ∧ (descOf copyBytes).down = false ∧ spaceOf (descOf copyBytes).src = 1 ∧ (descOf copyBytes).src % 64 = 0 ∧
    (cur16 copyBytes).dev.intRead .bs (addrIn (descOf copyBytes).src) 64 .ok = (some (bytesOf 64 lineA, false), (cur16 copyBytes).dev) ∧ spaceOf (descOf copyBytes).dst = 1 ∧
    (descOf copyBytes).dst % 64 = 0 ∧ ((cur16 copyBytes).dev.intWrite .bs (addrIn (descOf copyBytes).dst) (bytesOf 64 lineA)).1 = true := by decide +kernel
theorem test_witness_fill : (cur16 fillBs).dev.atRest = true ∧ (descOf fillBs).op = 3 ∧ (descOf fillBs).len = 64 ∧ spaceOf (descOf fillBs).src = 1 ∧ (descOf fillBs).src % 64 = 0 ∧
    ((cur16 fillBs).dev.intWrite .bs (addrIn (descOf fillBs).src) (fillBytes (descOf fillBs) (descOf fillBs).src 64)).1 = true := by decide +kernel
/-- Page 1 stored whole in berth 5 of CH01, for the page operations of BG16. -/
def plainBg (bs : List Byte) : State := live.to (((plainDev.modMs 1 fun x => { x with sl := { x.sl with keys := [] } }).modBg 16 fun b =>
  { b with space := 1, base := 0x80000000, enable := true, st := .running, tail := 1#17, cur := some (descOf bs) }))
theorem test_witness_zero : (plainBg zeroBs).dev.atRest = true ∧ (plainBg zeroBs).dev.noInj = true ∧ (plainBg zeroBs).dev.outranked 16 = false ∧ (descOf zeroBs).op = 2 ∧ (descOf zeroBs).len = 4096 ∧
    spaceOf (descOf zeroBs).src = 0 ∧ (descOf zeroBs).src % 4096 = 0 ∧ (plainBg zeroBs).dev.homeOf 1 = 1 ∧ (plainBg zeroBs).dev.plainP 1 1 = true ∧ (plainBg zeroBs).dev.ctxAllows .syust 1 true = true ∧
    ((plainBg zeroBs).dev.ent 1).pin = false ∧ ((plainBg zeroBs).dev.ms 1).misses = [] ∧ ((plainBg zeroBs).dev.ms 1).filt = {} ∧ ((plainBg zeroBs).dev.ms 1).held = [] ∧
    ((plainBg zeroBs).dev.ms 1).wharf.qbuf = [] ∧ (((plainBg zeroBs).dev.ms 1).wharf.lines.all fun k => decide (k.2.addr / 64 ≠ 1)) = true := by decide +kernel
def wDict (op : Nat) (p : BProg) : State := cur16 (dictBs op) fun b => { b with prog := p }
def dictIn : BProg := { begun := true, pos := 1, buf := [(scr 0x1000 / 64, lineA, false)] }
def dictOut : BProg := { begun := true, pos := 0, out := some (bytesOf 64 lineA) }
theorem test_witness_dict : (wDict 0xA {}).dev.atRest = true ∧ (descOf (dictBs 0xA)).op = 0xA ∧ (descOf (dictBs 0xB)).op = 0xB ∧ (wDict 0xA {}).dev.dictBusy 16 < 2 ∧ (descOf (dictBs 0xA)).len = 64 ∧
    (wDict 0xA {}).dev.intRead .bs (addrIn (descOf (dictBs 0xA)).src) 64 .ok = (some (bytesOf 64 lineA, false), (wDict 0xA {}).dev) ∧ (wDict 0xB dictIn).dev.atRest = true ∧
    ((wDict 0xB dictIn).dev.bg 16).prog = dictIn ∧ (descOf (dictBs 0xB)).src % 64 = 0 ∧ (wDict 0xB dictOut).dev.atRest = true ∧ dictOut.begun = true ∧ dictOut.fin = false ∧ dictOut.err = none ∧
    dictOut.code ≠ 1 ∧ (bytesOf 64 lineA).length = 64 ∧ spaceOf (descOf (dictBs 0xB)).dst = 1 ∧ (descOf (dictBs 0xB)).dst % 64 = 0 ∧
    ((wDict 0xB dictOut).dev.intWrite .bs (addrIn (descOf (dictBs 0xB)).dst) (bytesOf 64 lineA)).1 = true := by decide +kernel

/-- Page 1 stored whole with every quad poisoned, in berth 5 of CH01; BG16 works on the descriptor `bs`. -/
def poisBg (bs : List Byte) : State := (plainBg bs).to ((plainBg bs).dev.setEnt 1 { form := .p, chan := 1, frame := 5, gm1 := 7, qpois := 0xFFFF#16 })
def bgRun (s : State) : Dev := s.dev.modBg n16 fun y => { y with st := .running, prog := { begun := true } }
def pageBs (op arg : Nat) : List Byte := descBytes op 0 1 0x1000 0 arg
theorem test_witness_pageOps : (poisBg (pageBs 4 0)).dev.bargeOn1 = true ∧ (poisBg (pageBs 4 0)).dev.noInj = true ∧ ((poisBg (pageBs 4 0)).dev.bg 16).prog = {} ∧
    (poisBg (pageBs 4 0)).dev.outranked 16 = false ∧ (poisBg (pageBs 4 0)).dev.homeOf 1 = 1 ∧ (poisBg (pageBs 4 0)).dev.placeFree 16 1 = true ∧ (poisBg (pageBs 4 0)).dev.blockLive 0 = true ∧
    ((poisBg (pageBs 4 0)).dev.ms 1).noCmp = false ∧ (poisBg (pageBs 4 0)).dev.plainP 1 1 = true ∧ (∀ k ∈ ((bgRun (poisBg (pageBs 4 0))).readPage 1 1 {} (some ((poisBg (pageBs 4 0)).dev.bgCls 16))).1.2, k = 0) ∧
    (((bgRun (poisBg (pageBs 4 0))).readPage 1 1 {} (some ((poisBg (pageBs 4 0)).dev.bgCls 16))).2.ent 1) = (poisBg (pageBs 4 0)).dev.ent 1 ∧
    (((bgRun (poisBg (pageBs 9 0))).readOthers 1 1 [] {} (some 63)).2.ent 1) = (poisBg (pageBs 9 0)).dev.ent 1 ∧ (poisBg (pageBs 7 2)).dev.placeable .berth false 2 = true ∧
    (poisBg (pageBs 7 2)).dev.placeable .berth true 2 = true ∧ ((poisBg (pageBs 7 2)).dev.ent 1).gm1 = 7 ∧ (descOf (pageBs 4 0)).tcond = false ∧ (descOf (pageBs 7 2)).retire = false ∧
    (descOf (descBytes 0x107 0 1 0x1000 0 2)).op = 7 ∧ (descOf (descBytes 0x107 0 1 0x1000 0 2)).retire = true := by decide +kernel
def wRekey : State := let s := poisBg (pageBs 8 3); s.to { s.dev.setEnt 1 { form := .z } with ctx := [(0, { st := .enabled, gen := 1#8 }), (3, { st := .enabled })] }
def stow1 : Stow := { codes := List.replicate 16 0, gm1 := 0, page := 1, restows := 0 }
def wUnpack : State := let s := poisBg (pageBs 5 0); s.to { s.dev.setEnt 1 { form := .k, chan := 1, frame := 5, gm1 := 0 } with mem := memPut [] (chBase 1 + 5 * 4096) stow1.bytes }
theorem test_witness_rekey : (wRekey.dev.ent 1).form = .z ∧ wRekey.dev.bargeOn1 = true ∧ wRekey.dev.noInj = true ∧ wRekey.dev.placeFree 16 1 = true ∧ ((wRekey.dev.ms 1).pmcFind 1).isSome = true ∧
    (descOf (pageBs 8 3)).op = 8 ∧ (descOf (pageBs 8 3)).arg = 3 ∧ (tget {} wRekey.dev.ctx 3).st = .enabled ∧ (tget {} wRekey.dev.ctx 3).sld = false ∧ (wRekey.dev.ent 1).sld = false := by decide +kernel
theorem test_witness_unpack : (descOf (pageBs 5 0)).op = 5 ∧ (wUnpack.dev.ent 1).form = .k ∧ wUnpack.dev.chOk 1 = true ∧ ((wUnpack.dev.ms 1).dec0F && (wUnpack.dev.ms 1).dec1F) = false ∧
    ((wUnpack.dev.ms 1).pmcFind 1).isSome = true ∧ ((bgRun wUnpack).header 1 1 {} (some 63)).1 = some stow1 ∧ (((bgRun wUnpack).header 1 1 {} (some 63)).2.ent 1) = wUnpack.dev.ent 1 ∧ (wUnpack.dev.ent 1).sld = false ∧
    ((((bgRun wUnpack).header 1 1 {} (some 63)).2.readOthers 1 1 [] {} (some 63)).2.ent 1) = wUnpack.dev.ent 1 ∧
    ((((bgRun wUnpack).header 1 1 {} (some 63)).2.readOthers 1 1 [] {} (some 63)).2.room 1 (wUnpack.dev.ent 1).held .berth none).1 = .inr 1 := by decide +kernel

def ev (sev : Nat) : Event := { kind := .memoryActive, sev, handle := 1 }
/-- The active device with event logs, poison lists, a feature and a scan result. -/
def mailDev : Dev := { liveDev with logs := [(0, { evs := [ev 1, ev 2], ovr := [0, 3, 0, 0, 0], poison := [(0x1000, 256, true)] })], pool := { evs := [ev 4] }
                                    mg := { liveDev.mg with feats := [(1, [5#8])], scans := [(0, [(4096, 64)]), (32, [(8192, 64)])] }, time := 77 }
def wMail : State := live.to mailDev
def tenant : CmdPath := .primary 0
theorem test_witness_standardReads : wMail.dev.atRest = true ∧ wMail.dev.takes (pathNo tenant) = true ∧ wMail.dev.role (pathNo tenant) = .tenant 0 ∧ wMail.dev.takes (pathNo .i3c) = true ∧
    wMail.dev.role (pathNo .i3c) = .owner ∧ 32 ≤ pathNo .i3c ∧ wMail.dev.issuerHas (.tenant 0) 0 64 = true ∧ (0x40#64).toNat % 64 = 0 ∧ wMail.dev.on 15 = true := by decide +kernel
def wMailBg (op : BgOp) : State := live.to { mailDev with mg := { mailDev.mg with paths := [(32, { bg := some { opcode := 0xC407, op } })] } }
def refs7 : State := live.to { mailDev with ext := { mailDev.ext with recs := [(0, { grantTo 0 0 with tag := 7#128 })] } }
theorem test_witness_standardSets : wMail.dev.works = true ∧ (∀ c ∈ cmdTable, c.opcode ≠ (0xFFFF#16).toNat) ∧
    (((cmdTable.find? fun c => decide (c.opcode = (0x0300#16).toNat)).map fun c => c.permits (.tenant 0) 0) = some true) ∧
    ((cmdTable.find? fun c => decide (c.opcode = (0x0301#16).toNat)).elim false fun c => !c.permits (.tenant 0) 0) = true ∧ (wMailBg (.scan 5 3)).dev.atRest = true ∧
    ((wMailBg (.scan 5 3)).dev.path 32).bg = some { opcode := 0xC407, op := .scan 5 3 } ∧ (BgOp.scan 5 3).aborts = true ∧ (wMail.dev.path 0).bg = none ∧ wMail.dev.injected 0 < 16 ∧
    (∀ v ∈ [0, 1, 2, 3, 3], v < 4) ∧ (8#8).toNat = 8 ∧ (16#8).toNat ≤ 16 ∧ wMail.dev.tele.sync = false ∧ (0x200000000000#64).toNat = wMail.dev.regionBlocks * 2 ^ 28 ∧ (1#8).toNat < 2 ∧
    (wMail.dev.ch 1).st ≠ .absent ∧ 65535 < (wMail.dev.ch 1).pop.rows ∧ wMail.dev.usedFrames 1 = [] ∧ (refs7.dev.recList.any fun r => decide (r.2.tag = 7#128)) = true ∧
    7#128 ∉ refs7.dev.ext.refs ∧ refs7.dev.atRest = true := by decide +kernel
def wFw : State := live.to { mailDev with boot := { mailDev.boot with bank := 1 }, flash := mailDev.flash.setDir fun y => { y with active := 1 } }
theorem test_witness_firmware : wFw.dev.atRest = true ∧ wFw.dev.takes 32 = true ∧ 1 ≤ (1#8).toNat ∧ wFw.dev.spareBank ((1#8).toNat - 1) = true ∧ (wFw.dev.path 32).bg = none ∧ wFw.dev.tlhBusy = false ∧
    wFw.dev.tlh.reqs.length < 16 ∧ wFw.dev.fmnUp = true ∧ wFw.dev.tlh.st ≠ .recovery ∧ [0, 1].find? wFw.dev.spareBank = some 0 := by decide +kernel
def wClear : State := live.to (mailDev.modW 1 fun w => w.put (lineAt 0) { st := .dirty, addr := 64, data := 5#512, pois := true, age := 3, cls := 2 })
theorem test_witness_media : wClear.dev.atRest = true ∧ wClear.dev.noInj = true ∧ wClear.dev.works = true ∧ wClear.dev.takes 0 = true ∧ wClear.dev.issuerHas (.tenant 0) 0x1000 64 = true ∧
    wClear.dev.sharedLine 64 = false ∧ wClear.dev.homeOf 1 = 1 ∧ (wClear.dev.ms 1).wharf.find 64 = some (lineAt 0) ∧ ((wClear.dev.ms 1).wharf.get (lineAt 0)).st = .dirty ∧
    (wClear.dev.ms 1).misses = [] ∧ (live.to { mailDev with ext := {} }).dev.atRest = true ∧ (live.to { mailDev with ext := {} }).dev.works = true ∧
    (∀ x ∈ mailDev.mg.paths, x.2.bg = none) ∧ (wMailBg .sanitize).dev.fmnBusy = false ∧ (wMailBg (.maint 4)).dev.rangeActive 4 = false ∧ (∀ x ∈ (wMailBg (.scan 5 3)).dev.pm.ents, ¬ (5 ≤ x.1 ∧ x.1 < 8)) := by decide +kernel
/-- Landing 2 with one record offered and one granted, block 8 staged for nobody. -/
def wCap : State := live.to { mailDev with ext := { recs := [(3, { base := 7, nblk1 := 0, ld := 0, st := .offered, seq := 9#16 }), (4, { base := 6, nblk1 := 0, ld := 0, st := .granted, seq := 2#16 })]
                                                    offers := [{ ld := 0, recs := [3], limit := 1000 }] } }
def add8 : DcReq := { ld := 1, tag := 5#128, exts := [(8 * 2 ^ 28, 2 ^ 28)] }
def rel6 : DcReq := { ld := 0, exts := [(6 * 2 ^ 28, 2 ^ 28)] }
def stage9 : List Byte := le 4 9 ++ le 4 0 ++ le 2 0 ++ le 1 3 ++ le 1 2 ++ le 4 0
def withdraw3 : List Byte := le 2 3 ++ le 2 9 ++ le 4 0
theorem test_witness_capacity : wCap.dev.atRest = true ∧ wCap.dev.takes 0 = true ∧ wCap.dev.recOf 0 .offered (7 * 2 ^ 28, 2 ^ 28) = some 3 ∧ wCap.dev.ext.offers = [{ ld := 0, recs := [3], limit := 1000 }] ∧
    wCap.dev.recOf 0 .granted (6 * 2 ^ 28, 2 ^ 28) = some 4 ∧ (wCap.dev.xrec 4).shared = false ∧ wCap.dev.takes 32 = true ∧ wCap.dev.works = true ∧ add8.ld < 16 ∧
    wCap.dev.extentsOk add8.exts = true ∧ wCap.dev.addChecks 1 5#128 false (blocksOf add8.exts) = none ∧ wCap.dev.extentsOk rel6.exts = true ∧
    wCap.dev.recOf 0 .granted (6 * 2 ^ 28, 2 ^ 28) = some 4 ∧ stage9.length = 16 ∧ fld stage9 0 4 + (fld stage9 4 4 + 1) ≤ wCap.dev.regionBlocks ∧ fld stage9 8 2 < 16384 ∧ fld stage9 10 1 < 4 ∧
    fld stage9 11 1 < 16 ∧ wCap.dev.on (fld stage9 11 1) = true ∧ fld stage9 12 4 = 0 ∧ wCap.dev.ext.staged = [] ∧ withdraw3.length = 8 ∧ fld withdraw3 0 2 < 32768 ∧ fld withdraw3 4 4 = 0 ∧
    fld withdraw3 2 2 = (wCap.dev.xrec (fld withdraw3 0 2)).seq.toNat ∧ (wCap.dev.xrec (fld withdraw3 0 2)).st = .offered := by decide +kernel

def yExt : List Byte := le 2 0 ++ le 2 10 ++ le 1 1 ++ le 1 0xFF ++ le 2 0
def yCtx : List Byte := le 2 0 ++ le 2 10 ++ zeros 4
def yCls : List Byte := le 1 0 ++ le 1 3 ++ zeros 6
def yPar : List Byte := le 2 0x171 ++ le 2 5 ++ zeros 4
def yMan : List Byte := le 4 0 ++ zeros 4
def yMap : List Byte := le 8 0 ++ le 4 2 ++ zeros 4
def yCap : List Byte := zeros 8
def yFlt : List Byte := le 4 0 ++ le 2 5 ++ zeros 2
def yLog : List Byte := le 4 0 ++ le 4 1000
theorem test_witness_rhaboindReads : wMail.dev.atRest = true ∧ wMail.dev.takes 32 = true ∧ wMail.dev.role 32 = .owner ∧ wMail.dev.works = true ∧
    yExt.length = 8 ∧ fld yExt 0 2 < 32768 ∧ 1 ≤ fld yExt 2 2 ∧ fld yExt 2 2 ≤ 2047 ∧ fld yExt 4 1 < 2 ∧ fld yExt 6 2 = 0 ∧ fld yExt 5 1 = 0xFF ∧ fld yCtx 0 2 < 16384 ∧
    1 ≤ fld yCtx 2 2 ∧ fld yCtx 4 4 = 0 ∧ 1 ≤ fld yCls 1 1 ∧ fld yCls 0 1 + fld yCls 1 1 ≤ 64 ∧ fld yCls 2 6 = 0 ∧ fld yPar 0 2 + fld yPar 2 2 ≤ 2816 ∧ fld yPar 4 4 = 0 ∧
    wMail.dev.mg.gen + 1 < 2 ^ 32 ∧ fld yMap 0 8 % 4096 = 0 ∧ 1 ≤ fld yMap 8 4 ∧ fld yMap 12 4 = 0 ∧ wMail.dev.rangeIn (fld yMap 0 8) (fld yMap 8 4 * 4096) wMail.dev.blockUsed = true ∧
    yCap.length = 8 ∧ fld yCap 1 7 = 0 ∧ fld yFlt 6 2 = 0 ∧ 1 ≤ fld yFlt 4 2 ∧ fld yLog 4 4 ≤ 65528 := by decide +kernel
def yPin : List Byte := le 8 0x1000 ++ le 4 1 ++ le 1 1 ++ zeros 3
def yWpin : List Byte := le 8 0x1000 ++ le 4 64 ++ le 1 1 ++ zeros 3
def yMaint (op : Nat) : List Byte := le 8 0x1000 ++ le 8 0x1000 ++ le 1 op ++ zeros 7
def yAud : List Byte := le 1 0xFF ++ le 1 1 ++ zeros 6
def yHq (v : Nat) : List Byte := le 1 3 ++ le 1 v ++ zeros 6
def wHq : State := live.to (mailDev.modBg 3 fun b => { b with enable := true })
/-- The answer to a pin of one line: the pinned count 1, then the mask. -/
def pinAns : Ans := .good (le 4 1 ++ zeros 4 ++ le 8 0xFFFFFFFFFFFFFFFF)
theorem test_witness_tiering : wMail.dev.pm.sweep = false ∧ (∀ k < 8, (wMail.dev.pilot k).run = none) ∧ yPin.length = 16 ∧ fld yPin 0 8 % 4096 = 0 ∧ fld yPin 8 4 = 1 ∧ fld yPin 12 1 < 2 ∧
    fld yPin 13 3 = 0 ∧ wMail.dev.rangeIn (fld yPin 0 8) 4096 wMail.dev.blockUsed = true ∧ (wMail.dev.ent 1).pin = false ∧ fld yWpin 8 4 = 64 ∧ fld yWpin 12 1 = 1 ∧ fld yWpin 13 3 = 0 ∧
    wMail.dev.rangeIn (fld yWpin 0 8) 64 wMail.dev.blockUsed = true ∧ wMail.dev.notGranted (fld yWpin 0 8) 64 = none ∧ (wMail.dev.pin (fld yWpin 0 8 / 64)).1 = true := by decide +kernel
theorem test_witness_tieringMore : (yMaint 1).length = 24 ∧ fld (yMaint 1) 8 8 = 4096 ∧ fld (yMaint 1) 17 7 = 0 ∧ fld (yMaint 1) 16 1 = 1 ∧ fld (yMaint 2) 16 1 = 2 ∧
    wMail.dev.rangeIn 0x1000 4096 wMail.dev.blockUsed = true ∧ wMail.dev.notGranted 0x1000 4096 = none ∧ (wMail.dev.path 32).bg = none ∧ (∀ x ∈ wMail.dev.slc, x.2.filt = {}) ∧
    yAud.length = 8 ∧ fld yAud 0 1 = 0xFF ∧ fld yAud 1 1 < 2 ∧ fld yAud 2 6 = 0 ∧ (∀ x ∈ wMail.dev.mg.paths, x.2.bg = none) ∧ fld (yHq 1) 0 1 = 3 ∧ wMail.dev.on 3 = true ∧
    fld (yHq 1) 1 1 = 1 ∧ fld (yHq 0) 1 1 = 0 ∧ fld (yHq 0) 2 6 = 0 ∧ (wHq.dev.bg 3).enable = true ∧ (wHq.dev.bg 3).cur = none ∧ wHq.dev.atRest = true ∧ wHq.dev.works = true := by decide +kernel

def setDev : Dev := { mailDev with ctx := [(0, { st := .enabled, gen := 1#8 }), (6, { st := .enabled, gen := 1#8 })], prm := [(0x1E2, some 1)]
                                   lko := { mailDev.lko with next := 5, recs := [{ seq := 3, src := 0x181, arr := .deferred, fin := .deferred, time := 5, path := {}, logged := true }] }
                                   plog := { mailDev.plog with ents := [{ lseq := 0, kind := 0, frec := some { seq := 2, src := 3, arr := .deferred, fin := .deferred, time := 4, path := {}, logged := true } }] } }
def wCfg : State := live.to setDev
def yEn (c sld m : Nat) : List Byte := le 2 c ++ le 1 sld ++ zeros 1 ++ le 2 m ++ zeros 2
def yDis : List Byte := le 2 6 ++ zeros 6
def yRek : List Byte := le 2 0 ++ le 2 6 ++ zeros 4
def ySeal : List Byte := le 1 1 ++ le 1 5 ++ zeros 2 ++ le 4 1 ++ zeros 8
def wRoot : State := live.to (setDev.modSeal 1 fun x => { x with roots := [(1, { st := 2#2, top := 5, ctr := 9#64, mac := 8#64 })], hw := 40#64 })
def rec2 : ClassRec := { gw := 100, gi := 64 }
def yRec : List Byte := le 8 2 ++ rec2.enc
def yLab : List Byte := le 1 0 ++ le 1 0 ++ le 2 1 ++ zeros 4 ++ le 1 0x83 ++ zeros 15
def ySetp : List Byte := le 2 1 ++ zeros 6 ++ le 2 0x160 ++ zeros 6 ++ le 8 12
def yAck (n : Nat) : List Byte := le 4 n ++ zeros 4
def yInj (m n a : Nat) : List Byte := le 2 3 ++ le 1 m ++ le 1 n ++ le 1 a ++ zeros 3
def yUnit (k n lane : Nat) : List Byte := le 1 k ++ le 1 n ++ le 1 lane ++ zeros 5
def wFen : State := live.to (setDev.modLd 0 fun l => { l with link := { l.link with st := .disabled, fenced := true } })
theorem test_witness_contexts : wCfg.dev.atRest = true ∧ wCfg.dev.takes 32 = true ∧ wCfg.dev.role 32 = .owner ∧ wCfg.dev.works = true ∧ wCfg.dev.tlhBusy = false ∧
    (∀ x ∈ wCfg.dev.mg.paths, x.2.bg = none) ∧ (yEn 5 0 0).length = 8 ∧ fld (yEn 5 0 0) 0 2 = 5 ∧ (wCfg.dev.ctxOf 5).st = .disabled ∧ fld (yEn 5 0 0) 3 1 = 0 ∧ fld (yEn 5 0 0) 6 2 = 0 ∧
    fld (yEn 5 0 0) 2 1 = 0 ∧ fld (yEn 5 0 0) 4 2 = 0 ∧ fld (yEn 5 4 3) 2 1 = 4 ∧ fld (yEn 5 4 3) 4 2 = 3 ∧ fld yDis 0 2 = 6 ∧ (wCfg.dev.ctxOf 6).st = .enabled ∧ wCfg.dev.ctxBlocks 6 = 0 ∧
    wCfg.dev.ctxPages 6 = 0 ∧ fld yDis 2 6 = 0 ∧ fld yRek 0 2 = 0 ∧ fld yRek 2 2 = 6 ∧ fld yRek 4 4 = 0 ∧ (wCfg.dev.xrec 0).st = .granted ∧ (wCfg.dev.xrec 0).shared = false ∧
    (wCfg.dev.ctxOf 6).sld = false := by decide +kernel
theorem test_witness_reseal : wRoot.dev.atRest = true ∧ ySeal.length = 16 ∧ fld ySeal 0 1 = 1 ∧ fld ySeal 2 2 = 0 ∧ fld ySeal 4 4 = 1 ∧ 1 < wRoot.dev.regionBlocks ∧ fld ySeal 12 4 = 0 ∧
    fld ySeal 1 1 = (wRoot.dev.root 1 1).top ∧ fld ySeal 1 1 = wRoot.dev.sealTop (wRoot.dev.blockNear 1) ∧ fld ySeal 8 4 = 0 ∧
    0 < (wRoot.dev.sealLevels (wRoot.dev.blockNear 1)).getD (fld ySeal 1 1) 0 ∧ (wRoot.dev.root 1 1).st = 2#2 := by decide +kernel
theorem test_witness_settings : yRec.length = 24 ∧ fld yRec 0 1 = 2 ∧ fld yRec 1 7 = 0 ∧ (yRec.drop 8).take 16 = rec2.enc ∧ rec2 = ClassRec.dec (yRec.drop 8) ∧ rec2.ok 2 = true ∧
    (wCfg.dev.inadmissible fun k => if k = 2 then rec2 else wCfg.dev.qos.next k) = none ∧ yLab.length = 24 ∧ fld yLab 1 1 = 0 ∧ fld yLab 2 2 = 1 ∧ fld yLab 4 4 = 0 ∧
    (∀ k < 16, bits (fld yLab (8 + k) 1) 6 1 = 0) ∧ fld yLab 8 1 = 0x83 ∧ ySetp.length = 24 ∧ fld ySetp 0 2 = 1 ∧ fld ySetp 2 6 = 0 ∧ fld ySetp 10 6 = 0 ∧ fld ySetp 8 2 = 0x160 ∧
    fld ySetp 16 8 = 12 ∧ inRange 0x160 12 = true ∧ conflict (fun k => if k = 0x160 then 12 else wCfg.dev.later k) 0x160 = none ∧ wCfg.dev.fixed 0x160 = false ∧
    wCfg.dev.overCeiling 0x160 12 = false ∧ wCfg.dev.recKnown 3 = true ∧ wCfg.dev.recKnown 2 = true ∧ (∀ r ∈ wCfg.dev.lko.recs, r.seq ≠ 2) ∧ fld (yAck 3) 4 4 = 0 ∧
    fld (yInj 2 1 0) 0 2 = 3 ∧ (sourceInfo 3).isSome = true ∧ hasChecker 3 = true ∧ fld (yInj 2 1 0) 5 3 = 0 ∧ wCfg.dev.p 0x1E2 ≠ 0 := by decide +kernel
theorem test_witness_units : (wCfg.dev.ld 0).link.lanes.getLsbD 3 = false ∧ fld (yUnit 1 0 3) 2 1 = 3 ∧ fld (yUnit 1 0 3) 3 5 = 0 ∧ (wCfg.dev.ld 0).link.fenced = false ∧
    (wCfg.dev.ch 1).st ≠ .fenced ∧ wCfg.dev.chOk (partner 1) = true ∧ wFen.dev.atRest = true ∧ wFen.dev.works = true ∧ (wFen.dev.ld 0).link.fenced = true ∧ wCfg.dev.chOk 1 = true := by decide +kernel
def powDev (moored : Bool) : Dev := (setDev.modLd 0 fun l => { l with aspm := true, moored := moored }).modLd 1 fun l => { l with aspm := true, moored := moored }
def wPow (moored : Bool) : State := live.to (powDev moored)
def wMoored : State := live.to { powDev false with mg := { setDev.mg with pold := 0 }, pwr := { setDev.pwr with st := .moored } }
def wEntry (req : Nat) : State := live.to { powDev (req = 3) with pwr := { setDev.pwr with st := if req = 3 then .enterLaidUp else .enterMoored }
                                                                  mg := { setDev.mg with entry := some { req, path := 32, moored := false } } }
def wWarm (busy : Bool) : State := live.to { powDev false with mg := { setDev.mg with warm := some 5, paths := [(32, { snap := some { gen := 1, read := 5, part0 := [], stream := [] } })] }
                                                               fmnBusy := busy, time := 60000000005 }
def yWarm : List Byte := le 2 0x5752 ++ zeros 6
theorem test_witness_power : (wPow false).dev.atRest = true ∧ (wPow false).dev.tidy = true ∧ ((wPow false).dev.ld 0).moored = false ∧ ((wPow true).dev.ld 0).moored = true ∧
    (wPow true).dev.atRest = true ∧ ((wPow false).dev.ld 0).link.st = .up ∧ ((wPow false).dev.ld 0).aspm = true ∧ (wPow false).dev.pwr.st = .underway ∧ (wPow false).dev.entryFail 2 = none ∧
    (wPow true).dev.entryFail 3 = none ∧ (wPow true).dev.works = true ∧ wMoored.dev.pwr.st = .moored ∧ wMoored.dev.takes 16 = true ∧ wMoored.dev.role 16 = .owner ∧ wMoored.dev.atRest = true ∧ fld yWarm 0 2 = 0x5752 ∧ fld yWarm 2 6 = 0 ∧
    (wWarm true).dev.tidy = true ∧ (wWarm true).dev.mg.warm.isSome = true ∧ (wWarm true).dev.fmnBusy = true ∧
    ((wWarm false).dev.path 32).snap = some { gen := 1, read := 5, part0 := [], stream := [] } ∧ 5 + 60000000000 ≤ (wWarm false).dev.time := by decide +kernel
theorem test_witness_powerCommits : (wEntry 2).dev.tidy = true ∧ (wEntry 2).dev.mg.entry = some { req := 2, path := 32, moored := false } ∧ (wEntry 2).dev.entryFail 2 = none ∧
    ((wEntry 2).dev.units.foldl (fun d n => d.rangeDone n 0) (wEntry 2).dev).rangeActive 0 = false ∧ (wEntry 3).dev.mg.entry = some { req := 3, path := 32, moored := false } ∧
    (wEntry 3).dev.entryFail 3 = none ∧ (wEntry 3).dev.prepare.1 = true ∧ (wWarm false).dev.mg.warm.isSome = true ∧ (wWarm false).dev.prepare.1 = true ∧
    (wWarm false).dev.prepare.2.fmnBusy = false ∧ (wWarm false).dev.prepare.2.tlhBusy = false := by decide +kernel

def okImg : Img := { ver := 3, sigOk := true }
def pkg1 : Pkg := { modid := 5#64, codeLen := 4096, dataLen := 100, scratch := 4096, sigOk := true }
def wTlh (q : TlhReq) : State := live.to { mailDev with tlh := { mailDev.tlh with reqs := [q], tickets := [{ id := 4, status := some (-3), res0 := 1 }, { id := 9 }], nextTicket := 10, fw := okImg } }
def qMeas : TlhReq := { ticket := 9, fn := 9, args := [1, 0, 0x1000, 0, 0] }
def qVer : TlhReq := { ticket := 9, fn := 7, args := [1, 0, 0, 0, 0], img := okImg }
def qArb : TlhReq := { ticket := 9, fn := 8, args := [1, 3, 0, 0, 0] }
theorem test_witness_monitorCalls : (wTlh qVer).dev.atRest = true ∧ (wTlh qVer).dev.fmnBusy = false ∧ (wTlh qVer).dev.tlhBusy = false ∧ (wTlh qVer).dev.tlh.reqs.length < 16 ∧
    tget 0#8 (wTlh qVer).dev.sram (callBlock 2) = 0#8 ∧ tget 0#8 (wTlh qVer).dev.sram (callBlock 2 + 1) = 0#8 ∧
    ((wTlh qVer).dev.tlh.tickets.find? fun t => decide (t.id = (4#64).toNat)) = some { id := 4, status := some (-3), res0 := 1 } ∧
    rgnFused 0 1 = false ∧ rgnLock ((wTlh qVer).dev.region 0 1) = false ∧ (wTlh qVer).dev.fusedHold.getLsbD 7 = false ∧
    tmPre 5 (fun i => [3, 1, 0].getD i 0) = none ∧ tmPre 6 (fun i => [3].getD i 0) = none ∧ tmPre 7 (fun i => [1, 0, 0, 0].getD i 0) = none ∧ tmPre 8 (fun i => [1, 3].getD i 0) = none ∧
    tmPre 9 (fun i => [1, 0, 0].getD i 0) = none ∧ tmPre 0xA (fun i => [1, 0, 0, 0].getD i 0) = none ∧ tmPre 0xB (fun i => [0, 32].getD i 0) = none ∧
    tmPre 0xC (fun i => [0, 208].getD i 0) = none := by decide +kernel
def wRestart : State := live.to { mailDev with tlhBusy := true, tlh := { mailDev.tlh with st := .restarting }, flash := { mailDev.flash with bankB := { tlh := some okImg } } }
theorem test_witness_tollhouse : (wTlh qVer).dev.fmn.st ≠ .quiescing ∧ (wTlh qVer).dev.tlh.reqs = [qVer] ∧ qVer.fn ≠ 8 ∧ ((wTlh qVer).dev.tlhDo qVer).2.fmn = (wTlh qVer).dev.fmn ∧
    (wTlh qArb).dev.atRest = true ∧ qArb.fn = 8 ∧ qArb.args.getD 0 0 = 1 ∧ (wTlh qArb).dev.arbf ≤ qArb.args.getD 1 0 ∧ qArb.args.getD 1 0 ≤ 64 ∧
    ((wTlh qVer).dev.tlh.reqs.any fun q => decide (q.ticket = 9)) = true ∧ (wTlh qVer).dev.tlh.st = .running ∧ wRestart.dev.tlh.st = .restarting ∧
    (wRestart.dev.flash.bank wRestart.dev.boot.bank).tlh = some okImg ∧ wRestart.dev.imgOk okImg wRestart.dev.arbt = true ∧ (∀ x ∈ wRestart.dev.lnd, x.2.doe = 0) ∧
    (∀ x ∈ ((wRestart.dev.measureRestart okImg.digest).reconcile).lnd, x.2.doe = 0) ∧ live.dev.secHold.getLsbD 7 = false ∧ 7 ∉ live.dev.pwr.clkOff ∧ live.dev.on 7 = true ∧
    live.dev.dbgLock = 0 ∧ live.dev.debugGet (.wharf 1 5) = (some (zeros 64), live.dev) ∧ live.dev.debugGet (.key 1 5) = (none, live.dev) := by decide +kernel
def runP : Pilot := { inst := some pkg1, run := some pkg1, cb := some 0, scrBase := 0x80001000, scrLen := 4096 }
def pltDev (p : Pilot) : Dev := { mailDev with fz := 0x80000000000000#2048, plt := [(2, p)], prm := [(0x240, some 1), (0x241, some 8)] }
def wPlt (p : Pilot) : State := live.to (pltDev p)
def wOwn : State := live.to (((pltDev runP).modBg 20 fun b => { b with owner := .pilot, slot := some 2 }).modBg 63 fun b => { b with space := 1, ringlog2 := 3 })
def evP : Pilot := { runP with events := [(3, 4)] }
theorem test_witness_pilot : (wPlt runP).dev.tidy = true ∧ (wPlt runP).dev.fmnUp = true ∧ ((wPlt runP).dev.pilot 2).run = some pkg1 ∧ runP.wait = none ∧ runP.calls < 20000 ∧
    ((wPlt evP).dev.pilot 2).events = [(3, 4)] ∧ runP.events = [] ∧ runP.cmds < 2000 ∧
    ((wPlt runP).dev.channelsOf 2).length + 2 ≤ 8 ∧ ((List.range 64).filter fun c => decide (((wPlt runP).dev.bg c).owner = .pilot)).length + 2 ≤ (wPlt runP).dev.p 0x241 ∧
    2 ≤ ((List.range 64).filter fun c => decide (16 ≤ c) && decide (c ≤ 62) && decide (((wPlt runP).dev.bg c).owner = .syust) && decide (((wPlt runP).dev.bg c).st ∈ [.disabled, .stopped]) &&
      ((wPlt runP).dev.bg c).cur.isNone).length ∧ (wOwn.dev.bg 20).slot = some 2 ∧ (wOwn.dev.bg 63).space = 1 ∧ 1 + ((wOwn.dev.bg 63).tail - (wOwn.dev.bg 63).head).toNat ≤ (wOwn.dev.bg 63).ringSize ∧
    (∀ j, j < 8 → j ≠ 2 → ((wPlt runP).dev.pilot j).run = none) ∧ (wPlt runP).dev.pilotsOn = true ∧ runP.secTicks < 999 ∧ runP.winTicks < 99 ∧
    ((wPlt { inst := some pkg1, faults := [5] }).dev.loadModule 2 pkg1 false).1 = none ∧
    ((((((wPlt { runP with newPkg := true }).dev.stopModule 2).clearRegions 2).modPilot 2 fun p => { p with newPkg := false, held := false, scrBase := 0, scrLen := 0 }).loadModule 2 pkg1 false).1 = none) :=
  by decide +kernel

def busyDev : Dev := { liveDev with fmnBusy := true, fmn := { st := .quiescing }, lko := { liveDev.lko with next := 5 } }
def wBusy : State := live.to busyDev
def reten1 : Reten := { src := 0x702, time := 9, array := 0 }
def wRet : State := live.to { busyDev with moor := { busyDev.moor with linkUp := false, ret := [reten1] } }
def wSnp : State := live.to (liveDev.modLd 0 fun l => { l with coh := { l.coh with snoops := [{ line := 64, blk := false, kind := .inv, home := 1, why := .board, limit := 5 }] } })
theorem test_witness_faults : wBusy.dev.atRest = true ∧ wBusy.dev.coreOn = true ∧ wBusy.dev.fmnBusy = true ∧ wBusy.dev.lko.recs = [] ∧ (∃ i, sourceInfo 3 = some i ∧ i.fence = none ∧ wBusy.dev.arrival 3 i ≠ .fatal) ∧
    wBusy.dev.srcOn 3 = true ∧ 3 ∉ [0x682, 0x683, 0x6A0, 0x6A1, 0x6A4] ∧ (tget {} wBusy.dev.lko.src 3).wiref = false ∧ (sourceInfo 3).isSome = true ∧
    (∀ r ∈ wMail.dev.lko.recs, r.src ≠ 0x740 ∧ r.src ≠ 0x741) ∧ wMail.dev.moor.ret.length < 16 ∧ wRet.dev.atRest = true ∧ wRet.dev.moor.linkUp = false ∧ wRet.dev.moor.ret = [reten1] ∧
    (sourceInfo reten1.src).isSome = true ∧ wBusy.dev.fmn.st ≠ .booting ∧ wBusy.dev.activating = none ∧ (∀ x ∈ wBusy.dev.plt, x.2.run = none) ∧ wBusy.dev.pm.latched = [] ∧ wBusy.dev.qos.latched = [] ∧
    (∀ x ∈ wBusy.dev.chn, x.2.retQ = []) ∧ slipSource (.slice 5) = some (sliceSrc 5 0x28) ∧ sliceSrc 5 0x28 ∉ [0x683, 0x6A4] ∧ live.dev.srcOn (sliceSrc 5 0x28) = true ∧ live.dev.lko.stopped = [] ∧
    wSnp.dev.atRest = true ∧ ((wSnp.dev.ld 0).coh.snoops.any fun x => decide (x.line = (64#39).toNat)) = true ∧ wSnp.dev.lko.recs = [] ∧
    wSnp.dev.arrival (ldSrc 0 8) { cls := .contained, fence := some .landing } = .contained := by
  refine ⟨by decide +kernel, by decide +kernel, rfl, rfl, ⟨{ cls := .corrected, fence := none, sub := 0, merge := 1, unit := 3, checker := true }, ?_⟩, ?_⟩ <;> decide +kernel

def teleDev : Dev := { (mailDev.modLd 0 fun l => { l with ptm := true, aspm := true, moored := true, link := { l.link with l1 := true } }) with
  tele := { mailDev.tele with sens := [(3, (1200, true)), (17, (900, true))] }, prm := [(0x80, some 0x3F), (0x220, some 1000000), (0x221, some 0)] }
def wTele : State := live.to teleDev
def wCool : State := live.to { teleDev with tele := { teleDev.tele with sens := [(3, (300, true))] }, pwr := { teleDev.pwr with st := .moored, jstep := 2 } }
theorem test_witness_telemetry : wTele.dev.atRest = true ∧ wTele.dev.coreOn = true ∧ wTele.dev.p 0x220 = wTele.dev.tele.winlen ∧ Tbl.rises wTele.dev.tele.pages = true ∧ Tbl.rises wTele.dev.tele.ldm = true ∧
    wTele.dev.timeSource = some 0 ∧ (-500 : Int).natAbs < 1000000 ∧ Tbl.rises wTele.dev.tele.sens = true ∧ [(7 : Int), 8][1]? = some 8 ∧ wTele.dev.hottest = some (3, 1200) ∧
    (∀ c ∈ wTele.dev.units, ¬ wTele.dev.p 0x19D < 10 * (wTele.dev.ch c).temp) ∧ (wTele.dev.p 0x82 : Int) < 1200 ∧ (∀ c ∈ wCool.dev.units, (wCool.dev.ch c).dimmStep = 0) ∧
    wCool.dev.hottest = some (3, 300) ∧ 300 + 50 ≤ (wCool.dev.p 0x82 : Int) ∧ wTele.dev.pwr.trip = false ∧ wTele.dev.ldMoored 0 = true ∧ (wTele.dev.ld 0).aspm = true ∧ (wTele.dev.ld 0).link.st = .up ∧
    wCool.dev.pwr.st = .moored ∧ wCool.dev.atRest = true ∧ wCool.dev.moor.i3c.isSome = true ∧ (∀ b < 6, bits (wCool.dev.p 0x80) b 1 = 1) ∧ (wCool.dev.ld 0).link.l1 = true := by decide +kernel
def wStep : State := live.to { teleDev with chn := (List.range 16).map fun c => (c, { liveCh with dimmStep := 1 }) }
theorem test_witness_throttleRise : wStep.dev.atRest = true ∧ (∀ c ∈ wStep.dev.units, wStep.dev.step c ≠ 0) ∧ wStep.dev.hottest = some (3, 1200) := by decide +kernel
def gwDev (g : Gwy) : Dev := { State.reset.dev with gwy := g }
def wGw (g : Gwy) : State := State.reset.to (gwDev g)
/-- A gangway with power at its input: the state it is in, PG, and the model count left. -/
def gw (st : GSt) (pg : Bool) (n : Nat) : Gwy := { st, pg, n, present := true, vin := 12000, vinOk := true, vout := 11900, pgTh := 10800, interval := true }
def wOff : State := State.reset.to { State.reset.dev with boot := { phase := .off } }
theorem test_witness_gangway : wOff.dev.atRest = true ∧ wOff.dev.boot.phase = .off ∧ (wGw {}).dev.atRest = true ∧ (wGw {}).dev.boot.phase ≠ .off ∧ ({} : Gwy).st = .standby ∧ ({} : Gwy).interval = true ∧
    (wGw {}).dev.fetsCool = true ∧ ({} : Gwy).pg = false ∧ (wGw (gw .inputFault false 0)).dev.atRest = true ∧ ({ gw .inputFault false 0 with present := false } : Gwy).st = .inputFault ∧
    (gw .latched false 0).st.gate = false ∧ (gw .latched false 0).st ≠ .shorted ∧ (wGw (gw .latched false 0)).dev.moor.ret.length < 16 ∧ 12000 ≤ 11900 + 500 ∧
    (gw .limiting false 0).st.gate = true ∧ (wGw (gw .limiting false 0)).dev.p 0xC2 ≤ 100000000 ∧ 0 < (wGw (gw .limiting false 0)).dev.p 0xC2 ∧
    (wGw (gw .on true 0)).dev.p 0xC1 ≤ 100000 ∧ (wGw (gw .on false 0)).dev.p 0xC3 * (wGw (gw .on false 0)).dev.p 0xC1 < 10 * 1000000 ∧ (wGw (gw .cooling false 0)).dev.fetsCool = true ∧
    live.dev.gwy.pg = true ∧ 10700 < live.dev.gwy.pgTh ∧ live.dev.boot.phase ≠ .aux ∧ (wGw {}).dev.boardOpen = true := by decide +kernel
def otpMap : BitVec 2048 := 0xF00000000000000000000000000000000#2048
def auxPg (kind : Start) (phase : Phase) : Dev := { gwDev (gw .on true 0) with boot := { phase, kind, pgFell := true, marks := [] } }
def wAux : State := State.reset.to (auxPg .auxCold .aux)
def bootImg : Bank := { sy := some okImg, mon := some okImg, tlh := some okImg, vec := true }
def wTrust : State := State.reset.to { auxPg .auxCold .trust with flash := { dir0 := { ok := true, active := 1 }, bankB := bootImg }, tlh := {}, fmnBusy := true, tlhBusy := true }
def startDev : Dev := (({ auxPg .auxCold .starting with flash := { dir0 := { ok := true, active := 1 }, bankB := bootImg }, tlh := { st := .running }, fmn := { st := .booting }, fmnBusy := true, tlhBusy := false } : Dev).fusedRegions)
def wStart : State := State.reset.to { startDev with boot := { startDev.boot with bank := 1 } }
/-- The landings are released and Syust runs; `r` says whether the channels and both self-tests are done too. -/
def relDev (r : Bool) : Dev := { startDev with fmnBusy := false, fmn := { st := .running }, chn := if r then (List.range 16).map fun c => (c, liveCh) else []
                                               boot := { startDev.boot with bank := 1, released := true, sramDone := r, laneDone := r, chDone := if r then List.range 16 else [] } }
def wRel (r : Bool) : State := State.reset.to (relDev r)
def spd : SpdRead := { gib := 64, dpc := 2, ranks := 2, speed := 6400, serial := [1, 2] }
def wSram : State := State.reset.to { relDev false with boot := { (relDev false).boot with sramDone := true } }
def wArb : State := live.to { liveDev with fmn := { liveDev.fmn with sy := { ver := 1, svn := 5 }, mon := { ver := 1, svn := 4 } } }
theorem test_witness_start : wAux.dev.atRest = true ∧ wAux.dev.boot.phase = .aux ∧ wAux.dev.gwy.pg = true ∧ wAux.dev.boot.railFail = false ∧ wAux.dev.pwr.trip = false ∧ wAux.dev.boot.pgFell = true ∧
    wTrust.dev.atRest = true ∧ wTrust.dev.tlh.st = .booting ∧ wTrust.dev.lko.recs = [] ∧ 2 ≤ (wTrust.dev.sense wTrust.otp.map).flash.dir.pend ∧
    (wTrust.dev.sense wTrust.otp.map).bankOk ((wTrust.dev.sense wTrust.otp.map).flash.dir.active % 2) = true ∧ wStart.dev.atRest = true ∧ wStart.dev.boot.released = false ∧
    wStart.dev.boot.phase = .starting ∧ (∀ x ∈ wStart.dev.chn, x.2.retQ = []) ∧ wStart.dev.lko.recs = [] := by decide +kernel
theorem test_witness_bringUp : (wRel false).dev.atRest = true ∧ (wRel false).dev.boot.released = true ∧ (wRel false).dev.on 3 = true ∧ 3 ∉ (wRel false).dev.boot.chDone ∧
    ((wRel false).dev.ch 3).st ≠ .fenced ∧ spd.ok = true ∧ (wRel false).dev.boot.kind.keeps = false ∧ spd.gib ≠ 0 ∧ spd.dpc ≠ 0 ∧ (wRel false).dev.flash.repair = [] ∧ (wRel false).dev.flash.hppr = [] ∧
    (wRel false).dev.boot.chDone = [] ∧ (wRel false).dev.cacheValid 3 spd.serial = false ∧ spd.trainA = true ∧ spd.trainB = true ∧ spd.checkOk = true ∧ (wRel false).dev.boot.sramDone = false ∧
    wSram.dev.atRest = true ∧ wSram.dev.boot.sramDone = true ∧ wSram.dev.boot.laneDone = false ∧ (wSram.dev.flash.bank wSram.dev.boot.bank).vec = true ∧ (wRel true).dev.atRest = true ∧
    (wRel true).dev.units.all (fun c => decide (c ∈ (wRel true).dev.boot.chDone)) = true ∧ (wRel true).dev.startBlocked = none ∧ (wRel true).dev.ext = {} ∧
    (∀ x ∈ (wRel true).dev.plt, x.2.inst = none) ∧ wArb.dev.active = true ∧ wArb.dev.fmnUp = true ∧ wArb.dev.boot.arbDone = false ∧ wArb.dev.tlh.reqs = [] ∧
    wArb.dev.arbf < min wArb.dev.fmn.sy.svn wArb.dev.fmn.mon.svn ∧ wArb.dev.tlh.fw.svn ≤ wArb.dev.arbt := by decide +kernel
def wClk : State := live.to { liveDev with moor := { liveDev.moor with clk := [(0, true)], clkLost := [3] } }
theorem test_witness_clocks : wClk.dev.atRest = true ∧ (3 ∈ wClk.dev.moor.clkLost) ∧ wClk.dev.coreOn = true ∧ tget false wClk.dev.moor.clk 0 = true ∧ wClk.dev.on 0 = true ∧ wClk.dev.on 1 = true ∧
    (wClk.dev.ld 0).link.st ≠ .absorbed ∧ (wClk.dev.ld 1).link.st ≠ .absorbed ∧ 0 ∉ wClk.dev.moor.clkLost ∧ wClk.dev.boot.phase ≠ .off ∧ wClk.dev.chOk 1 = true ∧ hostSized 3 4 = false ∧
    bits (0x80000000#64).toNat 31 1 = 1 ∧ wClk.dev.fmnBusy = false ∧ wClk.dev.tlhBusy = false := by decide +kernel

def offDev : Dev := { liveDev with codeH := true }
theorem test_witness_commands : live.pending = [] ∧ (∀ n, n < 16 → live.dev.on n = true) ∧ live.dev.blow = 0#2048 ∧ live.dev.memWf = true ∧ offDev.on 2 = false := by decide +kernel
theorem test_witness_absent : (match execAspmL1Entry 2 (live.to offDev) with | .fault f => decide (f = .absentUnit) | _ => false) = true := by decide +kernel
theorem test_witness_run : live.dev.blow = 0#2048 ∧ ∃ t, ReachesIn live t 1 := ⟨by decide +kernel, _, live, rfl, rfl⟩

/-- Table 10.3: the classes of a tenant mix, SC30 admitted at 192. -/
def mix (gq30 : Nat) : Tbl (Option ClassRec) :=
  [(0, some { gq := 64, xw := 0, xq := 64, xi := 0 }), (5, some { gq := 256, xq := 512 }), (12, some { gq := 384 }), (20, some { gq := 128, xq := 256 }), (30, some { gq := gq30, xq := 512 })]
def wMix : State := live.to { mailDev with qos := { mailDev.qos with recs := mix 0 } }
/-- Chapter 12, example: the input payload of C600h. -/
def yMix : List Byte := [0x1E, 0, 0, 0, 0, 0, 0, 0, 0, 0, 0, 4, 0, 1, 0, 2, 0, 0, 0, 4, 0, 0, 0, 0]
/-- Chapter 12, example: SC30 at 256 is refused with the detail record printed there. -/
theorem test_admission_refused : (match execSetClassRecord .i3c yMix wMix with
    | .next t => decide ((t.dev.path 32).ans = { rc := .unsupported, dcode := 6, out := [6, 0, 0, 0, 1, 0, 0, 0, 0, 4, 0x40, 4, 0, 0, 0, 0] } ∧ t.dev.mg.stateseq = wMix.dev.mg.stateseq)
    | _ => false) = true := by decide +kernel
/-- Table 10.4: effective guarantees and fractions with D_Q at 960. -/
theorem test_scaled_shares : (let d : Dev := { wMix.dev with qos := { wMix.dev.qos with recs := mix 192, dq := 960 } }
    [0, 5, 12, 20, 30].map fun c => (d.ge .q 0 c, d.eG .q 0 c)) = [(64, 68), (238, 253), (358, 381), (119, 126), (179, 190)] := by decide +kernel
/-- Chapter 5, example: twelve bytes of DICT-PACK. -/
theorem test_dict_example : dictUnpack [0xC4, 0xD5, 1, 0, 0xC, 0, 0, 0, 2, 0x41, 0x42, 0x43, 0x70, 2, 0xFF] 64 =
    ([0x41, 0x42, 0x43, 0x41, 0x42, 0x43, 0x41, 0x42, 0x43, 0x41, 0x42, 0x43], 0) := by decide +kernel
/-- Chapter 15: XL12's slip-stop source. -/
theorem test_slip_source : slipSource (.lane 1 2) = some 0x62A := by decide
/-- An ill-formed term for each check of WellFormed.lean is refused. -/
theorem test_wellFormed_refuses_ranges :
    ([.idleCleaning 1 101 {}, .slipStop (.landing 1) (.landing 1) (.slice 1) true 16 0, .slipStop (.landing 1) (.landing 1) (.slice 1) true 0 4, .linkTrained 1 { speed := 5, width := 1 },
      .linkTrained 1 { speed := 1, width := 0 }, .linkTrained 1 { speed := 1, width := 6 }, .scratchAccess default (2 ^ 27) (.read 1 .ok), .scratchAccess default 0 (.read 0 .ok),
      .scratchAccess default 0 (.read 4097 .ok), .scratchAccess default 0 (.write []), .sealNodeClean 1 131072 0 0, .sealNodeClean 1 0 8 0, .sealNodeClean 1 0 0 65536, .keyImport 1 16384 0 0 0,
      .keyImport 1 0 4 0 0, .refreshDue 1 65536 false, .rfmThreshold 1 65536, .alertNError 1 (2 ^ 44) .ok, .clearEventRecords .i3c 0 false (List.replicate 257 0), .setEventInterruptPolicy .i3c [0, 0, 0, 0],
      .performMaintenance .i3c 1 0 1 65536 0, .performMaintenance .i3c 1 0 1 0 (2 ^ 24), .addDynamicCapacityResponse .i3c [(0, 0)], .releaseDynamicCapacity .i3c [(2 ^ 64, 1)],
      .initiateDynamicCapacityAdd .i3c { ld := 0, exts := [(0, 0)] }, .initiateDynamicCapacityRelease .i3c { ld := 0, exts := [(0, 0)] } false] : List Instr).all (fun i => !i.wf) = true := by decide +kernel
theorem test_wellFormed_refuses_more :
    ([.pilotSchedulerTick (List.replicate 9 default), .sensorSample [], .fetModelUpdate 0 0 0 (-2733), .channelBringUpComplete 1 { dpc := 3 }, .channelBringUpComplete 1 { ranks := 0 },
      .channelBringUpComplete 1 { stack := 0 }, .sramSelfTestComplete [{ arr := .wharf, unit := 64 }], .laneSelfTest [(16, .cmp)], .jtagBallInstruction [16] [], .jtagBallInstruction [] [16]] : List Instr).all
      (fun i => !i.wf) = true := by decide +kernel
theorem test_wellFormed_refuses_payloads (p : CmdPath) (k : Fin 8) (big : List Byte) (descs : List Line) (h : 65536 < big.length) (h' : 65536 < descs.length) :
    ([.stageExtentAttributes p big, .getExtentRecords p big, .withdrawOffer p big, .getPageMapEntries p big, .advanceTallyEpoch p big, .setPagePin p big, .wharfPin p big, .wharfMaintenance p big, .clearAdrift p big, .pageMapAudit p big, .setHostQueuePermission p big, .getCapacityStatus p big, .enableContext p big, .disableContext p big, .getContextRecords p big, .rekeyExtent p big, .resealSubtree p big, .setClassRecord p big, .getClassRecords p big, .setLabelTable p big, .getClassOccupancy p big, .getFaultRecords p big, .acknowledgeFault p big, .injectFault p big, .fenceUnit p big, .restoreUnit p big, .retrainChannel p big, .getPowerStatus p big, .warmDeviceReset p big, .getGangwayStatus p big, .manifest p big, .getParameter p big, .setParameter p big, .getPersistentLog p big,
      .setFeature p 0 big, .setAlertConfiguration p big, .pltCmd k 0 big, .pltBargePost k 0 descs, .pltLog k 0 big, .spdmRequest none none big] : List Instr).all (fun i => !i.wf) = true := by
  simp [Instr.wf, bytesOk, Nat.not_le.mpr h, Nat.not_le.mpr h']

/-- Reset columns of Tables 3.1, 16.6, 16.8, 10.6, 11.8 and 15.15; Example of Table 11.1: BG63 is the ballast channel at priority 11b. -/
theorem test_register_resets : ({} : Dev).aliasReg 3 = 0x2D00 ∧ ({} : Dev).rcptReg 7 = 0x07FF0007FF0007FF ∧ ({} : Dev).ptmReg = 0xFF00 ∧ ({} : Dev).delivReg = 0x04000400 ∧
    (({} : Dev).bg 16).cfgReg = 0x3F0 ∧ (({} : Dev).bg 63).cfgReg % 16 = 15 ∧ ({} : Dev).lkoStat / 2 ^ 32 = 1 := by decide +kernel

/-- Tables 13.4, 13.5, 13.8 and R401, R406: ALIAS at 08h of the landing page, a counter page of zeros until it is enabled, HDR once it is, zero outside every block. -/
theorem test_host_pages : (({} : Dev).bar0 2 0x80009) = some 0x2D#8 ∧ ({} : Dev).bar0 2 0x70000 = some 0#8 ∧ ({} : Dev).bar0 2 0x20000 = none ∧ liveDev.bar2 5 0 = 0#8 ∧
    ({ liveDev with prm := tput none liveDev.prm 0x205 (some 1) } : Dev).bar2 5 0 = 1#8 ∧ ({ liveDev with prm := tput none liveDev.prm 0x205 (some 1) } : Dev).bar2 5 1 = 1#8 ∧
    ({ liveDev with prm := tput none liveDev.prm 0x205 (some 1) } : Dev).bar2 5 2 = 5#8 := by decide +kernel

end Sys2Proof.Tests
end

section
/-! The home slice of a page (R24, Table 1.4): the fold as one exclusive or of nibbles, and both homing modes on both ordering codes. -/
namespace Sys2Proof.Machine

/-- A field of a page number is the field 12 places higher in any byte address of that page. -/
theorem bits_page (dpa lo len : Nat) : bits (dpa / 4096) lo len = dpa / 2 ^ (lo + 12) % 2 ^ len := by
  rw [bits, show 4096 = 2 ^ 12 from rfl, Nat.div_div_eq_div_mul, ← Nat.pow_add, Nat.add_comm 12]

/-- The top field of a value, one that no bits lie above, is what division leaves. -/
theorem bits_top {v lo len : Nat} (h : v < 2 ^ (lo + len)) : bits v lo len = v / 2 ^ lo :=
  Nat.mod_eq_of_lt (Nat.div_lt_of_lt_mul (Nat.pow_add 2 lo len ▸ h))

/-- R24: the loop over the nibbles of DPA[43:12] and the last step with DPA[44], written out. -/
theorem fold_page (dpa : Nat) :
    fold (dpa / 4096) = dpa / 2 ^ 12 % 16 ^^^ dpa / 2 ^ 16 % 16 ^^^ dpa / 2 ^ 20 % 16 ^^^ dpa / 2 ^ 24 % 16 ^^^ dpa / 2 ^ 28 % 16 ^^^
      dpa / 2 ^ 32 % 16 ^^^ dpa / 2 ^ 36 % 16 ^^^ dpa / 2 ^ 40 % 16 ^^^ (dpa / 2 ^ 44 % 2) := by
  simp only [fold, List.range, List.range.loop, List.foldl, bits_page, Nat.zero_xor, Nat.reduceMul, Nat.reduceAdd, Nat.reducePow]

/-- The fold is four bits wide: every value the loop combines is. -/
theorem fold_lt (page : Nat) : fold page < 2 ^ 4 := by
  have nibble (lo : Nat) : bits page lo 4 < 2 ^ 4 := Nat.mod_lt _ (by decide)
  have top : bits page 32 1 < 2 ^ 4 := Nat.lt_trans (Nat.mod_lt _ (by decide)) (by decide : 2 ^ 1 < 2 ^ 4)
  exact Nat.xor_lt_two_pow
    (List.foldlRecOn (motive := (· < 2 ^ 4)) _ _ (by decide) fun _ hs k _ => Nat.xor_lt_two_pow hs (nibble (4 * k))) top

/-- Table 1.4, CQ8160-F, Spread. -/
theorem Dev.spread_of_codeF {d : Dev} (h : d.codeH = false) (page : Nat) : d.spread page = fold page := by
  simp [Dev.spread, h]

/-- Table 1.4, CQ8160-F, Near. -/
theorem Dev.nearHome_of_codeF {d : Dev} (h : d.codeH = false) (ld page : Nat) :
    d.nearHome ld page = 4 * (ld / 4) + (fold page % 4 ^^^ fold page / 4) := by
  have high : bits (fold page) 2 2 = fold page / 4 := bits_top (fold_lt page)
  simp only [Dev.nearHome, h, high, quadOf, Bool.false_eq_true, if_false]
  simp [bits]

/-- Entry `k` of the CQ8160-H's list of slices, the two lowest of each quadrant, as the model computes it. -/
theorem spreadEntry_eq_getD : ∀ k < 8, 4 * (k / 2) + k % 2 = [0, 1, 4, 5, 8, 9, 12, 13].getD k 0 := by decide

/-- Table 1.4, CQ8160-H, Spread. -/
theorem Dev.spread_of_codeH {d : Dev} (h : d.codeH = true) (page : Nat) :
    d.spread page = [0, 1, 4, 5, 8, 9, 12, 13].getD (fold page % 8 ^^^ fold page / 8) 0 := by
  have s3 : bits (fold page) 3 1 = fold page / 8 := bits_top (fold_lt page)
  have hs := fold_lt page
  have k_lt : fold page % 8 ^^^ fold page / 8 < 2 ^ 3 := Nat.xor_lt_two_pow (by omega) (by omega)
  rw [← spreadEntry_eq_getD _ k_lt]
  simp only [Dev.spread, h, s3, if_true]
  simp [bits]

/-- Table 1.4, CQ8160-H, Near. -/
theorem Dev.nearHome_of_codeH {d : Dev} (h : d.codeH = true) (ld page : Nat) :
    d.nearHome ld page = 4 * (ld / 4) + (fold page % 2 ^^^ fold page / 2 % 2 ^^^ fold page / 4 % 2 ^^^ fold page / 8) := by
  have s3 : bits (fold page) 3 1 = fold page / 8 := bits_top (fold_lt page)
  simp only [Dev.nearHome, h, s3, quadOf, if_true]
  simp [bits]

/-- Settles O1: the fold of a page written out (`fold_page`), and one lemma for each row of Table 1.4. -/
theorem homeSliceFollowsTheFold : Obligations.HomeSliceFollowsTheFold := by
  unfold Obligations.HomeSliceFollowsTheFold
  intro d dpa ld _ _ n s
  have hs : fold (dpa / 4096) = s := fold_page dpa
  rw [← hs]
  refine ⟨fun hF => ⟨?_, ?_⟩, fun hH => ⟨?_, ?_⟩⟩
  · exact Dev.spread_of_codeF hF _
  · exact Dev.nearHome_of_codeF hF ld _
  · exact Dev.spread_of_codeH hH _
  · exact Dev.nearHome_of_codeH hH ld _

end Sys2Proof.Machine
end

section
/-! Flits of a landing: what one brings with its credits (R53 to R58, R62), what is sent and what is sent again (R60 to R63). -/
namespace Sys2Proof.Machine

/-! A grant of credits to a class touches only the credits. -/
@[simp] theorem Pool.credit_msgs (p : Pool) (c k : Nat) : (p.credit c k).msgs = p.msgs := by
  unfold Pool.credit; split <;> rfl
@[simp] theorem Pool.credit_rxSeq (p : Pool) (c k : Nat) : (p.credit c k).rxSeq = p.rxSeq := by
  unfold Pool.credit; split <;> rfl
@[simp] theorem Pool.credit_hostCred (p : Pool) (c k : Nat) : (p.credit c k).hostCred = p.hostCred := by
  unfold Pool.credit; split <;> rfl
@[simp] theorem Pool.credit_txq (p : Pool) (c k : Nat) : (p.credit c k).txq = p.txq := by
  unfold Pool.credit; split <;> rfl

/-- Credits of CXL.mem classes wait for a flit (R57 rule 3), so no grant changes what the host holds for reads at once. -/
theorem Pool.credit_held_rd (p : Pool) (c k : Nat) : (p.credit c k).held.getD 0 0 = p.held.getD 0 0 := by
  unfold Pool.credit
  split
  iterate 3 rfl
  next h0 _ _ => simp [List.getD_eq_getElem?_getD, List.getElem?_set_ne h0]

/-- The landings are the same after an event is counted. -/
theorem Dev.ld_bump (d : Dev) (code inst n : Nat) (m : Nat) : (d.bump code inst n).ld m = d.ld m := by
  simp only [Dev.ld, Dev.bump_lnd]

theorem Dev.ld_modLd_self {d : Dev} (h : d.Rest) (n : Nat) (f : Landing → Landing) : (d.modLd n f).ld n = f (d.ld n) := by
  rw [Dev.ld_modLd h, if_pos rfl]

/-- What grants of shared slots at landing `n` leave as it was. -/
structure GrantKeeps (n : Nat) (d e : Dev) : Prop where
  rest : e.Rest
  mem : e.mem = d.mem
  slc : e.slc = d.slc
  msgs : (e.ld n).pool.msgs = (d.ld n).pool.msgs
  rxSeq : (e.ld n).pool.rxSeq = (d.ld n).pool.rxSeq
  hostCred : (e.ld n).pool.hostCred = (d.ld n).pool.hostCred
  heldRd : (e.ld n).pool.held.getD 0 0 = (d.ld n).pool.held.getD 0 0

theorem GrantKeeps.refl {d : Dev} (h : d.Rest) (n : Nat) : GrantKeeps n d d := ⟨h, rfl, rfl, rfl, rfl, rfl, rfl⟩

/-- One more grant, to class `c`. -/
theorem GrantKeeps.grant {n : Nat} {d e : Dev} (k : GrantKeeps n d e) (c : Nat) :
    GrantKeeps n d ((e.modLd n fun l => { l with pool := { l.pool.credit c 16 with granted := c :: l.pool.granted } }).bump 0x00E n 1) := by
  have granted := k.rest.modLd n (fun l => { l with pool := { l.pool.credit c 16 with granted := c :: l.pool.granted } }) fun l hl => by simpa using hl
  refine ⟨granted.bump _ _ _ _ _, (Dev.bump_mem ..).trans k.mem, (Dev.bump_slc ..).trans k.slc, ?_, ?_, ?_, ?_⟩ <;> rw [Dev.ld_bump, Dev.ld_modLd_self k.rest]
  · exact (Pool.credit_msgs ..).trans k.msgs
  · exact (Pool.credit_rxSeq ..).trans k.rxSeq
  · exact (Pool.credit_hostCred ..).trans k.hostCred
  · exact (Pool.credit_held_rd ..).trans k.heldRd

theorem Dev.grantShared_keeps {d : Dev} (h : d.Rest) (n : Nat) : GrantKeeps n d (d.grantShared n) := by
  unfold Dev.grantShared
  split
  · exact .refl h n
  · refine List.foldlRecOn (motive := GrantKeeps n d) _ _ (.refl h n) fun e k c _ => ?_
    dsimp only
    split
    · exact k.grant c
    · exact k

/-- Requests wait for the departure order (R312): among them alone nothing leaves of itself. -/
theorem Dev.departFree_of_requests {d : Dev} {n : Nat} (h : ∀ m ∈ (d.ld n).pool.msgs, msgClass m.msg < 2) : d.departFree n = d := by
  have none_free : ((d.ld n).pool.msgs.filter fun m => !m.sealedEp && decide (2 ≤ msgClass m.msg) && !d.behindWriteback n m) = [] :=
    List.filter_eq_nil_iff.2 fun m hm => by simp [Nat.not_le.2 (h m hm)]
  unfold Dev.departFree
  rw [none_free]
  rfl

/-- R62: a flit out of sequence or damaged changes nothing. -/
theorem Dev.flitIn_of_bad {d : Dev} {n : Nat} {f : Flit} (h : f.good = false ∨ f.seq ≠ (d.ld n).pool.rxSeq) : d.flitIn n f = d := by
  unfold Dev.flitIn
  rcases h with h | h <;> simp [h]

/-- R62: the receive sequence moves on, and the credits the flit returns are the landing's to use. -/
def Landing.flitTaken (f : Flit) (l : Landing) : Landing :=
  { l with pool := { l.pool with rxSeq := l.pool.rxSeq + 1, hostCred := l.pool.hostCred + f.credits } }

/-- R62: a good flit in sequence, here with one message. -/
theorem Dev.flitIn_of_good {d : Dev} {n : Nat} {f : Flit} {m : Msg} (hup : (d.ld n).link.st = .up) (hg : f.good = true)
    (hseq : f.seq = (d.ld n).pool.rxSeq) (hm : f.msgs = [m]) :
    d.flitIn n f = (((d.modLd n (Landing.flitTaken f)).enter n m).departFree n).grantShared n := by
  unfold Dev.flitIn
  dsimp only
  rw [if_neg (by simp [hup, hg, hseq]), hm]
  rfl

/-- R53, R55, R59: a read takes its slot of the pool under its service class and home slice, and uses one credit of its class. -/
def Landing.rdTaken (q : ReadReq) (tags : Nat × Nat) (l : Landing) : Landing :=
  ({ l with pool := { l.pool with
    held := l.pool.held.set 0 (l.pool.held.getD 0 0 - 1)
    next := l.pool.next + 1
    msgs := l.pool.msgs ++ [{ msg := .rd q, cls := tags.1, home := tags.2, ord := l.pool.next, sealedEp := decide (l.ideMem.mode = .containment) }] } } : Landing).noteLow

theorem Landing.rdTaken_msgs (q : ReadReq) (tags : Nat × Nat) (l : Landing) :
    (l.rdTaken q tags).pool.msgs.map (·.msg) = l.pool.msgs.map (·.msg) ++ [.rd q] := by
  simp [Landing.rdTaken, Landing.noteLow]

theorem Landing.rdTaken_held (q : ReadReq) (tags : Nat × Nat) (l : Landing) :
    (l.rdTaken q tags).pool.held.getD 0 0 = l.pool.held.getD 0 0 - 1 := by
  change (l.pool.held.set 0 (l.pool.held.getD 0 0 - 1)).getD 0 0 = _
  cases l.pool.held <;> rfl

theorem Dev.enter_rd {d : Dev} {n : Nat} (q : ReadReq) (hc : 1 ≤ (d.ld n).pool.held.getD 0 0) :
    d.enter n (.rd q) = d.modLd n (Landing.rdTaken q (d.msgTags n (.rd q))) := by
  unfold Dev.enter
  dsimp only
  have covered : ¬ (d.ld n).pool.held.getD (msgClass (.rd q)) 0 < msgCredit (.rd q) := Nat.not_lt.2 hc
  rw [if_neg fun h => covered (of_decide_eq_true (Bool.and_eq_true_iff.1 h).2)]
  refine d.modLd_congr n _ _ ?_
  simp [Landing.rdTaken, msgClass, msgCredit]

/-- A flit on a device at rest: no power entry is in preparation, so its requests abort none (R485). -/
theorem exec_flitReceived {s : State} {n : Ld} {f : Flit} (h : s.dev.Rest) (hn : s.dev.on n = true) (hr : (s.dev.flitIn n f).Rest) :
    exec (.flitReceived n f) s = .next (s.to (s.dev.flitIn n f)) :=
  onUnit_to hn (by rw [h.flitHook]) hr

theorem flitReceived_of_bad {s : State} {n : Ld} {f : Flit} (h : s.dev.Rest) (hn : s.dev.on n = true)
    (hf : f.good = false ∨ f.seq ≠ (s.dev.ld n).pool.rxSeq) : exec (.flitReceived n f) s = .next s := by
  have keeps := Dev.flitIn_of_bad hf
  rw [exec_flitReceived h hn (keeps.symm ▸ h), keeps]
  rfl

/-- R53 to R55, R57, R62: a good flit in sequence whose one message is a read that a credit covers, on a landing with nothing in its pool. -/
theorem flitReceived_rd {s : State} {n : Ld} {f : Flit} {q : ReadReq} (h : s.dev.Rest) (hn : s.dev.on n = true) (hup : (s.dev.ld n).link.st = .up)
    (hg : f.good = true) (hseq : f.seq = (s.dev.ld n).pool.rxSeq) (hm : f.msgs = [.rd q]) (hmsgs : (s.dev.ld n).pool.msgs = [])
    (hc : 1 ≤ (s.dev.ld n).pool.held.getD 0 0) :
    ∃ t, exec (.flitReceived n f) s = .next t ∧ (t.dev.ld n).pool.rxSeq = (s.dev.ld n).pool.rxSeq + 1 ∧
      (t.dev.ld n).pool.hostCred = (s.dev.ld n).pool.hostCred + f.credits ∧ (t.dev.ld n).pool.msgs.map (·.msg) = [.rd q] ∧
      (t.dev.ld n).pool.held.getD 0 0 = (s.dev.ld n).pool.held.getD 0 0 - 1 ∧ t.dev.mem = s.dev.mem ∧ t.dev.slc = s.dev.slc := by
  let d1 := s.dev.modLd n (Landing.flitTaken f)
  have h1 : d1.Rest := h.modLd n _
  have ld1 : d1.ld n = (s.dev.ld n).flitTaken f := Dev.ld_modLd_self h n _
  let d2 := d1.modLd n (Landing.rdTaken q (d1.msgTags n (.rd q)))
  have h2 : d2.Rest := h1.modLd n _
  have ld2 : d2.ld n = ((s.dev.ld n).flitTaken f).rdTaken q (d1.msgTags n (.rd q)) := by
    rw [Dev.ld_modLd_self h1, ld1]
  have msgs2 : (d2.ld n).pool.msgs.map (·.msg) = [.rd q] := by
    rw [ld2, Landing.rdTaken_msgs]
    simp [Landing.flitTaken, hmsgs]
  have waits : d2.departFree n = d2 := Dev.departFree_of_requests fun m hm => by
    have : m.msg ∈ [Msg.rd q] := msgs2 ▸ List.mem_map_of_mem hm
    rw [List.mem_singleton.1 this]
    exact Nat.zero_lt_two
  have ends : s.dev.flitIn n f = d2.grantShared n := by
    rw [Dev.flitIn_of_good hup hg hseq hm, Dev.enter_rd q (ld1 ▸ hc), waits]
  have k := Dev.grantShared_keeps h2 n
  rw [← ends] at k
  refine ⟨_, exec_flitReceived h hn k.rest, ?_, ?_, ?_, ?_, k.mem, k.slc⟩
  · rw [State.to_dev, k.rxSeq, ld2]; rfl
  · rw [State.to_dev, k.hostCred, ld2]; rfl
  · rw [State.to_dev, k.msgs, msgs2]
  · rw [State.to_dev, k.heldRd, ld2, Landing.rdTaken_held]; rfl

/-- R222: a BIConflict is answered at once to a host that can be. -/
theorem exec_biconflict {s : State} {n : Ld} (h : s.dev.Rest) (hn : s.dev.on n = true) (hh : s.dev.hears n = true) (line : BitVec 39) :
    exec (.biconflict n line) s = .next (s.to (s.dev.modLd n fun l => l.sent (.biConflictAck line.toNat))) :=
  onUnit_to hn (Dev.respond_hears h hh _) (h.sent n _)

/-- R61: an acknowledgement that covers no flit of the replay buffer frees nothing. -/
theorem Dev.flitAck_of_later {d : Dev} {n seq : Nat} (h : ∀ f ∈ (d.ld n).pool.replay, seq < f.seq) : d.flitAck n seq = d := by
  have none_done : ((d.ld n).pool.replay.filter fun f => decide (f.seq ≤ seq)) = [] :=
    List.filter_eq_nil_iff.2 fun f hf => by simpa using h f hf
  unfold Dev.flitAck
  simp [none_done]

/-- R60, R62, R63: the replay of every flit in the buffer is counted and reported, and nothing else. -/
theorem Dev.flitReplay_all {d : Dev} {n seq : Nat} (hseq : ∀ f ∈ (d.ld n).pool.replay, seq ≤ f.seq) (hne : (d.ld n).pool.replay ≠ [])
    (hlive : d.linkLive n = true) :
    d.flitReplay n seq = ((d.modLd n fun l => { l with pool := { l.pool with replays := l.pool.replays + 1 } }).bump 0x00D n
      (d.ld n).pool.replay.length).report { src := ldSrc n 0x00, det0 := (d.ld n).pool.replay.length } := by
  have unacked : (if 0 < seq then d.flitAck n (seq - 1) else d) = d :=
    ite_eq_right_iff.2 fun pos => Dev.flitAck_of_later fun f hf => by have := hseq f hf; omega
  have again : ((d.ld n).pool.replay.filter fun f => decide (seq ≤ f.seq)) = (d.ld n).pool.replay :=
    List.filter_eq_self.2 fun f hf => by simpa using hseq f hf
  unfold Dev.flitReplay
  simp [unacked, again, hne, hlive]

/-- R60 to R63 with the Ferryman unavailable: of the pool a replay changes the count of replays alone. -/
theorem flitReplay_pool {s : State} {n : Ld} {seq : Nat} (h : s.dev.Rest) (hn : s.dev.on n = true) (hb : s.dev.fmnBusy = true)
    (hseq : ∀ f ∈ (s.dev.ld n).pool.replay, seq ≤ f.seq) (hne : (s.dev.ld n).pool.replay ≠ []) (hlive : s.dev.linkLive n = true) :
    ∃ t, exec (.flitReplay n seq) s = .next t ∧ (t.dev.ld n).pool = { (s.dev.ld n).pool with replays := (s.dev.ld n).pool.replays + 1 } := by
  have counted := (h.modLd n fun l => { l with pool := { l.pool with replays := l.pool.replays + 1 } }).bump 0x00D n (s.dev.ld n).pool.replay.length none none
  obtain ⟨reported, same⟩ := counted.report (by simpa using hb) { src := ldSrc n 0x00, det0 := (s.dev.ld n).pool.replay.length } (ldSrc_noFence n).1
  refine ⟨_, onUnit_to hn (Dev.flitReplay_all hseq hne hlive) reported, ?_⟩
  exact (same.pool n).trans (by rw [Dev.ld_bump, Dev.ld_modLd_self h])

/-- Settles O13: one lemma for each of the four things a flit does with its credits. -/
theorem creditsFollowTheirFlits : Obligations.CreditsFollowTheirFlits := by
  unfold Obligations.CreditsFollowTheirFlits
  intro s n f hrest hn
  have h := s.dev.atRest_iff.1 hrest
  refine ⟨flitReceived_of_bad h hn, fun q => flitReceived_rd h hn, fun line hh => ⟨_, exec_biconflict h hn hh line, ?_⟩, fun seq hb => flitReplay_pool h hn hb⟩
  rw [State.to_dev, Dev.ld_modLd_self h]
  exact ⟨rfl, rfl, rfl⟩

end Sys2Proof.Machine
end

section
/-! A message that no credit covers (R58), and the grants of shared slots that the same flit brings (R57 rule 2). -/
namespace Sys2Proof.Machine

/-- Landing 0 is Up with its minima advertised (R55), but the host holds no posted credit; the Ferryman is unavailable, as the statement asks. -/
def noPostedCredit : State :=
  { dev := { fmnBusy := true, lnd := [(0, { link := { st := .up }, pool := { held := [256, 256, 128, 0, 32, 64] } })] } }

/-- A good flit in sequence, with one posted message. -/
def postedFlit : Flit := { seq := 0, msgs := [.posted 0] }

/-- R57 rule 2: the posted class stands under a quarter of its minimum and the pool has room, so the flit whose message is discarded still grants the
class 16 credits; CXL.io credits go out as flow control, with no flit to wait for. -/
theorem flitIn_posted_grants :
    (noPostedCredit.dev.flitIn 0 postedFlit).atRest = true ∧
      ((noPostedCredit.dev.flitIn 0 postedFlit).ld 0).pool.held = [256, 256, 128, 16, 32, 64] := by
  decide +kernel

/-- Refutes O19: the landing does not keep the credits its host holds. A posted message that no credit covers is discarded, and the grants of shared slots
that follow every accepted flit (R57 rule 2) raise the posted credits from 0 to 16. -/
theorem not_uncoveredMessageIsDiscarded : ¬ Obligations.UncoveredMessageIsDiscarded := by
  unfold Obligations.UncoveredMessageIsDiscarded
  intro h
  obtain ⟨rests, granted⟩ := flitIn_posted_grants
  have hrest : noPostedCredit.dev.atRest = true := by decide +kernel
  have runs := exec_flitReceived (s := noPostedCredit) (n := 0) (f := postedFlit) ((Dev.atRest_iff _).1 hrest) rfl ((Dev.atRest_iff _).1 rests)
  obtain ⟨t, next, -, -, -, held, -⟩ := h noPostedCredit 0 postedFlit (.posted 0) hrest rfl rfl rfl rfl rfl (by decide) (by decide) rfl rfl rfl
    (by decide +kernel)
  obtain rfl : noPostedCredit.to (noPostedCredit.dev.flitIn 0 postedFlit) = t := Host.Outcome.next.inj (runs.symm.trans next)
  exact absurd (granted.symm.trans held) (by decide)

end Sys2Proof.Machine
end

section
/-! The nominal limit (R99): what the channels have installed, and the blocks that the records hold. -/
namespace Sys2Proof.Machine

/-- Two filters give the same sum where they differ only on terms that are 0. -/
theorem sum_map_filter_congr {α : Type} (p q : α → Bool) (f : α → Nat) (l : List α) (h : ∀ x ∈ l, p x = q x ∨ f x = 0) :
    ((l.filter p).map f).sum = ((l.filter q).map f).sum := by
  induction l with
  | nil => rfl
  | cons x l ih =>
    have tails := ih fun y hy => h y (List.mem_cons_of_mem x hy)
    rcases h x List.mem_cons_self with same | zero
    · cases hq : q x <;> simp [same, hq, tails]
    · cases hp : p x <;> cases hq : q x <;> simp [hp, hq, zero, tails]

theorem nodup_eraseDups {α : Type} [BEq α] [LawfulBEq α] : ∀ l : List α, l.eraseDups.Nodup
  | [] => .nil
  | a :: l => by
    rw [List.eraseDups_cons]
    exact List.nodup_cons.2 ⟨by simp, nodup_eraseDups _⟩
  termination_by l => l.length
  decreasing_by exact Nat.lt_succ_of_le (List.length_filter_le _ l)

theorem Chan.ne_fenced_of_usable {x : Chan} (h : x.usable = true) : x.st ≠ .fenced := by
  intro hf
  simp [Chan.usable, hf] at h

/-- R275: a channel with no DIMM adds nothing. -/
theorem Chan.bytes_of_empty {x : Chan} (h : x.pop.dpc = 0) : x.bytes = 0 := by
  simp [Chan.bytes, h]

/-- P of R99 as one sum over the channels in use. -/
theorem Dev.installed_eq_sum (d : Dev) : d.installed = (((List.range 16).filter d.chOk).map fun c => (d.ch c).bytes).sum := by
  have inUse : d.units.filter d.chOk = (List.range 16).filter d.chOk := by
    rw [Dev.units, List.filter_filter]
    exact List.filter_congr fun c _ => by simp +contextual [Dev.chOk]
  rw [Dev.installed, inUse, List.sum_eq_foldl, List.foldl_map]

/-- R99: where every channel with DRAM is fenced or in use, P is what lies on the channels neither fused off nor fenced. -/
theorem Dev.installed_eq_sum_unfenced {d : Dev}
    (h : ∀ c, c < 16 → d.on c = true → (d.ch c).st = .fenced ∨ (d.ch c).usable = true ∨ (d.ch c).pop.dpc = 0) :
    d.installed = (((List.range 16).filter fun c => d.on c && decide ((d.ch c).st ≠ .fenced)).map fun c => (d.ch c).bytes).sum := by
  rw [Dev.installed_eq_sum]
  refine sum_map_filter_congr _ _ _ _ fun c hc => ?_
  cases hon : d.on c with
  | false => exact .inl (by simp [Dev.chOk, hon])
  | true =>
    rcases h c (List.mem_range.1 hc) hon with fenced | usable | empty
    · exact .inl (by simp [Dev.chOk, Chan.usable, fenced])
    · exact .inl (by simp [Dev.chOk, hon, usable, Chan.ne_fenced_of_usable usable])
    · exact .inr (Chan.bytes_of_empty empty)

/-- The blocks that the records hold, one entry for each record that holds one. -/
theorem Dev.mem_recBlocks (d : Dev) (b : Nat) :
    (b ∈ d.recList.flatMap fun r => (List.range (r.2.nblk1 + 1)).map (r.2.base + ·)) ↔ ∃ r ∈ d.recList, r.2.base ≤ b ∧ b ≤ r.2.base + r.2.nblk1 := by
  simp only [List.mem_flatMap, List.mem_map, List.mem_range]
  refine exists_congr fun r => and_congr_right fun _ => ⟨?_, fun ⟨low, high⟩ => ⟨b - r.2.base, by omega, by omega⟩⟩
  rintro ⟨k, hk, rfl⟩
  omega

/-- R99: a block counts once, however many records hold it. -/
theorem Dev.usedBlocks_eq_length_filter {d : Dev} (h : ∀ r ∈ d.recList, r.2.base + r.2.nblk1 < d.regionBlocks) :
    d.usedBlocks = ((List.range d.regionBlocks).filter fun b => d.recList.any fun r => decide (r.2.base ≤ b) && decide (b ≤ r.2.base + r.2.nblk1)).length := by
  refine ((List.perm_ext_iff_of_nodup (nodup_eraseDups _) (List.nodup_range.filter _)).2 fun b => ?_).length_eq
  rw [List.mem_eraseDups, Dev.mem_recBlocks]
  simp only [List.mem_filter, List.mem_range, List.any_eq_true, Bool.and_eq_true, decide_eq_true_eq]
  exact ⟨fun ⟨r, hr, held⟩ => ⟨Nat.lt_of_le_of_lt held.2 (h r hr), r, hr, held⟩, And.right⟩

/-- Settles O3: the channels that the model leaves out of P hold nothing, and the records' blocks without repetition are those of the region that some record holds. -/
theorem nominalLimitFollowsTheDram : Obligations.NominalLimitFollowsTheDram := by
  unfold Obligations.NominalLimitFollowsTheDram
  refine fun d => ⟨fun hch => ?_, Dev.usedBlocks_eq_length_filter⟩
  rw [Dev.nominal, Dev.installed_eq_sum_unfenced hch, Nat.div_div_eq_div_mul]
  rfl

end Sys2Proof.Machine
end

section
/-! The HDM decoder's commit and the label fields it locks (R79 to R82). -/
namespace Sys2Proof.Machine

/-- Writing back what a table holds at a place, when that is not the default, leaves the table. -/
theorem tput_tget_from {α : Type} [DecidableEq α] (z : α) (t : Tbl α) (n : Nat) {lo : Nat} (h : Tbl.risesFrom lo t = true) (hne : tget z t n ≠ z) :
    tput z t n (tget z t n) = t := by
  induction t generalizing lo with
  | nil => exact absurd rfl hne
  | cons x t ih =>
    obtain ⟨k, w⟩ := x
    simp only [Tbl.risesFrom, Bool.and_eq_true, decide_eq_true_eq] at h
    obtain ⟨-, rises⟩ := h
    rcases Nat.lt_trichotomy k n with lt | rfl | gt
    · have later : tget z ((k, w) :: t) n = tget z t n := if_neg (Nat.ne_of_lt lt)
      rw [later] at hne ⊢
      simp [tput, lt, ih rises hne]
    · have here : tget z ((k, w) :: t) k = w := if_pos rfl
      rw [here] at hne ⊢
      simp [tput, hne]
    · have absent : tget z ((k, w) :: t) n = z := (if_neg (Nat.ne_of_gt gt)).trans (tget_low z t rises (Nat.lt_succ_of_lt gt))
      exact absurd absent hne

/-- A change that leaves a landing as it was leaves the device, when that landing is listed, not the default. -/
theorem Dev.modLd_of_fixed {d : Dev} (h : d.Rest) {n : Nat} {f : Landing → Landing} (hf : f (d.ld n) = d.ld n) (hne : d.ld n ≠ {}) : d.modLd n f = d := by
  have lnd : tmod {} d.lnd n f = d.lnd := by
    rw [tmod, show tget {} d.lnd n = d.ld n from rfl, hf]
    exact tput_tget_from ({} : Landing) d.lnd n h.tidy.lnd hne
  rw [Dev.modLd, lnd]

/-- R81, R79: the settings with which a commit succeeds. -/
theorem Dev.decoderOk_iff (d : Dev) (n size dbase iw ig : Nat) :
    (d.decoderOk n size dbase iw && interleaveOk iw ig) = true ↔
      size = iw * 2 ^ ((d.ld n).acc.lpos.toNat + (d.ld n).acc.lbits.toNat) ∧ dbase % 2 ^ 28 = 0 ∧
        dbase + 2 ^ (d.ld n).acc.lpos.toNat ≤ d.regionBlocks * 2 ^ 28 ∧ (d.ld n).acc.lbits.toNat ≤ 4 ∧ 28 ≤ (d.ld n).acc.lpos.toNat ∧
        (d.ld n).acc.lpos.toNat ≤ 45 ∧ iw ∈ [1, 2, 4, 8] ∧ ig ∈ [256, 512, 1024, 2048, 4096, 8192, 16384] := by
  simp only [Dev.decoderOk, interleaveOk, Bool.and_eq_true, decide_eq_true_eq, and_assoc]

/-- R82: a committed decoder is locked. -/
theorem Dev.commitDecoder_of_committed {d : Dev} {n : Nat} (hc : (d.ld n).acc.dec.committed = true) (hbase size dbase iw ig : Nat) :
    d.commitDecoder n hbase size dbase iw ig = d := by
  simp [Dev.commitDecoder, hc]

/-- R81: what a commit with valid settings does. -/
theorem Dev.commitDecoder_of_ok {d : Dev} {n : Nat} (hlive : d.linkLive n = true) (hc : (d.ld n).acc.dec.committed = false) {size dbase iw ig : Nat}
    (hok : (d.decoderOk n size dbase iw && interleaveOk iw ig) = true) (hbase : Nat) :
    d.commitDecoder n hbase size dbase iw ig = d.modLd n fun l =>
      { l with acc := { l.acc with dec := { hbase, size, dbase, iw, ig, committed := true, errNot := false } }
               link := { l.link with memen := d.active && decide (l.link.st = .up) && decide (1 ≤ l.link.speed.toNat) } } := by
  simp [Dev.commitDecoder, hlive, hc, hok, Landing.memOk]

/-- R81: a commit with any other settings is refused. -/
theorem Dev.commitDecoder_of_not_ok {d : Dev} {n : Nat} (hlive : d.linkLive n = true) (hc : (d.ld n).acc.dec.committed = false) {size dbase iw ig : Nat}
    (hok : ¬ (d.decoderOk n size dbase iw && interleaveOk iw ig) = true) (hbase : Nat) :
    d.commitDecoder n hbase size dbase iw ig = d.modLd n fun l =>
      { l with acc := { l.acc with dec := { l.acc.dec with errNot := true, committed := false } }, link := { l.link with memen := false } } := by
  simp [Dev.commitDecoder, hlive, hc, hok, Landing.memOk]

/-- A commit ends in the device that `commitDecoder` computes, when that one is at rest. -/
theorem exec_hdmDecoderCommit {s : State} {n : Ld} (hn : s.dev.on n = true) {hbase size dbase : BitVec 64} {iw ig : Nat} {d : Dev}
    (hd : s.dev.commitDecoder n hbase.toNat size.toNat dbase.toNat iw ig = d) (hr : d.Rest) :
    exec (.hdmDecoderCommit n hbase size dbase iw ig) s = .next (s.to d) :=
  onUnit_to hn hd hr

/-- Table 13.5: of the landing page's registers a 4-byte write at 8h reaches the one of LBITS and LPOS alone. -/
theorem Dev.wrLandingPage_eq_wrAlias (d : Dev) (n : Nat) (v : BitVec 64) : d.wrLandingPage n 8 4 v = d.wrAlias n (bits v.toNat 0 32) := by
  simp [Dev.wrLandingPage, Dev.hostWrite, hostSized, word4, Dev.onWord]

/-- A write of LBITS and LPOS ends in the device that `wrAlias` computes. -/
theorem exec_registerWrite_wrAlias {s : State} {n : Ld} (h : s.dev.Rest) (hn : s.dev.on n = true) (v : BitVec 64) :
    exec (.registerWrite (.landingPage n 8 4) v) s = .next (s.to (s.dev.wrAlias n (bits v.toNat 0 32))) :=
  onUnit_to hn (s.dev.wrLandingPage_eq_wrAlias n v) (h.modLd n _ fun l hl => by split <;> exact hl)

/-- R82: LBITS and LPOS are locked by the commit. -/
theorem Dev.wrAlias_of_committed {d : Dev} (h : d.Rest) {n : Nat} (hc : (d.ld n).acc.dec.committed = true) (v : Nat) : d.wrAlias n v = d := by
  have notDefault : d.ld n ≠ {} := fun e => by simp [e] at hc
  exact Dev.modLd_of_fixed h (if_pos hc) notDefault

/-- R81: before the commit LBITS and LPOS are stored as written. -/
theorem Dev.wrAlias_of_uncommitted {d : Dev} {n : Nat} (hc : (d.ld n).acc.dec.committed = false) (v : Nat) :
    d.wrAlias n (bits v 0 32) = d.modLd n fun l =>
      { l with acc := { l.acc with lbits := BitVec.ofNat 3 v, lpos := BitVec.ofNat 6 (v / 256) } } := by
  have lbits : BitVec.ofNat 3 (bits v 0 32) = BitVec.ofNat 3 v := BitVec.eq_of_toNat_eq (by simp only [BitVec.toNat_ofNat, bits]; omega)
  have lpos : BitVec.ofNat 6 (bits (bits v 0 32) 8 6) = BitVec.ofNat 6 (v / 256) := BitVec.eq_of_toNat_eq (by simp only [BitVec.toNat_ofNat, bits]; omega)
  refine Dev.modLd_congr d n _ _ ?_
  simp [hc, lbits, lpos]

/-- Settles O18: the write of LBITS and LPOS before and after the commit, and the three outcomes of a commit. -/
theorem decoderCommitIsChecked : Obligations.DecoderCommitIsChecked := by
  unfold Obligations.DecoderCommitIsChecked
  intro s n hbase size dbase iw ig hrest hn hlive l cmd ok
  have h := s.dev.atRest_iff.1 hrest
  have hok : (s.dev.decoderOk n size.toNat dbase.toNat iw && interleaveOk iw ig) = true ↔ ok := s.dev.decoderOk_iff ..
  refine ⟨fun v => ?_, fun hc => ?_, fun hc valid => ?_, fun hc invalid => ?_⟩
  · rw [exec_registerWrite_wrAlias h hn]
    cases hc : l.acc.dec.committed with
    | true => rw [Dev.wrAlias_of_committed h hc]; rfl
    | false => rw [Dev.wrAlias_of_uncommitted hc]; rfl
  · exact exec_hdmDecoderCommit hn (Dev.commitDecoder_of_committed hc ..) h
  · exact exec_hdmDecoderCommit hn (Dev.commitDecoder_of_ok hlive hc (hok.2 valid) _) (h.modLd n _)
  · refine ⟨_, exec_hdmDecoderCommit hn (Dev.commitDecoder_of_not_ok hlive hc (fun e => invalid (hok.1 e)) _) (h.modLd n _), ?_⟩
    rw [State.to_dev, Dev.ld_modLd_self h]
    exact ⟨rfl, rfl, rfl⟩

end Sys2Proof.Machine
end

section
/-! The page-map entries of a block (R113): the fold is linear over exclusive or, so within a group of pages that share an index it moves their low bits onto the storage slots, one page a slot. -/
namespace Sys2Proof.Machine

theorem bits_xor (x y lo len : Nat) : bits (x ^^^ y) lo len = bits x lo len ^^^ bits y lo len := by
  simp [bits, Nat.xor_div_two_pow, Nat.xor_mod_two_pow]

/-- R24: every step of the fold is an exclusive or of fields, so the whole fold is linear. -/
theorem fold_xor (x y : Nat) : fold (x ^^^ y) = fold x ^^^ fold y := by
  simp only [fold, List.range, List.range.loop, List.foldl, bits_xor, Nat.zero_xor]
  ac_rfl

theorem fold_of_lt : ∀ r < 2 ^ 4, fold r = r := by decide

/-- Number of low page bits that choose among the storage slots: DPA[15:12], or DPA[14:12] on the CQ8160-H. -/
def Dev.slotBits (d : Dev) : Nat := if d.codeH then 3 else 4

/-- The place of a page's storage slot among the device's slots (Table 1.4, Spread). -/
def Dev.slotKey (d : Dev) (page : Nat) : Nat := if d.codeH then fold page % 2 ^ 3 ^^^ fold page / 2 ^ 3 else fold page

theorem Dev.slotKey_lt (d : Dev) (page : Nat) : d.slotKey page < 2 ^ d.slotBits := by
  have hs := fold_lt page
  unfold Dev.slotKey Dev.slotBits
  split_ifs
  · exact Nat.xor_lt_two_pow (Nat.mod_lt _ (by decide)) (by omega)
  · exact hs

theorem Dev.slotKey_xor (d : Dev) (x y : Nat) : d.slotKey (x ^^^ y) = d.slotKey x ^^^ d.slotKey y := by
  unfold Dev.slotKey
  split_ifs
  · rw [fold_xor, Nat.xor_mod_two_pow, Nat.xor_div_two_pow]
    ac_rfl
  · exact fold_xor x y

/-- R113: with the higher bits zero, the low page bits are the place of the slot itself. -/
theorem Dev.slotKey_of_lt (d : Dev) {r : Nat} (hr : r < 2 ^ d.slotBits) : d.slotKey r = r := by
  unfold Dev.slotBits at hr
  unfold Dev.slotKey
  split_ifs at hr ⊢
  · rw [fold_of_lt r (by omega), Nat.mod_eq_of_lt hr, Nat.div_eq_of_lt hr, Nat.xor_zero]
  · exact fold_of_lt r hr

/-- R113: the slot and the higher bits fix the low page bits. -/
theorem Dev.eq_of_slotKey_eq (d : Dev) {p q : Nat} (high : p / 2 ^ d.slotBits = q / 2 ^ d.slotBits) (key : d.slotKey p = d.slotKey q) : p = q := by
  have low : p ^^^ q < 2 ^ d.slotBits :=
    (Nat.div_eq_zero_iff_lt (Nat.two_pow_pos _)).1 (by rw [Nat.xor_div_two_pow, high, Nat.xor_self])
  have differ := d.slotKey_xor p q
  rw [d.slotKey_of_lt low, key, Nat.xor_self] at differ
  exact Nat.eq_of_xor_eq_zero differ

/-- R113: under any higher bits, some low page bits lead to each slot. -/
theorem Dev.exists_slotKey_eq (d : Dev) (a : Nat) {k : Nat} (hk : k < 2 ^ d.slotBits) : ∃ p, p / 2 ^ d.slotBits = a ∧ d.slotKey p = k := by
  let base := 2 ^ d.slotBits * a
  have low : d.slotKey base ^^^ k < 2 ^ d.slotBits := Nat.xor_lt_two_pow (d.slotKey_lt base) hk
  refine ⟨base ^^^ (d.slotKey base ^^^ k), ?_, ?_⟩
  · rw [Nat.xor_div_two_pow, Nat.div_eq_of_lt low, Nat.xor_zero, Nat.mul_div_cancel_left _ (Nat.two_pow_pos _)]
  · rw [d.slotKey_xor, d.slotKey_of_lt low, Nat.xor_xor_cancel_left]

/-- The storage slots in the order of their places: the units not fused off. -/
def Dev.slots (d : Dev) : List Nat := if d.codeH then [0, 1, 4, 5, 8, 9, 12, 13] else List.range 16

theorem Dev.slots_length (d : Dev) : d.slots.length = 2 ^ d.slotBits := by
  unfold Dev.slots Dev.slotBits
  split_ifs <;> rfl

theorem Dev.slots_nodup (d : Dev) : d.slots.Nodup := by
  unfold Dev.slots
  split_ifs
  · decide
  · exact List.nodup_range

theorem Dev.lt_of_mem_slots {d : Dev} {c : Nat} (h : c ∈ d.slots) : c < 16 := by
  unfold Dev.slots at h
  split_ifs at h
  · exact (by decide : ∀ x ∈ [0, 1, 4, 5, 8, 9, 12, 13], x < 16) c h
  · exact List.mem_range.1 h

/-- Table 1.4, Spread, on both ordering codes. -/
theorem Dev.slots_getElem?_slotKey (d : Dev) (page : Nat) : d.slots[d.slotKey page]? = some (d.spread page) := by
  have hk := d.slotKey_lt page
  rw [← d.slots_length] at hk
  rw [List.getElem?_eq_getElem hk, Option.some_inj]
  cases hd : d.codeH with
  | false => simp [Dev.spread_of_codeF hd, Dev.slots, Dev.slotKey, hd]
  | true =>
    rw [← List.getD_eq_getElem _ 0 hk, Dev.spread_of_codeH hd]
    simp [Dev.slots, Dev.slotKey, hd]

theorem Dev.spread_mem_slots (d : Dev) (page : Nat) : d.spread page ∈ d.slots :=
  List.mem_of_getElem? (d.slots_getElem?_slotKey page)

/-- Pages of one slot have one place. -/
theorem Dev.slotKey_eq_of_spread_eq {d : Dev} {p q : Nat} (h : d.spread p = d.spread q) : d.slotKey p = d.slotKey q := by
  have hp : d.slotKey p < d.slots.length := d.slots_length ▸ d.slotKey_lt p
  exact (List.getElem?_inj hp d.slots_nodup).1 (by rw [d.slots_getElem?_slotKey, d.slots_getElem?_slotKey, h])

/-- R113: under any higher page bits, every slot has a page. -/
theorem Dev.exists_spread_eq {d : Dev} {c : Nat} (hc : c ∈ d.slots) (a : Nat) : ∃ p, p / 2 ^ d.slotBits = a ∧ d.spread p = c := by
  obtain ⟨k, hk, rfl⟩ := List.getElem_of_mem hc
  obtain ⟨p, high, key⟩ := d.exists_slotKey_eq a (d.slots_length ▸ hk)
  refine ⟨p, high, Option.some_inj.1 ?_⟩
  rw [← d.slots_getElem?_slotKey, key, List.getElem?_eq_getElem hk]

/-- The index of a page's entry within its block's chunk: the page bits above those that choose the slot. -/
def Dev.entIndex (d : Dev) (page : Nat) : Nat := page / 2 ^ d.slotBits % 2 ^ (16 - d.slotBits)

/-- R113: DPA[27:16] on the CQ8160-F, DPA[27:15] on the CQ8160-H. -/
theorem Dev.entIndex_eq (d : Dev) (page : Nat) :
    d.entIndex page = if d.codeH then page * 4096 / 2 ^ 15 % 2 ^ 13 else page * 4096 / 2 ^ 16 % 2 ^ 12 := by
  unfold Dev.entIndex Dev.slotBits
  split_ifs <;> omega

/-- The block and the index together are all the page bits above those that choose the slot. -/
theorem Dev.pageHigh_eq_iff (d : Dev) (page b : Nat) {i : Nat} (hi : i < 2 ^ (16 - d.slotBits)) :
    page / 2 ^ d.slotBits = b * 2 ^ (16 - d.slotBits) + i ↔ page / 2 ^ 16 = b ∧ d.entIndex page = i := by
  unfold Dev.slotBits at hi
  unfold Dev.entIndex Dev.slotBits
  split_ifs at hi ⊢ <;> omega

/-- R113: within a block, a slot has one page at most at an index. -/
theorem Dev.eq_of_entIndex_eq {d : Dev} {p q b : Nat} (hp : p / 2 ^ 16 = b) (hq : q / 2 ^ 16 = b) (slot : d.spread p = d.spread q)
    (index : d.entIndex p = d.entIndex q) : p = q := by
  have hi : d.entIndex q < 2 ^ (16 - d.slotBits) := Nat.mod_lt _ (Nat.two_pow_pos _)
  have high := ((d.pageHigh_eq_iff p b hi).2 ⟨hp, index⟩).trans ((d.pageHigh_eq_iff q b hi).2 ⟨hq, rfl⟩).symm
  exact d.eq_of_slotKey_eq high (Dev.slotKey_eq_of_spread_eq slot)

/-- R113: within a block, a slot has a page at every index. -/
theorem Dev.exists_entIndex_eq {d : Dev} {c i : Nat} (b : Nat) (hc : c ∈ d.slots) (hi : i < 2 ^ (16 - d.slotBits)) :
    ∃ p, p / 2 ^ 16 = b ∧ d.spread p = c ∧ d.entIndex p = i := by
  obtain ⟨p, high, slot⟩ := Dev.exists_spread_eq hc (b * 2 ^ (16 - d.slotBits) + i)
  obtain ⟨block, index⟩ := (d.pageHigh_eq_iff p b hi).1 high
  exact ⟨p, block, slot, index⟩

/-- R110: the partner differs in bit 3. -/
theorem partner_eq_xor : ∀ c < 16, partner c = c ^^^ 8 := by decide

/-- R113: the bytes of both copies, in terms of the page's segment, slot and index. -/
theorem Dev.entOffsets_of_seg {d : Dev} {page g : Nat} (hseg : (tget {} d.pm.blocks (pageBlock page)).seg = some g) :
    d.entOffsets page = (d.pmbase (d.spread page) + g * d.chunk + d.entIndex page * 16,
      d.pmbase (d.spread page ^^^ 8) + d.pm.segs * d.chunk + g * d.chunk + d.entIndex page * 16) := by
  have index : (if d.codeH then bits page 3 13 else bits page 4 12) = d.entIndex page := by
    unfold Dev.entIndex Dev.slotBits
    split_ifs <;> rfl
  simp only [Dev.entOffsets, hseg, Option.getD_some, index, partner_eq_xor _ (Dev.lt_of_mem_slots (d.spread_mem_slots page))]

/-- Settles O2: the offsets by `Dev.entOffsets_of_seg`; no two pages of a slot share an index and none is left unused, because the fold moves the low page bits onto the slots one to one. -/
theorem everyPageHasItsOwnEntry : Obligations.EveryPageHasItsOwnEntry := by
  unfold Obligations.EveryPageHasItsOwnEntry
  intro d b g hseg chunk idx
  have hidx (page : Nat) : idx page = d.entIndex page := (d.entIndex_eq page).symm
  have pages : (if d.codeH then 8192 else 4096) = 2 ^ (16 - d.slotBits) := by
    unfold Dev.slotBits
    split_ifs <;> rfl
  refine ⟨fun page hb => ?_, fun p q hp hq slot index => ?_, fun c i hc hi => ?_⟩
  · subst hb
    rw [hidx]
    exact Dev.entOffsets_of_seg hseg
  · rw [hidx, hidx] at index
    exact Dev.eq_of_entIndex_eq hp hq slot index
  · simp only [hidx]
    exact Dev.exists_entIndex_eq b hc (pages ▸ hi)

end Sys2Proof.Machine
end

section
/-! Key import (R426): its answers, and what the arrival of the base keys leaves in the context record, the Tollhouse and the key tables (R238, R241 to R243). -/
namespace Sys2Proof.Machine

/-- What `e` keeps of `d` when working keys `w` of context `c` are put into key tables, and the slices `l` that hold them. -/
structure KeysIn (c : Nat) (w : BitVec 256 × BitVec 256) (l : List Nat) (d e : Dev) : Prop where
  rest : e.Rest
  ctx : e.ctx = d.ctx
  nonce : e.nonce = d.nonce
  tlh : e.tlh = d.tlh
  mem : e.mem = d.mem
  keys : ∀ m ∈ l, tget none (e.ms m).sl.keys c = some w

theorem KeysIn.nil {d : Dev} (h : d.Rest) (c : Nat) (w : BitVec 256 × BitVec 256) : KeysIn c w [] d d :=
  ⟨h, rfl, rfl, rfl, rfl, fun _ hm => absurd hm List.not_mem_nil⟩

/-- One more slice takes the keys. -/
theorem KeysIn.cons {c : Nat} {w : BitVec 256 × BitVec 256} {l : List Nat} {d e : Dev} (k : KeysIn c w l d e) (n : Nat) :
    KeysIn c w (n :: l) d (e.modSeal n fun s => { s with keys := tput none s.keys c (some w) }) := by
  refine ⟨k.rest.modMs n _, k.ctx, k.nonce, k.tlh, k.mem, fun m hm => ?_⟩
  rw [Dev.modSeal, Dev.ms_modMs k.rest]
  split
  next => exact tget_tput_same _ _ (Option.some_ne_none w) _ _
  next other => exact k.keys m ((List.mem_cons.1 hm).resolve_left other)

/-- R243: the key bus goes from slice to slice; the working keys are the same at each, for the loading changes neither context nor nonce. -/
theorem KeysIn.foldl {c : Nat} {base : BitVec 256 × BitVec 256} {d : Dev} (l : List Nat) {done : List Nat} {e : Dev}
    (k : KeysIn c (d.working c base) done d e) :
    KeysIn c (d.working c base) (l.reverse ++ done) d
      (l.foldl (fun d n => d.modSeal n fun s => { s with keys := tput none s.keys c (some (d.working c base)) }) e) := by
  induction l generalizing done e with
  | nil => exact k
  | cons n l ih =>
    have same : e.working c base = d.working c base := by rw [Dev.working, Dev.ctxOf, k.ctx, k.nonce]; rfl
    rw [List.foldl_cons, same, List.reverse_cons, List.append_assoc]
    exact ih (k.cons n)

theorem Dev.loadKeys_keysIn {d : Dev} (h : d.Rest) {c : Nat} {base : BitVec 256 × BitVec 256} (hw : tget none d.tlh.wrapped c = some base) :
    KeysIn c (d.working c base) d.units.reverse d (d.loadKeys c) := by
  have loaded := (KeysIn.nil h c (d.working c base)).foldl d.units
  rw [List.append_nil] at loaded
  simpa only [Dev.loadKeys, hw] using loaded

theorem Dev.ctxOf_modCtx {d : Dev} (h : d.Rest) (c : Nat) (f : CtxRec → CtxRec) : (d.modCtx c f).ctxOf c = f (d.ctxOf c) := by
  rw [Dev.ctxOf, Dev.modCtx, tmod, tget_tput _ _ _ _ _ h.tidy.ctx, if_pos rfl, Dev.ctxOf]

/-- What the arrival of base keys for context `c` leaves. -/
structure KeysArrived (c : Nat) (base : BitVec 256 × BitVec 256) (d e : Dev) : Prop where
  rest : e.Rest
  ctx : e.ctxOf c = { d.ctxOf c with st := .enabled, gen := (d.ctxOf c).gen + 1#8 }
  wrapped : tget none e.tlh.wrapped c = some base
  keys : ∀ m ∈ d.units, tget none (e.ms m).sl.keys c = some (d.working c base)
  mem : e.mem = d.mem

/-- R238, R242, R243: the context is Enabled with its next key generation, its base keys are kept wrapped, and every enabled slice has its working keys. -/
theorem Dev.keyArrives_arrived {d : Dev} (h : d.Rest) (c : Nat) (base : BitVec 256 × BitVec 256) : KeysArrived c base d (d.keyArrives c base) := by
  let kept : Dev := { d with tlh := { d.tlh with wrapped := tput none d.tlh.wrapped c (some base) } }
  let on : Dev := kept.modCtx c fun r => { r with st := .enabled, gen := r.gen + 1#8 }
  have keptRest : kept.Rest := h.same
  have onRest : on.Rest := keptRest.modCtx _ (rises_tput _ _ _ _ h.tidy.ctx)
  have enabled : on.ctxOf c = { d.ctxOf c with st := .enabled, gen := (d.ctxOf c).gen + 1#8 } := Dev.ctxOf_modCtx keptRest c _
  have wrapped : tget none on.tlh.wrapped c = some base := tget_tput_same _ _ (Option.some_ne_none base) _ _
  have working : on.working c base = d.working c base := by rw [Dev.working, enabled]; rfl
  have loaded : KeysIn c (on.working c base) on.units.reverse on (d.keyArrives c base) := Dev.loadKeys_keysIn onRest wrapped
  refine ⟨loaded.rest, ?_, ?_, fun m hm => ?_, loaded.mem⟩
  · rw [Dev.ctxOf, loaded.ctx, ← enabled, Dev.ctxOf]
  · rw [loaded.tlh, wrapped]
  · rw [← working]
    exact loaded.keys m (List.mem_reverse.2 hm)

/-- R426: without a session the request is a session error. -/
theorem Dev.importDoe_of_no_session {d : Dev} {n : Nat} (hb : d.tlhBusy = false) (hs : d.hasSession n = false) (c keys : Nat) (k0 k1 : BitVec 256) :
    d.importDoe n c keys k0 k1 = d.doeAnswer n 3 := by
  simp [Dev.importDoe, hb, hs]

/-- In a session, or while the Tollhouse is busy, the response carries the status of the import. -/
theorem Dev.importDoe_of_status {d e : Dev} {n c keys st : Nat} {k0 k1 : BitVec 256} (hs : d.hasSession n = true ∨ d.tlhBusy = true)
    (hst : d.keyImport n c keys false k0 k1 = (st, e)) : d.importDoe n c keys k0 k1 = e.doeAnswer n 1 (le 1 st ++ zeros 3) := by
  rcases hs with hs | hs <;> simp [Dev.importDoe, hs, hst]

/-- The answer to a DOE request leaves a device at rest. -/
theorem Dev.Rest.doeAnswer {d : Dev} (h : d.Rest) (n code : Nat) (out : List Byte) : (d.doeAnswer n code out).Rest := h.modLd n _

theorem exec_keyImport {s : State} {n : Ld} (hn : s.dev.on n = true) {c keys : Nat} {k0 k1 : BitVec 256} {d : Dev}
    (hd : s.dev.importDoe n c keys k0 k1 = d) (hr : d.Rest) : exec (.keyImport n c keys k0 k1) s = .next (s.to d) :=
  onUnit_to hn hd hr

/-- A refused import changes nothing but the answer. -/
theorem exec_keyImport_refused {s : State} {n : Ld} (h : s.dev.Rest) (hn : s.dev.on n = true) {c keys st : Nat} {k0 k1 : BitVec 256}
    (hs : s.dev.hasSession n = true ∨ s.dev.tlhBusy = true) (hst : s.dev.keyImport n c keys false k0 k1 = (st, s.dev)) :
    exec (.keyImport n c keys k0 k1) s = .next (s.to (s.dev.doeAnswer n 1 (le 1 st ++ zeros 3))) :=
  exec_keyImport hn (Dev.importDoe_of_status hs hst) (h.doeAnswer _ _ _)

/-! The status of an import (R426), in the order in which its checks are made. -/
section
variable {d : Dev} {n c keys : Nat} {k0 k1 : BitVec 256}

theorem Dev.keyImport_of_busy (hb : d.tlhBusy = true) : d.keyImport n c keys false k0 k1 = (5, d) := by
  simp [Dev.keyImport, hb]

theorem Dev.keyImport_of_not_awaiting (hb : d.tlhBusy = false) (hc : c = 0 ∨ 16384 ≤ c ∨ (d.ctxOf c).st ≠ .awaiting) :
    d.keyImport n c keys false k0 k1 = (1, d) := by
  simp [Dev.keyImport, hb, hc]

/-! An import for a context that awaits its key. -/
section
variable (hb : d.tlhBusy = false) (h0 : 0 < c) (h1 : c < 16384) (hc : (d.ctxOf c).st = .awaiting)
include hb h0 h1 hc

theorem Dev.keyImport_of_awaiting : d.keyImport n c keys false k0 k1 =
    if (d.ctxOf c).mask.getLsbD n = false then (2, d)
    else if keys ≠ (if (d.ctxOf c).sld then 1 else 2) ∨ (keys = 1 ∧ k1 ≠ 0#256) then (3, d)
    else if keys = 2 ∧ k0 = k1 then (4, d)
    else (0, d.keyArrives c (k0, k1)) := by
  have passes : ¬ (c = 0 ∨ 16384 ≤ c ∨ (d.ctxOf c).st ≠ .awaiting) := by simp [hc]; omega
  simp [Dev.keyImport, hb, passes]

theorem Dev.keyImport_of_not_permitted (hm : (d.ctxOf c).mask.getLsbD n = false) : d.keyImport n c keys false k0 k1 = (2, d) := by
  rw [Dev.keyImport_of_awaiting hb h0 h1 hc, if_pos hm]

section
variable (hm : (d.ctxOf c).mask.getLsbD n = true)
include hm

theorem Dev.keyImport_of_wrong_keys (hw : keys ≠ (if (d.ctxOf c).sld then 1 else 2) ∨ (keys = 1 ∧ k1 ≠ 0#256)) :
    d.keyImport n c keys false k0 k1 = (3, d) := by
  rw [Dev.keyImport_of_awaiting hb h0 h1 hc, if_neg (Bool.not_eq_false _ ▸ hm), if_pos hw]

variable (hw : ¬ (keys ≠ (if (d.ctxOf c).sld then 1 else 2) ∨ (keys = 1 ∧ k1 ≠ 0#256)))
include hw

theorem Dev.keyImport_of_equal_keys (hk : keys = 2 ∧ k0 = k1) : d.keyImport n c keys false k0 k1 = (4, d) := by
  rw [Dev.keyImport_of_awaiting hb h0 h1 hc, if_neg (Bool.not_eq_false _ ▸ hm), if_neg hw, if_pos hk]

theorem Dev.keyImport_of_good_keys (hk : keys = 2 → k0 ≠ k1) : d.keyImport n c keys false k0 k1 = (0, d.keyArrives c (k0, k1)) := by
  rw [Dev.keyImport_of_awaiting hb h0 h1 hc, if_neg (Bool.not_eq_false _ ▸ hm), if_neg hw, if_neg fun e => hk e.1 e.2]

end
end
end

/-- R426: an import that passes every check enables the context and answers 00h; the key tables take the working keys of the context's own mode (R241). -/
theorem exec_keyImport_enables {s : State} {n : Ld} (h : s.dev.Rest) (hn : s.dev.on n = true) {c keys : Nat} {k0 k1 : BitVec 256}
    (hs : s.dev.hasSession n = true) (hst : s.dev.keyImport n c keys false k0 k1 = (0, s.dev.keyArrives c (k0, k1))) :
    ∃ t, exec (.keyImport n c keys k0 k1) s = .next t ∧ (t.dev.ctxOf c).st = .enabled ∧ (t.dev.ctxOf c).gen = (s.dev.ctxOf c).gen + 1#8 ∧
      tget none t.dev.tlh.wrapped c = some (k0, k1) ∧ (t.dev.ld n).doeRsp = 1 ∧ (t.dev.ld n).doeOut = [0#8, 0#8, 0#8, 0#8] ∧
      (∀ m ∈ s.dev.units, tget none (t.dev.ms m).sl.keys c = some (s.dev.working c (k0, k1))) ∧ t.dev.mem = s.dev.mem := by
  have arrived := Dev.keyArrives_arrived h c (k0, k1)
  have answer : ((s.dev.keyArrives c (k0, k1)).doeAnswer n 1 (le 1 0 ++ zeros 3)).ld n =
      { (s.dev.keyArrives c (k0, k1)).ld n with doeRsp := 1, doeOut := le 1 0 ++ zeros 3 } := Dev.ld_modLd_self arrived.rest _ _
  have context : ((s.dev.keyArrives c (k0, k1)).doeAnswer n 1 (le 1 0 ++ zeros 3)).ctxOf c = (s.dev.keyArrives c (k0, k1)).ctxOf c := rfl
  refine ⟨_, exec_keyImport hn (Dev.importDoe_of_status (.inl hs) hst) (arrived.rest.doeAnswer _ _ _), ?_, ?_, arrived.wrapped, ?_, ?_, arrived.keys, arrived.mem⟩
  · rw [State.to_dev, context, arrived.ctx]
  · rw [State.to_dev, context, arrived.ctx]
  · rw [State.to_dev, answer]
  · rw [State.to_dev, answer]
    exact (by decide : le 1 0 ++ zeros 3 = [0#8, 0#8, 0#8, 0#8])

/-! What keeps the statement O30 open. It asks every key table, whatever the mode of the context, for the pair of keys derived under the purpose labels of an
Open context (0 data, 1 tweak). A Sealed context has a single key, under a label of its own (2). `Config.workKey` is opaque: nothing says whether the two differ. -/

/-- The pair of working keys of a Sealed context would be the pair that its base key gives under the labels of an Open one. -/
def SealedLabelsMatchOpen : Prop :=
  ∀ (k nonce : BitVec 256) (c : Nat), 0 < c → c < 16384 →
    ((Config.workKey k nonce c 2, 0#256) : BitVec 256 × BitVec 256) = (Config.workKey k nonce c 0, Config.workKey 0#256 nonce c 1)

/-- A Sealed context that awaits a key from landing 0, which has a secure session. -/
def sealedAwaits (nonce : BitVec 256) (c : Nat) : State :=
  { dev := { tlhBusy := false, nonce, tlh := { spdm := [{ ld := some 0, id := 0 }] }, ctx := [(c, { st := .awaiting, sld := true, mask := 1#16 })] } }

theorem sealedAwaits_rest (nonce : BitVec 256) (c : Nat) : (sealedAwaits nonce c).dev.Rest := by
  have reset : ({} : Dev).Rest := (Dev.atRest_iff _).1 (by decide +kernel)
  exact (reset.modCtx [(c, { st := .awaiting, sld := true, mask := 1#16 })] (by simp [Tbl.rises, Tbl.risesFrom])).same

/-- If the labels made no difference, an accepted import would leave the pair of an Open context, whatever the mode. -/
theorem Dev.working_of_labelsMatch (labels : SealedLabelsMatchOpen) {d : Dev} {c keys : Nat} {k0 k1 : BitVec 256} (h0 : 0 < c) (h1 : c < 16384)
    (hw : ¬ (keys ≠ (if (d.ctxOf c).sld then 1 else 2) ∨ (keys = 1 ∧ k1 ≠ 0#256))) :
    d.working c (k0, k1) = (Config.workKey k0 d.nonce c 0, Config.workKey k1 d.nonce c 1) := by
  unfold Dev.working
  split
  next sealed =>
    obtain rfl : k1 = 0#256 := by
      rw [if_pos sealed] at hw
      by_contra other
      exact hw (by tauto)
    exact labels k0 d.nonce c h0 h1
  next => rfl

/-- All that O30 says but the keys of Sealed contexts holds. -/
theorem keyImportEnablesOrRefuses_of_labelsMatch (labels : SealedLabelsMatchOpen) : Obligations.KeyImportEnablesOrRefuses := by
  unfold Obligations.KeyImportEnablesOrRefuses
  intro s n c keys k0 k1 hrest hn x cmd Says wrong
  have h := s.dev.atRest_iff.1 hrest
  refine ⟨fun hb => ?_, fun hb hs => ?_, fun hb hs => ⟨fun hc => ?_, fun h0 h1 hc =>
    ⟨fun hm => ?_, fun hm hw => ?_, fun hm hw two same => ?_, fun hm hw hk => ?_⟩⟩⟩
  · exact exec_keyImport_refused h hn (.inr hb) (Dev.keyImport_of_busy hb)
  · exact exec_keyImport hn (Dev.importDoe_of_no_session hb hs ..) (h.doeAnswer _ _ _)
  · exact exec_keyImport_refused h hn (.inl hs) (Dev.keyImport_of_not_awaiting hb hc)
  · exact exec_keyImport_refused h hn (.inl hs) (Dev.keyImport_of_not_permitted hb h0 h1 hc hm)
  · exact exec_keyImport_refused h hn (.inl hs) (Dev.keyImport_of_wrong_keys hb h0 h1 hc hm hw)
  · exact exec_keyImport_refused h hn (.inl hs) (Dev.keyImport_of_equal_keys hb h0 h1 hc hm hw ⟨two, same⟩)
  · rw [← Dev.working_of_labelsMatch labels h0 h1 hw]
    exact exec_keyImport_enables h hn hs (Dev.keyImport_of_good_keys hb h0 h1 hc hm hw hk)

/-- O30 is equivalent to an equation about the opaque `Config.workKey`, which the model neither grants nor denies. -/
theorem keyImportEnablesOrRefuses_iff : Obligations.KeyImportEnablesOrRefuses ↔ SealedLabelsMatchOpen := by
  refine ⟨fun holds k nonce c h0 h1 => ?_, keyImportEnablesOrRefuses_of_labelsMatch⟩
  let s := sealedAwaits nonce c
  have h : s.dev.Rest := sealedAwaits_rest nonce c
  have context : s.dev.ctxOf c = { st := .awaiting, sld := true, mask := 1#16 } := if_pos rfl
  have permitted : (s.dev.ctxOf c).mask.getLsbD (0 : Ld) = true := by rw [context]; rfl
  have right : ¬ ((1 : Nat) ≠ (if (s.dev.ctxOf c).sld then 1 else 2) ∨ ((1 : Nat) = 1 ∧ 0#256 ≠ 0#256)) := by simp [context]
  have awaiting : (s.dev.ctxOf c).st = .awaiting := by rw [context]
  have good : (1 : Nat) = 2 → k ≠ 0#256 := fun e => absurd e (by decide)
  obtain ⟨-, -, inSession⟩ := holds s 0 c 1 k 0#256 (s.dev.atRest_iff.2 h) rfl
  obtain ⟨-, imports⟩ := inSession rfl rfl
  obtain ⟨-, -, -, enables⟩ := imports h0 h1 awaiting
  obtain ⟨t, runs, -, -, -, -, -, asked, -⟩ := enables permitted right good
  obtain ⟨u, runs', -, -, -, -, -, given, -⟩ :=
    exec_keyImport_enables (n := 0) h rfl rfl (Dev.keyImport_of_good_keys rfl h0 h1 awaiting permitted right good)
  obtain rfl : t = u := Host.Outcome.next.inj (runs.symm.trans runs')
  have slice : 0 ∈ s.dev.units := (by decide : 0 ∈ ({} : Dev).units)
  have sealed : s.dev.working c (k, 0#256) = (Config.workKey k nonce c 2, 0#256) := by rw [Dev.working, context]; rfl
  exact sealed.symm.trans (Option.some.inj ((given 0 slice).symm.trans (asked 0 slice)))

end Sys2Proof.Machine
end

section
/-! Steps and runs: the three shapes a command's meaning can have (R3, R421), and what every step and every run keeps. -/
namespace Sys2Proof.Machine

/-- The shapes a command's meaning has at a state: it runs on the device, or on a unit that can be fused off, or it programs the board fuse bank. -/
inductive Runs (s : State) : Host.Outcome State Fault Refusal → Prop where
  | dev (f : Dev → Dev) : Runs s (onDev s f)
  | unit {n : Nat} (hn : n < 16) (f : Dev → Dev) : Runs s (onUnit n s f)
  | board (v : BitVec 320) : Runs s (execBoardFuseProgram v s)

/-- A landing whose registers can be absent is one of the sixteen. -/
theorem regUnit_lt {r : RegId} {n : Nat} (h : regUnit r = some n) : n < 16 := by
  cases r <;> cases h <;> exact Fin.isLt _

theorem Runs.mail (s : State) (p : CmdPath) (f : Dev → Nat → Dev) : Runs s (onMail p s f) := .dev _

theorem Runs.barge (s : State) (f : Dev → Dev) : Runs s (onBarge s f) := .dev _

/-- A register of a landing can be absent (R3); every other register runs on the device. -/
theorem Runs.reg (s : State) (r : RegId) (v : BitVec 64) : Runs s (onReg s r v) := by
  unfold onReg
  cases hr : regUnit r with
  | none => exact .dev _
  | some n => exact .unit (regUnit_lt hr) _

/-- Each row of the opcode table has one of the three shapes: by the chapters' frames, mailbox commands first, then the Barge's, then those of units and of the device. -/
theorem exec_runs (c : Instr) (s : State) : Runs s (exec c s) := by
  cases c
  all_goals dsimp only [exec]
  case registerWrite r v => exact .reg s r v
  case boardFuseProgram v => exact .board v
  case unsupportedCommand | identify | backgroundOperationStatus | requestAbortBackgroundOperation | getResponseMessageLimit |
      setResponseMessageLimit | getEventRecords | clearEventRecords | getEventInterruptPolicy | setEventInterruptPolicy | getFwInfo | transferFw |
      activateFw | getTimestamp | setTimestamp | getSupportedLogs | getLog | getSupportedFeatures | getFeature | setFeature | performMaintenance |
      identifyMemoryDevice | getHealthInfo | getAlertConfiguration | setAlertConfiguration | getPoisonList | injectPoison | clearPoison |
      getScanMediaCapabilities | scanMedia | getScanMediaResults | sanitize | getDynamicCapacityConfiguration | getDynamicCapacityExtentList |
      addDynamicCapacityResponse | releaseDynamicCapacity | getDcdInfo | getHostDcRegionConfiguration | setDcRegionConfiguration |
      getDcRegionExtentLists | initiateDynamicCapacityAdd | initiateDynamicCapacityRelease | dynamicCapacityAddReference |
      dynamicCapacityRemoveReference | dynamicCapacityListTags | getMultiHeadedInfo | getHeadInfo | stageExtentAttributes | getExtentRecords |
      withdrawOffer | getPageMapEntries | advanceTallyEpoch | setPagePin | wharfPin | wharfMaintenance | clearAdrift | pageMapAudit |
      setHostQueuePermission | getCapacityStatus | enableContext | disableContext | getContextRecords | rekeyExtent | resealSubtree |
      setClassRecord | getClassRecords | setLabelTable | getClassOccupancy | getFaultRecords | acknowledgeFault | injectFault | fenceUnit |
      restoreUnit | retrainChannel | landingToMoored | landingToUnderway | deviceToMoored | deviceToLaidUp | deviceToUnderway | getPowerStatus |
      warmDeviceReset | getGangwayStatus | manifest | getParameter | setParameter | getPersistentLog =>
    exact .mail _ _ _
  case bargeDoorbell | bargeDescriptorFetch | bargeDescriptorComplete | copy | zero | fill | pack | unpack | repack | migrate | pageRetirement |
      rekey | scrub | dictUnpack | dictPack | bargeStop | bargeRun | bargeEnable | bargeDisable | busErrorRetry =>
    exact .barge _ _
  case memReadRequest | memWriteRequest | memClnEvct | dramReadDataReturn | missTrackerEntryFree | dirtyLineWriteback | holdRelease | tholdExpiry |
      growthTokenRefill | cleaningTick | idleCleaning | classTrim | pmcTallyFlush | flitReceived | ingressDeparture | creditReturnTimer |
      flitAcknowledge | flitReplay | replayLimit | linkTrained | lockLost | lockRegained | tdownExpiry | perstAssert | perstDeassert | hotReset |
      partnerDetect | ideMacEpoch | keyProg | kSetGo | hdmDecoderCommit | birspReceived | biconflict | sharedCreditRequest | boardingHeadServe |
      tminholdExpiry | handoff | transferDataArrival | tbirspExpiry | lossReport | filterMoveComplete | rangeOperationSliceDone |
      wharfSliceDrainComplete | quadBufferGatherTimeout | sealNodeClean | keyImport | dimmTempPoll | refreshDue | trefwClear | rfmThreshold |
      entryStarve | retrainingPause | alertNError | patrolScrub | softRepair | aspmL1Entry | linkActivityWake | channelBringUpComplete |
      partnerAppears | hostRetrainRequest =>
    exact .unit (Fin.isLt _) _
  all_goals exact .dev _

/-- What a command that runs leaves: the queue as it was, no fuse still to be blown, and the fuses of both dies grown. -/
def Ran (s t : State) : Prop := t.pending = s.pending ∧ t.dev.blow = 0#2048 ∧ FusesGrow s t

theorem onDev_ran (s : State) (f : Dev → Dev) : ∃ t, onDev s f = .next t ∧ Ran s t := by
  obtain ⟨t, runs, pending, board, map, blow⟩ := onDev_next s f
  exact ⟨t, runs, pending, blow, map, by rw [board, BitVec.or_self]⟩

/-- R510: programming the board bank leaves the core die's fuses as they are. -/
theorem execBoardFuseProgram_ran {s : State} (hb : s.dev.blow = 0#2048) (v : BitVec 320) : ∃ t, execBoardFuseProgram v s = .next t ∧ Ran s t := by
  refine ⟨_, rfl, ?_⟩
  split
  · exact ⟨rfl, hb, BitVec.or_self, by rw [← BitVec.or_assoc, BitVec.or_self]⟩
  · exact ⟨rfl, hb, BitVec.or_self, BitVec.or_self⟩

/-- A command answers a next state, or it names a fused-off unit and stops (R3). -/
theorem Runs.outcome {s : State} {o : Host.Outcome State Fault Refusal} (h : Runs s o) (hb : s.dev.blow = 0#2048) :
    (∃ t, o = .next t ∧ Ran s t) ∨ (o = .fault .absentUnit ∧ ∃ n, n < 16 ∧ s.dev.on n = false) := by
  cases h with
  | dev f => exact .inl (onDev_ran s f)
  | board v => exact .inl (execBoardFuseProgram_ran hb v)
  | @unit n hn f =>
    cases on : s.dev.on n with
    | true => exact .inl (onUnit_on n s f on ▸ onDev_ran s f)
    | false => exact .inr ⟨onUnit_off n s f on, n, hn, on⟩

/-- Whatever fuses are still to be blown, a command stops only at a fused-off unit, and none is refused. -/
theorem Runs.stops {s : State} {o : Host.Outcome State Fault Refusal} (h : Runs s o) :
    (∀ f, o = .fault f → f = .absentUnit ∧ ∃ n, n < 16 ∧ s.dev.on n = false) ∧ ∀ r, o ≠ .refused r := by
  cases h with
  | dev f => exact ⟨fun _ e => (nomatch e), fun _ e => (nomatch e)⟩
  | board v => exact ⟨fun _ e => (nomatch e), fun _ e => (nomatch e)⟩
  | @unit n hn f =>
    cases on : s.dev.on n with
    | true =>
      rw [onUnit_on n s f on]
      exact ⟨fun _ e => (nomatch e), fun _ e => (nomatch e)⟩
    | false =>
      rw [onUnit_off n s f on]
      exact ⟨fun _ e => ⟨(Host.Outcome.fault.inj e).symm, n, hn, on⟩, fun _ e => (nomatch e)⟩

/-- Settles O58, by the three shapes a command's meaning can have. -/
theorem everyCommandCompletes : Obligations.EveryCommandCompletes := by
  unfold Obligations.EveryCommandCompletes
  intro c s
  refine ⟨fun allOn hb => ?_, (exec_runs c s).stops⟩
  rcases (exec_runs c s).outcome hb with ran | ⟨-, n, hn, off⟩
  · exact ran
  · rw [allOn n hn] at off
    exact absurd off (by decide)

/-- Settles O55: `step` at a queue with a front. -/
theorem stepTakesTheFront : Obligations.StepTakesTheFront := by
  unfold Obligations.StepTakesTheFront
  exact fun _ _ => rfl

/-- R473: a tick of the clock moves the time by one nanosecond, by two while the time is slewed up, by none while it is slewed down; it changes nothing else. -/
theorem Dev.clockTick_time (d : Dev) : d.time ≤ d.clockTick.time ∧ d.clockTick.time ≤ d.time + 2 ∧ (d.tele.slew = 0 → d.clockTick.time = d.time + 1) ∧
    ({ d.clockTick with time := d.time, tele := { d.clockTick.tele with slew := d.tele.slew, slewAge := d.tele.slewAge } } : Dev) = d := by
  unfold Dev.clockTick
  split
  next still => exact ⟨Nat.le_succ _, Nat.le_succ _, fun _ => rfl, rfl⟩
  next moving =>
    have plain : ∀ {p : Prop}, d.tele.slew = 0 → p := fun h => absurd h moving
    split
    · exact ⟨Nat.le_succ _, Nat.le_succ _, plain, rfl⟩
    · split
      · exact ⟨Nat.le_add_right _ _, Nat.le_refl _, plain, rfl⟩
      · exact ⟨Nat.le_refl _, Nat.le_add_right _ _, plain, rfl⟩

theorem Dev.clockTick_blow (d : Dev) : d.clockTick.blow = d.blow := by
  unfold Dev.clockTick
  repeat' split
  all_goals rfl

/-- Settles O56, by `Dev.clockTick_time`. -/
theorem emptyQueueTicks : Obligations.EmptyQueueTicks := by
  unfold Obligations.EmptyQueueTicks
  intro s hp
  obtain ⟨low, high, plain, rest⟩ := s.dev.clockTick_time
  exact ⟨{ s with dev := s.dev.clockTick }, by rw [step, hp], low, high, hp, rfl, rest, plain⟩

/-- Settles O57: `State.reset` is a closed term. -/
theorem resetIsAtRest : Obligations.ResetIsAtRest := by
  unfold Obligations.ResetIsAtRest
  decide +kernel

theorem FusesGrow.refl (s : State) : FusesGrow s s := ⟨BitVec.or_self, BitVec.or_self⟩

theorem FusesGrow.trans {s t u : State} (h : FusesGrow s t) (k : FusesGrow t u) : FusesGrow s u :=
  ⟨by rw [← k.1, ← BitVec.or_assoc, h.1], by rw [← k.2, ← BitVec.or_assoc, h.2]⟩

/-- A bit of a fuse bank that contains another is set wherever the other's is. -/
theorem getLsbD_of_or_eq {w : Nat} {a b : BitVec w} (h : a ||| b = b) {i : Nat} (ha : a.getLsbD i = true) : b.getLsbD i = true := by
  rw [← h, BitVec.getLsbD_or, ha, Bool.true_or]

/-- One step takes at most the front of the queue, leaves nothing to blow and clears no fuse. -/
theorem Steps.keeps {s t : State} (h : Steps s t) (hb : s.dev.blow = 0#2048) : t.pending = s.pending.drop 1 ∧ t.dev.blow = 0#2048 ∧ FusesGrow s t := by
  unfold Steps step at h
  split at h
  next idle =>
    obtain rfl := Host.Outcome.next.inj h
    exact ⟨by rw [idle]; rfl, by rw [← hb]; exact Dev.clockTick_blow _, .refl s⟩
  next c rest queued =>
    rcases (exec_runs c { s with pending := rest }).outcome hb with ⟨u, runs, pending, blow, grow⟩ | ⟨stops, -⟩
    · obtain rfl : u = t := Host.Outcome.next.inj (runs.symm.trans h)
      exact ⟨by rw [pending, queued]; rfl, blow, grow⟩
    · exact nomatch stops.symm.trans h

/-- The same of every run of `n` steps. -/
theorem ReachesIn.keeps {s t : State} {n : Nat} (h : ReachesIn s t n) (hb : s.dev.blow = 0#2048) :
    t.pending = s.pending.drop n ∧ t.dev.blow = 0#2048 ∧ FusesGrow s t := by
  induction n generalizing t with
  | zero =>
    obtain rfl : t = s := h
    exact ⟨rfl, hb, .refl t⟩
  | succ n ih =>
    obtain ⟨u, reached, steps⟩ := h
    obtain ⟨pending, blow, grow⟩ := ih reached
    obtain ⟨pending', blow', grow'⟩ := steps.keeps blow
    exact ⟨by rw [pending', pending, List.drop_drop], blow', grow.trans grow'⟩

/-- Settles O59, by induction on the length of the run (`ReachesIn.keeps`). -/
theorem fusesAreNeverCleared : Obligations.FusesAreNeverCleared := by
  unfold Obligations.FusesAreNeverCleared
  intro s t n hb reached
  obtain ⟨pending, blow, grow⟩ := reached.keeps hb
  exact ⟨grow, blow, pending, fun _ => getLsbD_of_or_eq grow.1, fun _ => getLsbD_of_or_eq grow.2⟩

end Sys2Proof.Machine
end

section
/-! The bytes of a channel: what is written is read back, and nothing else changes. -/
namespace Sys2Proof.Machine

theorem memRead_eq_map (m : List Host.Cell) (a n : Nat) : memRead m a n = (List.range n).map fun i => memGet m (a + i) := by
  induction n generalizing a with
  | zero => rfl
  | succ n ih => simp [memRead, ih, List.range_succ_eq_map, Function.comp_def, Nat.add_comm, Nat.add_left_comm]

/-- Reading back a write of the byte memory. -/
theorem memRead_memPut (m : List Host.Cell) (a : Nat) (bs : List Byte) (h : Memory.wf m = true) : memRead (memPut m a bs) a bs.length = bs := by
  rw [memRead_eq_map]
  refine List.ext_getElem (by simp) fun i _ hi => ?_
  have inside : a ≤ a + i ∧ a + i < a + bs.length := by omega
  rw [List.getElem_map, List.getElem_range, memGet_memPut m a bs _ h, if_pos inside, Nat.add_sub_cancel_left, List.getD_eq_getElem _ _ hi]

/-- Settles O60, by the laws of one write of the byte memory. -/
theorem channelBytesAreKept : Obligations.ChannelBytesAreKept := by
  unfold Obligations.ChannelBytesAreKept
  intro d c off bs cls cls' wf
  refine ⟨Dev.wr_wf d c off bs cls wf, ?_, (Dev.rd_mem _ c off _ cls').1, fun x outside => ?_⟩
  · rw [(Dev.rd_mem _ c off _ cls').2, Dev.wr_mem, memRead_memPut _ _ _ wf]
  · rw [Dev.wr_mem, memGet_memPut _ _ _ _ wf, if_neg (by omega)]

end Sys2Proof.Machine
end

section
/-! Upkeep of a channel (R276, R280, R284 to R288, R295, R296, R298). -/
namespace Sys2Proof.Machine

/-- A command on a device at rest that computes a device at rest ends in it. -/
theorem onDev_ends {s : State} {f : Dev → Dev} {d : Dev} (hf : f s.dev = d) (hd : d.Rest) : onDev s f = .next (s.to d) := onDev_to hf hd

theorem onUnit_ends {n : Nat} {s : State} {f : Dev → Dev} {d : Dev} (hn : s.dev.on n = true) (hf : f s.dev = d) (hd : d.Rest) :
    onUnit n s f = .next (s.to d) := onUnit_to hn hf hd

theorem onBarge_ends {s : State} {f : Dev → Dev} {d : Dev} (hb : s.dev.bargeOn1 = true) (hf : f s.dev = d) (hd : d.Rest) :
    onBarge s f = .next (s.to d) := onBarge_to hb hf hd

/-- A change of a channel that touches neither its population nor its use, nor the berths that wait to be retired, on a device at rest. -/
theorem exec_modCh {s : State} {c : Ch} {i : Instr} {f : Dev → Dev} (h : s.dev.Rest) (hc : s.dev.on c = true) (hi : exec i s = onUnit c s f)
    (g : Chan → Chan) (hf : f s.dev = s.dev.modCh c g) (hq : ∀ x, x.retQ = [] → (g x).retQ = [] := by intro x hx; exact hx)
    (hp : (g (s.dev.ch c)).pop = (s.dev.ch c).pop ∧ (g (s.dev.ch c)).usable = (s.dev.ch c).usable := by exact ⟨rfl, rfl⟩) :
    exec i s = .next (s.to (s.dev.modCh c g)) :=
  hi.trans (onUnit_ends hc hf (h.modCh c g hq hp))

/-- R276: a reading sets the temperature, at least 1 °C, and ends the count of failed polls. -/
theorem Dev.tempPoll_reading {d : Dev} {c : Nat} (hc : (d.ch c).pop.dpc ≠ 0) (t : Int) :
    d.tempPoll c (some t) = d.modCh c fun x => { x with temp := min 255 (max 1 t.toNat), pollFail := 0 } := by
  simp [Dev.tempPoll, hc]

/-- R276: a failed poll after a failed one takes the reading away. -/
theorem Dev.tempPoll_again {d : Dev} {c : Nat} (hc : (d.ch c).pop.dpc ≠ 0) (hp : 1 ≤ (d.ch c).pollFail) :
    d.tempPoll c none = d.modCh c fun x => { x with pollFail := 2, temp := 0 } := by
  have two : min 2 ((d.ch c).pollFail + 1) = 2 := by omega
  simp only [Dev.tempPoll, if_neg hc]
  exact d.modCh_congr c _ _ (by rw [two, if_pos hp])

/-- R284: a refresh that falls due while its bank is busy is postponed, four times at most. -/
theorem Dev.refreshDue_postponed {d : Dev} {c bank : Nat} (hu : (d.ch c).usable = true) (hn : tget 0 (d.ch c).postponed bank < 4) :
    d.refreshDue c bank true = d.modCh c fun x => { x with postponed := tput 0 x.postponed bank (tget 0 x.postponed bank + 1) } := by
  simp only [Dev.refreshDue, hu, hn, Bool.not_true, Bool.false_eq_true, if_false, Bool.true_and, decide_true, if_true]
  exact d.modCh_congr c _ _ rfl

/-- R284: the refresh of one bank, its postponed ones with it. -/
def Chan.refreshed (bank : Nat) (x : Chan) : Chan := { x with openRow := tput none x.openRow bank none, postponed := tput 0 x.postponed bank 0 }

/-- R285: with no neighbour refresh owed, paying what is owed counts none. -/
theorem Dev.payOwed_nil {d : Dev} {c : Nat} (ho : (d.ch c).owed = []) : d.payOwed c = (d.modCh c fun x => { x with owed := [] }).bump 0x404 c 0 := by
  simp [Dev.payOwed, ho]

theorem Dev.ch_bump (d : Dev) (code inst n : Nat) (m : Nat) : (d.bump code inst n).ch m = d.ch m := by
  simp only [Dev.ch, Dev.bump_chn]

theorem exec_refreshDue_idle {s : State} {c : Ch} (h : s.dev.Rest) (hc : s.dev.on c = true) {bank : Nat} (hu : (s.dev.ch c).usable = true)
    (ho : (s.dev.ch c).owed = []) :
    ∃ t, exec (.refreshDue c bank false) s = .next t ∧ t.dev.mem = s.dev.mem ∧ t.dev.slc = s.dev.slc ∧
      ∀ m, t.dev.ch m = if m = c.val then (s.dev.ch c).refreshed bank else s.dev.ch m := by
  have h1 := h.modCh c (Chan.refreshed bank)
  have ch1 : (s.dev.modCh c (Chan.refreshed bank)).ch c = (s.dev.ch c).refreshed bank := by rw [Dev.ch_modCh h, if_pos rfl]
  have owed : ((s.dev.modCh c (Chan.refreshed bank)).ch c).owed = [] := by rw [ch1]; exact ho
  have issues : s.dev.refreshDue c bank false = ((s.dev.modCh c (Chan.refreshed bank)).modCh c fun x => { x with owed := [] }).bump 0x404 c 0 := by
    simp only [Dev.refreshDue, hu, Bool.not_true, Bool.false_eq_true, if_false, Bool.false_and]
    exact Dev.payOwed_nil owed
  refine ⟨_, onUnit_ends hc issues ((h1.modCh c _).bump _ _ _ _ _), by simp [State.to_dev], by simp [State.to_dev], fun m => ?_⟩
  rw [State.to_dev, Dev.ch_bump, Dev.ch_modCh h1, ch1, Dev.ch_modCh h]
  split
  · rw [← show (s.dev.ch c).owed = [] from ho]; rfl
  · rfl

/-- R286: RFM takes the threshold off the bank's count and closes its row. -/
theorem Dev.rfm_due {d : Dev} {c bank thr : Nat} (ht : (d.ch c).pop.rfm = some thr) (he : (d.ch c).rfmEn = true) (hu : (d.ch c).usable = true)
    (hn : thr ≤ tget 0 (d.ch c).raa bank) :
    d.rfm c bank = (d.modCh c fun y => { y with raa := tput 0 y.raa bank (tget 0 y.raa bank - thr), openRow := tput none y.openRow bank none }).bump 0x405 c 1 := by
  simp only [Dev.rfm, ht, he, hu, hn, Bool.and_self, decide_true, if_true]
  exact congrArg (·.bump 0x405 c 1) (d.modCh_congr c _ _ rfl)

/-- Settles O31, one rule a clause. -/
theorem refreshAndTemperature : Obligations.RefreshAndTemperature := by
  unfold Obligations.RefreshAndTemperature
  intro s c hrest hc x
  have h := s.dev.atRest_iff.1 hrest
  refine ⟨fun t hd => ?_, fun hd hp => ?_, fun bank hu hn => ?_, fun bank hu ho => exec_refreshDue_idle h hc hu ho, ?_, fun bank thr ht he hu hn => ?_⟩
  · exact exec_modCh h hc rfl _ (Dev.tempPoll_reading hd t)
  · exact exec_modCh h hc rfl _ (Dev.tempPoll_again hd hp)
  · exact exec_modCh h hc rfl _ (Dev.refreshDue_postponed hu hn)
  · exact exec_modCh h hc rfl _ rfl
  · exact onUnit_ends hc (Dev.rfm_due ht he hu hn) ((h.modCh c _).bump _ _ _ _ _)

/-- R444: the sources of a landing and of a slice repeat from unit to unit. -/
theorem sourceInfo_ldSrc {n off : Nat} (hn : n < 16) (ho : off < 0x20) : sourceInfo (ldSrc n off) = landingSource off := by
  unfold sourceInfo ldSrc
  rw [if_pos (by omega), Nat.mul_add_mod, Nat.mod_eq_of_lt ho]

theorem sourceInfo_sliceSrc {n off : Nat} (hn : n < 16) (ho : off < 0x40) : sourceInfo (sliceSrc n off) = sliceSource off := by
  unfold sourceInfo sliceSrc
  rw [if_neg (by omega), if_pos (by omega), Nat.add_assoc, Nat.add_sub_cancel_left, Nat.mul_add_mod, Nat.mod_eq_of_lt ho]

/-- Command-error sources of a channel order no fence. -/
theorem sliceSrc6_noFence (c : Ch) : (sourceInfo (sliceSrc c 6)).bind (·.fence) = none := by
  rw [sourceInfo_sliceSrc c.isLt (by decide)]
  rfl

/-- R295: a command error that the replay clears is counted and reported. -/
theorem Dev.alertN_transient {d : Dev} {c : Nat} (hu : (d.ch c).usable = true) (hi : d.noInj = true) (off : Nat) :
    d.alertN c off .transient =
      (d.modCh c fun y => { y with cmdErr := y.cmdErr + 1 }).report { src := sliceSrc c 0x06, det0 := off, det1 := noDpa } := by
  simp [Dev.alertN, hu, Dev.check_noInj hi]

/-- Patrol scrub stands at another place. -/
def Chan.scrubAt (place : Nat) (y : Chan) : Chan := { y with scrub := place }

theorem Chan.scrubAt_keeps (place : Nat) (y : Chan) :
    (y.scrubAt place).pop = y.pop ∧ (y.scrubAt place).usable = y.usable ∧ (y.scrubAt place).retQ = y.retQ := ⟨rfl, rfl, rfl⟩

/-- R296: patrol scrub moves on by one burst, from the last to the first. -/
def Chan.scrubbed (y : Chan) : Chan := y.scrubAt (if y.scrub + 64 < y.bytes then y.scrub + 64 else 0)

theorem Chan.scrubbed_keeps (y : Chan) : y.scrubbed.pop = y.pop ∧ y.scrubbed.usable = y.usable ∧ y.scrubbed.retQ = y.retQ := Chan.scrubAt_keeps _ y

/-- R296: patrol scrub of a sound burst only moves on. -/
theorem Dev.patrol_sound {d : Dev} {c : Nat} (hu : (d.ch c).usable = true) (hi : d.noInj = true) : d.patrol c {} = d.modCh c Chan.scrubbed := by
  have hi' : (d.modCh c Chan.scrubbed).noInj = true := Dev.noInj_of_lko hi rfl
  have moves : (d.modCh c fun y => { y with scrub := if (d.ch c).scrub + 64 < y.bytes then (d.ch c).scrub + 64 else 0 }) = d.modCh c Chan.scrubbed :=
    d.modCh_congr c _ _ rfl
  simp [Dev.patrol, hu, moves, Dev.check_noInj hi']

/-- Settles O32, one rule a clause. -/
theorem channelUpkeepRuns : Obligations.ChannelUpkeepRuns := by
  unfold Obligations.ChannelUpkeepRuns
  intro s c hrest hc hu hb hi
  have h := s.dev.atRest_iff.1 hrest
  refine ⟨fun quad => ?_, fun hr => ?_, fun hr => ?_, fun off => ?_, ?_⟩
  · exact exec_modCh h hc rfl _ rfl
  · exact exec_modCh h hc rfl _ (by simp [Dev.retrainPause, hu, hr])
  · exact exec_modCh h hc rfl _ (by simp [Dev.retrainPause, hu, hr])
  · exact onUnit_ends hc (Dev.alertN_transient hu hi off) ((h.modCh c _).report hb _ (sliceSrc6_noFence c)).1
  · exact exec_modCh h hc rfl Chan.scrubbed (Dev.patrol_sound hu hi) (fun y hy => (y.scrubbed_keeps).2.2.trans hy)
      ⟨(Chan.scrubbed_keeps _).1, (Chan.scrubbed_keeps _).2.1⟩

/-- R298: what a successful soft repair of the oldest queued row does to its channel. -/
def Chan.softRepaired (r : RowAddr) (rest : List RowAddr) (y : Chan) : Chan :=
  { y with queue := rest, spprUsed := tmod 0 y.spprUsed (r.bank / 4) (· + 1), openRow := tput none y.openRow r.bank none, sppr := satAdd 255 y.sppr 1 }

theorem Dev.softRepair_clean {d : Dev} (h : d.Rest) {c : Nat} {r : RowAddr} {rest : List RowAddr} (hu : (d.ch c).usable = true) (hq : (d.ch c).queue = r :: rest)
    (hr : r ∉ (d.ch c).noRepair) (hs : tget 0 (d.ch c).spprUsed (r.bank / 4) < (d.ch c).pop.sppr) :
    d.softRepair c true = { d.modCh c (Chan.softRepaired r rest) with flash := d.flash.noteRow c r } := by
  have h1 := h.modCh c fun y => { y with queue := rest }
  simp only [Dev.softRepair, hq, hu, hr, Nat.not_le.2 hs, Bool.not_true, Bool.false_eq_true, if_false, if_true]
  rw [Dev.modCh_modCh h, Dev.modCh_modCh h]
  rfl

/-- Settles O33: three changes of the channel, one after the other, and the row noted in the flash. -/
theorem softRepairTakesTheOldestRow : Obligations.SoftRepairTakesTheOldestRow := by
  unfold Obligations.SoftRepairTakesTheOldestRow
  intro s c r rest hrest hc hu hq hr hs
  have h := s.dev.atRest_iff.1 hrest
  exact onUnit_ends hc (Dev.softRepair_clean h hu hq hr hs) ((h.modCh c (Chan.softRepaired r rest)).same)

end Sys2Proof.Machine
end

section
/-! Upkeep of a slice (R121, R129, R132, R178, R180): where the statement fails. -/
namespace Sys2Proof.Machine

/-- The device a command ends in. -/
def ended : Host.Outcome State Fault Refusal → Option Dev
  | .next t => some t.dev
  | .fault _ => none
  | .refused _ => none

/-- Two Clean lines are listed for way 2 of set 0, the first of them pinned and of class 1, the second of class 0, which may keep no line (`dw` is 0). -/
def twiceListed : Wharf := { lines := [(2, { st := .clean, cls := 1, pin := true }), (2, { st := .clean, addr := 16384 })] }

def trimTwice : State := { dev := { qos := { dw := 0 }, slc := [(0, { wharf := twiceListed })] } }

/-- What is listed second is trimmed, and what is listed first leaves: the pinned line, whose loss is counted. -/
theorem classTrim_loses_pinned : (ended (exec (.classTrim 0 0 {}) trimTwice)).map (·.pinLoss) = some 1 := by decide +kernel

/-- Refutes O10: the statement leaves open in which form a Wharf lists its lines. Where a way is listed twice, trimming the line listed second takes the one listed
first, which can be pinned; the statement would have no pin lost. -/
theorem not_sliceUpkeepRuns : ¬ Obligations.SliceUpkeepRuns := by
  unfold Obligations.SliceUpkeepRuns
  intro h
  obtain ⟨-, -, trim, -⟩ := h trimTwice 0 (by decide +kernel) (by decide +kernel)
  have kept := congrArg (fun o => (ended o).map (·.pinLoss)) (trim 0 (by decide +kernel) (by decide +kernel))
  rw [classTrim_loses_pinned] at kept
  exact absurd kept (by decide +kernel)

end Sys2Proof.Machine
end

section
/-! Writebacks (R34, R181, R182), holds and quad buffers (R134, R204). -/
namespace Sys2Proof.Machine

/-- What the writeback of one whole dirty quad of a plainly stored page leaves (`writeback_plain`), with the frame of the statement. -/
structure QuadStored (d : Dev) (sl page quad : Nat) (k : Nat → Nat) (e : Dev) : Prop where
  rest : e.Rest
  mem : e.mem = memPut d.mem (chBase (d.ent page).chan + ((d.ent page).frame * 4096 + quad % 16 * 256))
    (d.encOpen sl (d.ent page).ctx quad (bytesOf 256 ((d.ms sl).wharf.quadData k)))
  lnd : e.lnd = d.lnd
  lko : e.lko = d.lko
  ms : ∀ m, m ≠ sl → e.ms m = d.ms m
  lines : ∀ x, (e.ms sl).wharf.get x = if x ∈ [k 0, k 1, k 2, k 3] then { (d.ms sl).wharf.get x with st := .clean } else (d.ms sl).wharf.get x

theorem Dev.writeback_stores {d : Dev} (hr : d.Rest) (hi : d.noInj = true) {sl page quad : Nat} {k : Nat → Nat} (hp : d.plainP sl page = true)
    (hd : (d.ms sl).wharf.dirtyQuad quad k = true) (hh : (d.ms sl).held = []) (eager : Bool) :
    QuadStored d sl page quad k (d.writeback sl page [quad] false eager {}) := by
  obtain ⟨rest, mem, lnd, lko, ms, lines⟩ := writeback_plain hr hi hp hd hh eager
  exact ⟨rest, mem, lnd, lko, ms, lines⟩

/-- The idle scanner of a slice moves to another set. -/
def Dev.scanTo (d : Dev) (sl set : Nat) : Dev := d.modW sl fun w => { w with scan := set }

theorem Dev.ms_scanTo {d : Dev} (hr : d.Rest) (sl set m : Nat) :
    (d.scanTo sl set).ms m = if m = sl then { d.ms sl with wharf := { (d.ms sl).wharf with scan := set } } else d.ms m := Dev.ms_modMs hr _ _ _

/-- A writeback after the scanner has moved is a writeback. -/
theorem QuadStored.of_scanTo {d e : Dev} (hr : d.Rest) {sl page quad set : Nat} {k : Nat → Nat} (h : QuadStored (d.scanTo sl set) sl page quad k e) :
    QuadStored d sl page quad k e := by
  have slice := Dev.ms_scanTo hr sl set sl
  rw [if_pos rfl] at slice
  have keys : (d.scanTo sl set).encOpen sl (d.ent page).ctx quad = d.encOpen sl (d.ent page).ctx quad := by
    unfold Dev.encOpen Dev.keysOf
    rw [slice]
  refine ⟨h.rest, h.mem.trans ?_, h.lnd, h.lko, fun m hm => (h.ms m hm).trans ?_, fun x => (h.lines x).trans ?_⟩
  · rw [slice]
    exact congrArg (fun f => memPut d.mem _ (f (bytesOf 256 ((d.ms sl).wharf.quadData k)))) keys
  · rw [Dev.ms_scanTo hr, if_neg hm]
  · rw [slice]; rfl

theorem Dev.plainP_scanTo {d : Dev} (hr : d.Rest) (sl set page : Nat) : (d.scanTo sl set).plainP sl page = d.plainP sl page := by
  unfold Dev.plainP
  rw [Dev.ms_scanTo hr, if_pos rfl]
  rfl

theorem eraseDups_one {α : Type} [BEq α] (a : α) : [a].eraseDups = [a] := rfl

/-- The first dirty line the scanner meets stands in a quad whose dirty lines of the set are that quad's line alone (R181). -/
theorem Dev.idleClean_quad {d : Dev} {sl util quad : Nat} {x : Nat × WLine} (hu : util < d.p 0x175)
    (hx : argMin (fun y : Nat × WLine => (y.1 / 16 + 16384 - (d.ms sl).wharf.scan) % 16384) ((d.ms sl).wharf.lines.filter fun y => y.2.st = .dirty) = some x)
    (hl : ((((d.ms sl).wharf.lines.filter fun y => y.2.st = .dirty).filter fun y => y.1 / 16 = x.1 / 16).map (·.2.addr)) = [quad * 4]) :
    d.idleClean sl util {} = (d.scanTo sl ((x.1 / 16 + 1) % 16384)).writeback sl (quad / 16) [quad] false true {} := by
  have page : quad * 4 / 64 = quad / 16 := by omega
  unfold Dev.idleClean
  rw [if_neg (Nat.not_le.2 hu)]
  simp only [hx, hl]
  simp [Dev.writeLines, Dev.scanTo, page, eraseDups_one]

/-- Settles O7: both commands write the one quad back (`writeback_plain`), the scanner after moving on. -/
theorem writebackStoresOneQuad : Obligations.WritebackStoresOneQuad := by
  unfold Obligations.WritebackStoresOneQuad
  intro s sl page quad k hrest hsl hi hp hq hd hh e w Done
  have h := s.dev.atRest_iff.1 hrest
  have done {t : Dev} (stored : QuadStored s.dev sl page quad k t) : Done (s.to t) :=
    ⟨rfl, rfl, stored.lnd, stored.lko, stored.ms, stored.mem, stored.lines⟩
  refine ⟨fun pg mask hpg hm => ?_, fun util x hu hx hl => ?_⟩
  · have stored := Dev.writeback_stores h hi hp hd hh true
    refine ⟨_, onUnit_ends hsl ?_ stored.rest, done stored⟩
    rw [Dev.cleanPage, hpg, hm]
  · let d := s.dev.scanTo sl ((x.1 / 16 + 1) % 16384)
    have slice := Dev.ms_scanTo h sl ((x.1 / 16 + 1) % 16384) sl
    rw [if_pos rfl] at slice
    have hd' : (d.ms sl).wharf.dirtyQuad quad k = true := by rw [slice]; exact hd
    have hh' : (d.ms sl).held = [] := by rw [slice]; exact hh
    have stored := Dev.writeback_stores (d := d) (h.modW _ _) (Dev.noInj_of_lko hi rfl) ((Dev.plainP_scanTo h _ _ _).trans hp) hd' hh' true
    refine ⟨_, onUnit_ends hsl ?_ stored.rest, done (stored.of_scanTo h)⟩
    rw [Dev.idleClean_quad hu hx hl, hq]

end Sys2Proof.Machine
end

section
/-! Holds and quad buffers placed on a plainly stored page (R134, R204). -/
namespace Sys2Proof.Machine

/-- Only the lines of one Wharf, and the count of lost pins, have changed. -/
structure LinesMoved (sl : Nat) (d e : Dev) : Prop where
  rest : e.Rest
  mem : e.mem = d.mem
  ms : ∀ m, m ≠ sl → e.ms m = d.ms m
  held : (e.ms sl).held = (d.ms sl).held
  qbuf : (e.ms sl).wharf.qbuf = (d.ms sl).wharf.qbuf

theorem LinesMoved.refl {d : Dev} (h : d.Rest) (sl : Nat) : LinesMoved sl d d := ⟨h, rfl, fun _ _ => rfl, rfl, rfl⟩

theorem LinesMoved.put {sl : Nat} {d e : Dev} (h : LinesMoved sl d e) (k : Nat) (l : Wharf → WLine) : LinesMoved sl d (e.modW sl fun w => w.put k (l w)) := by
  have slice (m : Nat) := Dev.ms_modMs h.rest sl m fun s => { s with wharf := s.wharf.put k (l s.wharf) }
  have own := slice sl
  rw [if_pos rfl] at own
  refine ⟨h.rest.modW sl _, h.mem, fun m hm => ?_, ?_, ?_⟩
  · exact (slice m).trans (if_neg hm ▸ h.ms m hm)
  · exact (congrArg Slice.held own).trans h.held
  · exact (congrArg (·.wharf.qbuf) own).trans h.qbuf

theorem LinesMoved.invalidate {sl : Nat} {d e : Dev} (h : LinesMoved sl d e) (k : Nat) (c : Bool) : LinesMoved sl d (e.invalidate sl k c) := by
  have moved := h.put k fun _ => {}
  unfold Dev.invalidate
  dsimp only
  split
  · exact ⟨moved.rest.same, moved.mem, moved.ms, moved.held, moved.qbuf⟩
  · exact moved

theorem LinesMoved.finishOne {sl : Nat} {d e : Dev} (h : LinesMoved sl d e) (evict : Bool) (k : Nat) : LinesMoved sl d (finishOne sl evict e k) := by
  unfold Machine.finishOne
  dsimp only
  split
  · exact h.put k fun _ => _
  · split
    · exact (h.put k fun _ => _).invalidate k _
    · exact h.put k fun _ => _

theorem LinesMoved.finishQuad {sl : Nat} {d e : Dev} (h : LinesMoved sl d e) (quad : Nat) (st : WSt) (evict : Bool) :
    LinesMoved sl d (e.finishQuad sl quad st evict) :=
  List.foldlRecOn (motive := LinesMoved sl d) _ _ h fun _ k x _ => k.finishOne evict x

/-- What storing one quad at its place of a plainly stored page leaves. -/
structure QuadPlaced (d : Dev) (sl page : Nat) (p : PQuad) (e : Dev) : Prop where
  rest : e.Rest
  mem : e.mem = memPut d.mem (chBase (d.ent page).chan + ((d.ent page).frame * 4096 + p.quad % 16 * 256))
    (d.encOpen sl (d.ent page).ctx p.quad (bytesOf 256 p.data))
  ms : ∀ m, m ≠ sl → e.ms m = d.ms m
  held : (e.ms sl).held = (d.ms sl).held
  wharf : (e.ms sl).wharf = (d.ms sl).wharf

theorem Dev.countTally_held {d : Dev} (hr : d.Rest) (sl page : Nat) : ((d.countTally sl page).ms sl).held = (d.ms sl).held := by
  unfold Dev.countTally
  split
  · rfl
  · rw [Dev.ms_modMs hr, if_pos rfl]

/-- R34: a quad of a plainly stored page is placed at once. -/
theorem Dev.place_quad {d : Dev} (hr : d.Rest) (hi : d.noInj = true) {sl page : Nat} (hp : d.plainP sl page = true) (p : PQuad) (bal : Bool) (cls : Option Nat) :
    ∃ e, d.place sl page [p] bal {} cls = (.done, e) ∧ QuadPlaced d sl page p e := by
  have opened : (d.ent page).sld = false := by
    simp only [Dev.plainP, Bool.and_eq_true, Bool.not_eq_true'] at hp
    exact hp.1.1.2
  let u := d.storeUnit sl (d.ent page) p.quad 8 (d.ent page).chan ((d.ent page).frame * 4096 + p.q * 256) (bytesOf 256 p.data) {} cls
  have stored : SameButChan d u := by
    simp only [u, Dev.storeUnit, Dev.sealUnit, opened, Bool.false_eq_true, if_false]
    split
    · exact .refl _
    · exact wr_same _ _ _ _ _
  have ur : u.Rest := hr.storeUnit sl _ opened _ _ _ _ _ _ _
  obtain ⟨qmem, -, -, qslc⟩ := placeQpois_same u page [p]
  have qr : (u.placeQpois page [p]).Rest := ur.placeQpois _ _
  obtain ⟨cmem, -, -, cms, cwharf⟩ := countTally_same qr sl page
  have slices (m : Nat) : (u.placeQpois page [p]).ms m = d.ms m := by
    unfold Dev.ms
    rw [qslc, stored.slc]
  refine ⟨_, place_plainP hi hp [p] bal cls, qr.countTally _ _, ?_, fun m hm => (cms m hm).trans (slices m), ?_, cwharf.trans (congrArg Slice.wharf (slices sl))⟩
  · exact cmem.trans (qmem.trans (storeUnit_mem sl _ opened _ _ _ _ _ _ _))
  · exact (Dev.countTally_held qr sl page).trans (congrArg Slice.held (slices sl))

/-- R134: the end of the one hold of a slice. -/
theorem Dev.endHold_only {d e : Dev} {sl : Nat} {h : Held} {x : Nat × Quad × Bool × Bool} (hr : e.Rest) (hmem : e.mem = d.mem) (hms : ∀ m, m ≠ sl → e.ms m = d.ms m)
    (hh : (e.ms sl).held = [h]) (hx : h.quads = [x]) :
    (e.endHold sl h).Rest ∧ (e.endHold sl h).mem = d.mem ∧ (∀ m, m ≠ sl → (e.endHold sl h).ms m = d.ms m) ∧ ((e.endHold sl h).ms sl).held = [] := by
  let f := e.modMs sl fun s => { s with held := s.held.filter fun x => !decide (x = h) }
  have fr : f.Rest := hr.modMs sl _
  have fms (m : Nat) : f.ms m = if m = sl then { e.ms sl with held := (e.ms sl).held.filter fun x => !decide (x = h) } else e.ms m := Dev.ms_modMs hr _ _ _
  have moved := (LinesMoved.refl fr sl).finishQuad x.1 .held h.evict
  have ends : e.endHold sl h = (f.finishQuad sl x.1 .held h.evict).modW sl fun w =>
      { w with qbuf := w.qbuf.filter fun b => !(h.quads.any fun q => decide (q.1 = b.quad)) } := by
    unfold Dev.endHold
    rw [hx]
    rfl
  rw [ends]
  refine ⟨moved.rest.modW _ _, moved.mem.trans hmem, fun m hm => ?_, ?_⟩
  · rw [Dev.modW, Dev.ms_modMs moved.rest, if_neg hm, moved.ms m hm, fms, if_neg hm, hms m hm]
  · rw [Dev.modW, Dev.ms_modMs moved.rest, if_pos rfl]
    refine moved.held.trans ?_
    rw [fms, if_pos rfl, hh]
    simp

/-- What ends the one hold of a slice, of one quad of a plainly stored page: the quad is stored at its place. -/
structure HoldStored (d : Dev) (sl : Nat) (h : Held) (x : Nat × Quad × Bool × Bool) (e : Dev) : Prop where
  rest : e.Rest
  held : (e.ms sl).held = []
  ms : ∀ m, m ≠ sl → e.ms m = d.ms m
  mem : e.mem = memPut d.mem (chBase (d.ent h.page).chan + ((d.ent h.page).frame * 4096 + x.1 % 16 * 256))
    (d.encOpen sl (d.ent h.page).ctx x.1 (bytesOf 256 x.2.1))

theorem Dev.tryHeld_plain {d : Dev} (hr : d.Rest) (hi : d.noInj = true) {sl : Nat} {h : Held} {x : Nat × Quad × Bool × Bool} (hp : d.plainP sl h.page = true)
    (hh : (d.ms sl).held = [h]) (hx : h.quads = [x]) (bal : Bool) : ∃ e, d.tryHeld sl h bal {} = (true, e) ∧ HoldStored d sl h x e := by
  obtain ⟨e, done, placed⟩ := Dev.place_quad hr hi hp (.ofHeld x) bal (d.heldCls sl h)
  obtain ⟨rest, mem, ms, held⟩ := Dev.endHold_only (d := { d with mem := e.mem }) placed.rest rfl placed.ms (placed.held.trans hh) hx
  refine ⟨_, ?_, rest, held, ms, mem.trans placed.mem⟩
  unfold Dev.tryHeld
  rw [hx, List.map_singleton, done]

theorem Dev.releaseHeld_plain {d : Dev} (hr : d.Rest) (hi : d.noInj = true) {sl : Nat} {h : Held} {x : Nat × Quad × Bool × Bool} (hp : d.plainP sl h.page = true)
    (hh : (d.ms sl).held = [h]) (hx : h.quads = [x]) : HoldStored d sl h x (d.releaseHeld sl {}) := by
  obtain ⟨e, done, stored⟩ := Dev.tryHeld_plain hr hi hp hh hx false
  unfold Dev.releaseHeld
  rw [hh, List.foldl_cons, List.foldl_nil, done]
  exact stored

theorem Dev.holdExpires_plain {d : Dev} (hr : d.Rest) (hi : d.noInj = true) {sl : Nat} {h : Held} {x : Nat × Quad × Bool × Bool} (hp : d.plainP sl h.page = true)
    (hh : (d.ms sl).held = [h]) (hx : h.quads = [x]) : HoldStored d sl h x (d.holdExpires sl h.page {}) := by
  obtain ⟨e, done, stored⟩ := Dev.tryHeld_plain hr hi hp hh hx false
  unfold Dev.holdExpires Dev.expireHeld
  rw [hh]
  simp [done, stored]

/-- R204: the quad buffer that has gathered its four lines, the only one of a bypassed slice, is stored at its place. -/
theorem Dev.gatherEnds_full {d : Dev} (hr : d.Rest) (hi : d.noInj = true) {sl quad : Nat} {a b c e : Line} {cls : Nat}
    (hq : (d.ms sl).wharf.qbuf = [{ quad, lines := [(0, a, false), (1, b, false), (2, c, false), (3, e, false)], cls }]) (hh : (d.ms sl).held = [])
    (hp : d.plainP sl (quad / 16) = true) :
    ∃ t p, d.gatherEnds sl quad {} = t.modW sl (fun w => { w with qbuf := w.qbuf.filter fun x => x.quad ≠ quad }) ∧
      QuadPlaced d sl (quad / 16) p t ∧ p.quad = quad ∧ p.data = Quad.ofLines a b c e := by
  obtain ⟨t, done, placed⟩ := Dev.place_quad hr hi hp { quad, data := Quad.ofLines a b c e, pois := false, whole := true } false (some cls)
  refine ⟨t, _, ?_, placed, rfl, rfl⟩
  unfold Dev.gatherEnds Dev.flushBuf
  simp [hq, Slice.heldQuad, hh, List.range_succ, done]

/-- Settles O8: each command places one quad (`Dev.place_quad`) and ends the hold or the quad buffer it came from. -/
theorem heldQuadsAndQuadBuffersAreStored : Obligations.HeldQuadsAndQuadBuffersAreStored := by
  unfold Obligations.HeldQuadsAndQuadBuffersAreStored
  refine ⟨?_, ?_⟩
  · intro s sl h x hrest hsl hi hp hh hx e Done
    have hr := s.dev.atRest_iff.1 hrest
    have done {t : Dev} (stored : HoldStored s.dev sl h x t) : Done (s.to t) := ⟨rfl, stored.held, stored.ms, stored.mem⟩
    have released := Dev.releaseHeld_plain hr hi hp hh hx
    refine ⟨⟨_, onUnit_ends hsl rfl released.rest, done released⟩, fun pg hpg => ?_⟩
    have expired := Dev.holdExpires_plain hr hi hp hh hx
    exact ⟨_, onUnit_ends hsl (by rw [hpg]) expired.rest, done expired⟩
  · intro s sl quad a b c e cls hrest hsl hi hq hh hp x
    have hr := s.dev.atRest_iff.1 hrest
    obtain ⟨t, p, ends, placed, hpq, hpd⟩ := Dev.gatherEnds_full hr hi hq hh hp
    have slice (m : Nat) := Dev.ms_modMs placed.rest sl m fun y => { y with wharf := { y.wharf with qbuf := y.wharf.qbuf.filter fun x => x.quad ≠ quad.toNat } }
    refine ⟨_, onUnit_ends hsl ends (placed.rest.modW _ _), ?_, fun m hm => ?_, ?_⟩
    · refine (congrArg (·.wharf.qbuf) ((slice sl).trans (if_pos rfl))).trans ?_
      rw [placed.wharf, hq]
      simp
    · exact (slice m).trans (if_neg hm ▸ placed.ms m hm)
    · refine placed.mem.trans ?_
      rw [hpq, hpd]

end Sys2Proof.Machine
end

section
/-! Links of a landing: recovery, training, replay, credits in waiting, encryption epochs and keys, snoops for a sector's head (R42 to R75, R217 to R222). -/
namespace Sys2Proof.Machine

/-- A command of a landing that leaves the device as it was ends where it began. -/
theorem onUnit_idle {n : Nat} {s : State} {f : Dev → Dev} (h : s.dev.Rest) (hn : s.dev.on n = true) (hf : f s.dev = s.dev) : onUnit n s f = .next s :=
  onUnit_ends hn hf h

/-- A command that changes one landing and no transmit queue. -/
theorem onUnit_modLd {n : Nat} {s : State} {f : Dev → Dev} (h : s.dev.Rest) (hn : s.dev.on n = true) (m : Nat) (g : Landing → Landing)
    (hf : f s.dev = s.dev.modLd m g) (hg : ∀ l, l.pool.txq = [] → (g l).pool.txq = [] := by intro l hl; exact hl) :
    onUnit n s f = .next (s.to (s.dev.modLd m g)) :=
  onUnit_ends hn hf (h.modLd m g hg)

/-- R64: with nothing waiting to be sent, lock regained sends nothing. -/
theorem Dev.lockRegained_lost {d : Dev} (h : d.Rest) {n : Nat} (hl : (d.ld n).link.lost.isSome) :
    d.lockRegained n = d.modLd n fun l => { l with link := { l.link with st := .up, lost := none } } := by
  have lost : (d.ld n).link.lost.isNone = false := by rw [Option.isNone_eq_false_iff]; exact hl
  simp only [Dev.lockRegained, lost, Bool.false_eq_true, if_false]
  exact d.modLd_congr n _ _ (by rw [h.txq n]; rfl)

/-- Settles O11, one rule a clause. -/
theorem recoveryKeepsState : Obligations.RecoveryKeepsState := by
  unfold Obligations.RecoveryKeepsState
  intro s n hrest hn link k
  have h := s.dev.atRest_iff.1 hrest
  refine ⟨fun hk => ?_, fun hk => ?_, fun hk => ?_, fun hk => ?_, fun hk hr => ?_, fun ns hns => ?_⟩
  · exact onUnit_modLd h hn n _ (by simp [Dev.lockLost, show (s.dev.ld n).link.st = .up from hk])
  · exact onUnit_modLd h hn n _ (Dev.lockRegained_lost h hk)
  · exact onUnit_modLd h hn n _ (by simp [Dev.hostRetrain, show (s.dev.ld n).link.st = .up from hk])
  · exact onUnit_modLd h hn n _ (by simp [Dev.partnerAppears, show (s.dev.ld n).link.st = .down from hk])
  · refine onUnit_modLd h hn n _ (s.dev.modLd_congr n _ _ ?_)
    simp [show (s.dev.ld n).link.st = .reset from hk, show (s.dev.ld n).link.released = true from hr]
  · exact onUnit_idle h hn (by simp [Dev.perstOn, hns])

/-! Replay and credits in waiting (R57, R60 to R63). -/

/-- R60: acknowledged flits leave the replay buffer; with no transfer under way that is all. -/
theorem Dev.flitAck_noXfer {d : Dev} (h : d.Rest) {n seq : Nat} (hx : (d.ld n).coh.xfers = []) (hf : ∃ f ∈ (d.ld n).pool.replay, f.seq ≤ seq) :
    d.flitAck n seq = d.modLd n fun l =>
      { l with pool := { l.pool with replay := l.pool.replay.filter fun f => decide (seq < f.seq), replays := 0 } } := by
  obtain ⟨f, hf, hseq⟩ := hf
  have done : ((d.ld n).pool.replay.filter fun f => decide (f.seq ≤ seq)).isEmpty = false := by
    rw [List.isEmpty_eq_false_iff_exists_mem]
    exact ⟨f, List.mem_filter.2 ⟨hf, by simpa using hseq⟩⟩
  simp only [Dev.flitAck, done, hx, List.filter_nil, List.foldl_nil, Bool.false_eq_true, if_false]
  refine d.modLd_congr n _ _ ?_
  rw [h.txq n, hx]
  conv_rhs => rw [show (d.ld n) = { d.ld n with coh := { (d.ld n).coh with xfers := (d.ld n).coh.xfers } } from rfl, hx]
  rfl

/-- What grants of shared slots leave of what a landing sends: the replay buffer, its sequence and the link; waiting credits only grow. -/
structure GrantSends (n : Nat) (d e : Dev) : Prop where
  keeps : GrantKeeps n d e
  link : (e.ld n).link = (d.ld n).link
  replay : (e.ld n).pool.replay = (d.ld n).pool.replay
  txSeq : (e.ld n).pool.txSeq = (d.ld n).pool.txSeq
  mg : e.mg = d.mg
  pend : (d.ld n).pool.pend.req + (d.ld n).pool.pend.rwd + (d.ld n).pool.pend.birsp ≤
    (e.ld n).pool.pend.req + (e.ld n).pool.pend.rwd + (e.ld n).pool.pend.birsp

theorem Pool.credit_sends (p : Pool) (c k : Nat) : (p.credit c k).replay = p.replay ∧ (p.credit c k).txSeq = p.txSeq ∧
    p.pend.req + p.pend.rwd + p.pend.birsp ≤ (p.credit c k).pend.req + (p.credit c k).pend.rwd + (p.credit c k).pend.birsp := by
  unfold Pool.credit
  split <;> refine ⟨rfl, rfl, ?_⟩ <;> dsimp only <;> omega

theorem GrantSends.grant {n : Nat} {d e : Dev} (k : GrantSends n d e) (c : Nat) :
    GrantSends n d ((e.modLd n fun l => { l with pool := { l.pool.credit c 16 with granted := c :: l.pool.granted } }).bump 0x00E n 1) := by
  obtain ⟨hr, ht, hp⟩ := (e.ld n).pool.credit_sends c 16
  refine ⟨k.keeps.grant c, ?_, ?_, ?_, (Dev.bump_mg ..).trans k.mg, ?_⟩ <;> rw [Dev.ld_bump, Dev.ld_modLd_self k.keeps.rest]
  · exact k.link
  · exact hr.trans k.replay
  · exact ht.trans k.txSeq
  · exact k.pend.trans hp

theorem Dev.grantShared_sends {d : Dev} (h : d.Rest) (n : Nat) : GrantSends n d (d.grantShared n) := by
  have refl : GrantSends n d d := ⟨.refl h n, rfl, rfl, rfl, rfl, Nat.le_refl _⟩
  unfold Dev.grantShared
  split
  · exact refl
  · refine List.foldlRecOn (motive := GrantSends n d) _ _ refl fun e k c _ => ?_
    dsimp only
    split
    · exact k.grant c
    · exact k

/-- The classes granted shared slots since tCRET last passed are forgotten. -/
def Landing.noGrants (l : Landing) : Landing := { l with pool := { l.pool with granted := [] } }

/-- R57: when tCRET passes the waiting credits go out in a flit with nothing else. -/
theorem Dev.creditTimer_sends {d : Dev} (h : d.Rest) {n : Nat} (hu : (d.ld n).link.st = .up)
    (hp : (d.ld n).pool.pend.req + (d.ld n).pool.pend.rwd + (d.ld n).pool.pend.birsp ≠ 0) (hr : (d.ld n).pool.replay.length < 256) (hw : d.mg.warm = none) :
    ∃ e, GrantSends n (d.modLd n Landing.noGrants) e ∧ d.creditTimer n = e.modLd n fun l => l.sendFlit none none := by
  obtain ⟨e, he⟩ : ∃ e, e = (d.modLd n Landing.noGrants).grantShared n := ⟨_, rfl⟩
  have sends : GrantSends n (d.modLd n Landing.noGrants) e := he ▸ Dev.grantShared_sends (h.modLd n Landing.noGrants) n
  have before : (d.modLd n Landing.noGrants).ld n = (d.ld n).noGrants := Dev.ld_modLd_self h n _
  obtain ⟨-, link, replay, -, mg, pend⟩ := id sends
  rw [before] at link replay pend
  have up : (e.ld n).link.st = .up := by rw [link]; exact hu
  have owed : Credits.isZero (e.ld n).pool.pend = false := by
    have kept : (d.ld n).noGrants.pool.pend = (d.ld n).pool.pend := rfl
    rw [kept] at pend
    simp only [Credits.isZero, decide_eq_false_iff_not]
    omega
  have short : (e.ld n).pool.replay.length < 256 := by rw [replay]; exact hr
  have warm : e.withhold = false := by rw [Dev.withhold, mg]; simp [hw]
  refine ⟨e, sends, ?_⟩
  unfold Dev.creditTimer
  rw [show (d.modLd n fun l => { l with pool := { l.pool with granted := [] } }) = d.modLd n Landing.noGrants from rfl, ← he]
  exact if_pos (by simp [up, owed, short, warm])

/-- Settles O14, one rule a clause. -/
theorem replayAndCreditsRun : Obligations.ReplayAndCreditsRun := by
  unfold Obligations.ReplayAndCreditsRun
  intro s n hrest hn hb p
  have h := s.dev.atRest_iff.1 hrest
  refine ⟨fun seq hx hf => ?_, fun seq hs hne hl => ?_, fun h4 hu => ?_, fun hu hp hr hw => ?_⟩
  · exact onUnit_modLd h hn n _ (Dev.flitAck_noXfer h hx hf)
  · refine onUnit_ends hn (Dev.flitReplay_all hs hne hl) ?_
    exact (((h.modLd n _).bump _ _ _ _ _).report (by simpa using hb) _ (ldSrc_noFence n).1).1
  · refine onUnit_ends hn (by simp [Dev.replayLimit, show 4 ≤ (s.dev.ld n).pool.replays from h4, hu]) ?_
    exact ((h.modLd n _).report (by simpa using hb) _ (ldSrc_noFence n).1).1
  · obtain ⟨e, sends, timer⟩ := Dev.creditTimer_sends h hu hp hr hw
    have sent := sends.keeps.rest.modLd n fun l => l.sendFlit none none
    have before := Dev.ld_modLd_self h n Landing.noGrants
    have replay := sends.replay
    have txSeq := sends.txSeq
    rw [before] at replay txSeq
    refine ⟨_, { seq := (e.ld n).pool.txSeq, body := none, credits := (e.ld n).pool.pend, xfer := none }, onUnit_ends hn timer sent, ?_, rfl, txSeq, ?_, ?_,
      sends.keeps.mem⟩ <;> rw [State.to_dev, Dev.ld_modLd_self sends.keeps.rest]
    · exact congrArg (· ++ _) replay
    · rfl
    · exact congrArg (· + 1) txSeq

/-! Encryption of a landing: epochs and keys (R72 to R75). -/

/-- R73: the MAC of a skid epoch verifies; with no message held the epoch has nothing to let go. -/
theorem Dev.macEpoch_verified {d : Dev} (h : d.Rest) {n : Nat} (hm : (d.ld n).ideMem.mode = .skid) (hl : (d.ld n).link.st.live = true)
    (hp : (d.ld n).pool.msgs = []) : d.macEpoch n .mem .rx true false = d.modLd n fun l => { l with ideMem := { l.ideMem with skid := [] } } := by
  obtain ⟨g, closes, keeps⟩ : ∃ g, d.macEpoch n .mem .rx true false = (d.modLd n g).departFree n ∧
      g (d.ld n) = { d.ld n with ideMem := { (d.ld n).ideMem with skid := [] } } := by
    unfold Dev.macEpoch
    dsimp only
    rw [hm, hl, if_neg (by decide), if_pos rfl]
    refine ⟨_, rfl, ?_⟩
    have none_held : ({ (d.ld n).pool with msgs := [] } : Pool) = (d.ld n).pool := by rw [← hp]
    cases hgo : (d.ld n).ideMem.rx.go <;> simp [Landing.modIde, hgo, hp, hm, none_held]
  have empty : ((d.modLd n g).ld n).pool.msgs = [] := by
    rw [Dev.ld_modLd_self h, keeps]
    exact hp
  rw [closes, Dev.departFree_of_requests (by rw [empty]; exact fun m hm => absurd hm List.not_mem_nil)]
  exact d.modLd_congr n _ _ keeps

/-- R75: a sent MAC settles the direction on the slot of K_SET_GO. -/
theorem Dev.macEpoch_sent {d : Dev} {n : Nat} (hm : (d.ld n).ideMem.mode = .skid) (hl : (d.ld n).link.st.live = true) (ok slot : Bool) :
    d.macEpoch n .mem .tx ok slot = d.modLd n fun l => { l with ideMem := { l.ideMem with tx := match l.ideMem.tx.go with
      | some g => { l.ideMem.tx with act1 := g, go := none }
      | none => l.ideMem.tx } } := by
  simp only [Dev.macEpoch, hm, hl]
  rw [if_neg (by decide)]
  refine d.modLd_congr n _ _ ?_
  simp only [Landing.modIde]
  cases hg : (d.ld n).ideMem.tx.go <;> simp [IdeDir.settleOn]

/-- R75: an IDE_KM request granted within a session is done and answered. -/
theorem Dev.ideKm_granted {d : Dev} (h : d.Rest) {n : Nat} (ht : d.tlhBusy = false) (hs : d.hasSession n = true) (f : Landing → Landing) :
    d.ideKm n true f = d.modLd n fun l => { f l with doeRsp := 1, doeOut := [] } := by
  simp only [Dev.ideKm, ht, hs, Bool.not_true, Bool.or_false, Bool.false_eq_true, if_false, Dev.doeAnswer]
  exact Dev.modLd_modLd h n _ _

theorem Dev.ideKm_noSession {d : Dev} {n : Nat} (ht : d.tlhBusy = false) (hs : d.hasSession n = false) (ok : Bool) (f : Landing → Landing) :
    d.ideKm n ok f = d.modLd n fun l => { l with doeRsp := 2, doeOut := [] } := by
  simp [Dev.ideKm, ht, hs, Dev.doeAnswer]

theorem Landing.modIde_txq (l : Landing) (i : IdeStream) (dir : Dir) (f : IdeDir → IdeDir) : (l.modIde i dir f).pool = l.pool := by
  cases i <;> rfl

/-- Settles O17, one rule a clause. -/
theorem ideKeysAndEpochs : Obligations.IdeKeysAndEpochs := by
  unfold Obligations.IdeKeysAndEpochs
  intro s n i dir slot hrest hn x
  have h := s.dev.atRest_iff.1 hrest
  have txq : ∀ f (l : Landing), l.pool.txq = [] → (l.modIde i dir f).pool.txq = [] := fun f l hl => by rw [Landing.modIde_txq]; exact hl
  refine ⟨fun hm hl hp => ?_, fun hm hl => ?_, fun ht hs hx key => ?_, fun ht hs hx => ?_, fun ht hs key => ⟨?_, ?_⟩⟩
  · exact onUnit_modLd h hn n _ (Dev.macEpoch_verified h hm hl hp)
  · exact onUnit_modLd h hn n _ (Dev.macEpoch_sent hm hl true slot)
  · have free : (!(decide (((s.dev.ld n).ideDir i dir).act1 = slot) && ((s.dev.ld n).ideDir i dir).has slot)) = true := by
      by_cases ha : ((s.dev.ld n).ideDir i dir).act1 = slot
      · simp [show ((s.dev.ld n).ideDir i dir).has slot = false from hx ha]
      · simp [ha]
    refine onUnit_modLd h hn n _ ?_ (txq _)
    simp only [Dev.keyProg, free]
    exact Dev.ideKm_granted h ht hs _
  · refine onUnit_modLd h hn n _ ?_ (txq _)
    simp only [Dev.kSetGo, show ((s.dev.ld n).ideDir i dir).has slot = true from hx]
    exact Dev.ideKm_granted h ht hs _
  · exact onUnit_modLd h hn n _ (Dev.ideKm_noSession ht hs _ _)
  · exact onUnit_modLd h hn n _ (Dev.ideKm_noSession ht hs _ _)

/-! Snoops of an owner landing for the head of a sector (R217 to R222). -/

/-- A landing whose link, replay buffer and host credits are as they were hears as it did. -/
theorem Dev.hears_modLd {d : Dev} (h : d.Rest) {n : Nat} (hh : d.hears n = true) (f : Landing → Landing)
    (hf : (f (d.ld n)).link = (d.ld n).link ∧ (f (d.ld n)).pool = (d.ld n).pool := by exact ⟨rfl, rfl⟩) : (d.modLd n f).hears n = true := by
  rw [Dev.hears, Dev.ld_modLd_self h, hf.1, hf.2]
  exact hh

theorem Dev.hears_up {d : Dev} {n : Nat} (h : d.hears n = true) : (d.ld n).link.st = .up := by
  simp only [Dev.hears, Bool.and_eq_true, decide_eq_true_eq] at h
  exact h.1.1

/-- R217: a snoop to a host that hears is remembered, sent and counted. -/
theorem Dev.sendSnoop_hears {d : Dev} (h : d.Rest) {n : Nat} (hh : d.hears n = true) (line : Nat) (blk : Bool) (kind : Snp) (home : Nat) (why : SnpFor) :
    d.sendSnoop n line blk kind home why = (((d.modLd n fun l =>
        { l with coh := { l.coh with snoops := l.coh.snoops ++ [{ line, blk, kind, home, why, limit := d.p 0x181 }] } }).modLd n fun l =>
          l.sent (.snp kind blk line)).bump 0x00B n 1) := by
  unfold Dev.sendSnoop
  dsimp only
  rw [Dev.respond_hears (h.modLd n _) (Dev.hears_modLd h hh _)]

/-- R218: the end of a hold ends it; no collection at rest waits for it. -/
theorem Dev.holdEnds_rest {d : Dev} (h : d.Rest) {n sector : Nat} (hs : sector ∈ (d.ld n).coh.hold) :
    d.holdEnds n sector = d.modLd n fun l => { l with coh := { l.coh with hold := l.coh.hold.erase sector } } := by
  simp only [Dev.holdEnds, hs, decide_true, Bool.not_true, Bool.false_eq_true, if_false]
  refine foldl_keep _ _ _ fun b _ => ?_
  rw [((h.modLd n _).slice b).2.1]
  rfl

/-- Settles O20, one rule a clause. -/
theorem ownerSnoopsForTheHead : Obligations.OwnerSnoopsForTheHead := by
  unfold Obligations.OwnerSnoopsForTheHead
  intro s n hrest hn hh c
  have h := s.dev.atRest_iff.1 hrest
  refine ⟨?_, fun sector hhold => ?_, fun line => exec_biconflict h hn hh line⟩
  · intro sector f fs loc e hf hhold hsn hfent owned blk line kind
    have unasked : ((s.dev.ld n).coh.snoops.any fun s => decide (s.line / 4 = sector.toNat) && decide (s.why = .board)) = false := by
      rw [List.any_eq_false]
      intro x hx
      have := hsn x hx
      simp only [Bool.and_eq_true, decide_eq_true_eq, not_and]
      exact this
    refine onUnit_ends hn ?_ (((h.modLd n _).sent n _).bump _ _ _ _ _)
    have asks : s.dev.serveHead n sector.toNat = s.dev.sendSnoop n line blk kind f.home .board := by
      simp only [Dev.serveHead, show (s.dev.ld n).coh.ofSector sector.toNat = f :: fs from hf, unasked,
        show sector.toNat ∉ (s.dev.ld n).coh.hold from hhold, Dev.hears_up hh, hfent]
      rfl
    rw [asks]
    exact Dev.sendSnoop_hears h hh ..
  · exact onUnit_modLd h hn n _ (Dev.holdEnds_rest h hhold)

/-! Training (R42 to R46, R52, R55, R81). -/

/-- R45: the speed both sides and the flit mode of a training allow. -/
def Link.trainSpeed (k : Link) (t : Train) : Nat := min t.speed.toNat (min (speedCode k.maxSpeed) (if k.flitFor t = 0#2 then 3 else 4))

theorem Link.trainSpeed_lt (k : Link) (t : Train) : k.trainSpeed t < 8 := by
  have : k.trainSpeed t ≤ if k.flitFor t = 0#2 then 3 else 4 := Nat.le_trans (Nat.min_le_right _ _) (Nat.min_le_right _ _)
  split at this <;> omega

theorem Link.widest_lt (k : Link) (reversed : Bool) : k.widest reversed < 8 := by
  unfold Link.widest
  dsimp only
  split
  all_goals
    cases hw : [5, 4, 3, 2, 1].find? _ with
    | none => decide
    | some w =>
      have := List.mem_of_find?_eq_some hw
      simp only [List.mem_cons, List.not_mem_nil, or_false] at this
      simp only [Option.getD_some]
      omega

/-- R42, R45, R46: the link that a training brings Up. -/
def Link.trained (k : Link) (t : Train) : Link :=
  { k with speed := BitVec.ofNat 3 (k.trainSpeed t), width := BitVec.ofNat 3 (min t.width.toNat (k.widest t.reversed)), reversed := t.reversed,
           flit := k.flitFor t, st := .up, lost := none, polarity := t.polarity }

/-- R52, R55: a link that trains anew starts with its minimums; one that recovers keeps its pool. -/
def Pool.started (p : Pool) (t : Train) : Pool :=
  { p with held := [p.mins.getD 0 0, p.mins.getD 1 0 / 2, p.mins.getD 2 0] ++ p.mins.drop 3, hostCred := t.hostCred }

/-- R42 to R46, R81: a landing whose training ends. -/
def Landing.trained (l : Landing) (k : Link) (t : Train) (active : Bool) : Landing :=
  ({ l with link := k.trained t, pool := if k.st = .training then l.pool.started t else l.pool } : Landing).memOk active

theorem Landing.trained_txq (k : Link) (t : Train) (active : Bool) (l : Landing) (hl : l.pool.txq = []) : (l.trained k t active).pool.txq = [] := by
  unfold Landing.trained Landing.memOk
  dsimp only
  split <;> exact hl

/-- R42, R45: training that ends brings the landing Up, and a speed that CXL.mem cannot run at is told. -/
theorem Dev.trained_up {d : Dev} (h : d.Rest) {n : Nat} {t : Train} (hk : (d.ld n).link.st = .training ∨ (d.ld n).link.st = .recovering) :
    let e := d.modLd n fun l => l.trained (d.ld n).link t d.active
    d.trained n t = if (d.ld n).link.trainSpeed t = 0 then (e.evHost n .speedLimited [n] 1).evPool .speedLimited [n] 1 else e := by
  intro e
  have live : ¬ ((decide ((d.ld n).link.st ≠ .training) && decide ((d.ld n).link.st ≠ .recovering)) = true) := by
    rcases hk with hk | hk <;> simp [hk]
  have step : (d.modLd n fun l =>
      let l := ({ l with link := (d.ld n).link.trained t,
                         pool := if decide ((d.ld n).link.st = .training) = true then l.pool.started t else l.pool } : Landing).memOk d.active
      l.pump l.pool.txq.length) = e := by
    refine d.modLd_congr n _ _ ?_
    have txq := Landing.trained_txq (d.ld n).link t d.active (d.ld n) (h.txq n)
    simp only [decide_eq_true_eq]
    exact (show ((d.ld n).trained (d.ld n).link t d.active).pump ((d.ld n).trained (d.ld n).link t d.active).pool.txq.length = _ by rw [txq]; rfl)
  unfold Dev.trained
  dsimp only
  rw [if_neg live]
  exact congrArg (fun e : Dev => if (d.ld n).link.trainSpeed t = 0 then (e.evHost n .speedLimited [n] 1).evPool .speedLimited [n] 1 else e) step

/-- Settles O12: the landing that trained, and an event that leaves link and pool alone. -/
theorem trainingEndsUp : Obligations.TrainingEndsUp := by
  unfold Obligations.TrainingEndsUp
  intro s n t hrest hn k hk speed
  have h := s.dev.atRest_iff.1 hrest
  obtain ⟨e, he⟩ : ∃ e, e = s.dev.modLd n fun l => l.trained (s.dev.ld n).link t s.dev.active := ⟨_, rfl⟩
  have rest : e.Rest := he ▸ h.modLd n _ (Landing.trained_txq _ t s.dev.active)
  have landing : e.ld n = (s.dev.ld n).trained (s.dev.ld n).link t s.dev.active := by rw [he, Dev.ld_modLd_self h]
  obtain ⟨u, hu, hrest', same, told⟩ : ∃ u : Dev, s.dev.trained n t = u ∧ u.Rest ∧ SameCore e u ∧
      (speed = 0 → u.pool = s.dev.pool.add { kind := .speedLimited, args := [n.val], sev := 1, time := s.dev.time }) := by
    refine ⟨_, (Dev.trained_up h hk).trans (by rw [← he]), ?_⟩
    by_cases h0 : (s.dev.ld n).link.trainSpeed t = 0
    · obtain ⟨core, -, -, pool, -⟩ := SameCore.evHost rest n .speedLimited [n.val] 1
      rw [if_pos h0]
      refine ⟨(rest.evHost n .speedLimited [n.val] 1).evPool .speedLimited [n.val] 1, ?_, fun _ => ?_⟩
      · exact core.trans ⟨rfl, rfl, rfl, rfl, rfl, rfl, rfl, rfl, rfl, rfl, rfl, rfl, rfl, rfl, rfl, rfl, rfl, fun _ => rfl, fun _ => rfl, fun _ => rfl,
          fun _ => rfl, fun _ => rfl⟩
      · have time : (e.evHost n .speedLimited [n.val] 1).time = s.dev.time := by rw [core.time, he]; rfl
        simp only [Dev.evPool, pool, time]
        rw [he]
        rfl
    · rw [if_neg h0]
      exact ⟨rest, .refl _, fun hs => absurd hs h0⟩
  have link : (u.ld n).link = ((s.dev.ld n).trained (s.dev.ld n).link t s.dev.active).link := by rw [same.link, landing]
  have pool : (u.ld n).pool = ((s.dev.ld n).trained (s.dev.ld n).link t s.dev.active).pool := by rw [same.pool, landing]
  have small := (s.dev.ld n).link.trainSpeed_lt t
  have speed_toNat : (BitVec.ofNat 3 ((s.dev.ld n).link.trainSpeed t)).toNat = (s.dev.ld n).link.trainSpeed t := by
    rw [BitVec.toNat_ofNat, Nat.mod_eq_of_lt small]
  have narrow : min t.width.toNat ((s.dev.ld n).link.widest t.reversed) < 8 := Nat.lt_of_le_of_lt (Nat.min_le_right _ _) (Link.widest_lt _ _)
  refine ⟨_, onUnit_ends hn hu hrest', ?_, ?_, ?_, ?_, ?_, fun hr => ?_, told, ?_, ?_, ?_⟩ <;> rw [State.to_dev]
  · rw [link]; rfl
  · rw [link]; rfl
  · rw [link]; exact speed_toNat
  · rw [link]; exact (BitVec.toNat_ofNat ..).trans (Nat.mod_eq_of_lt narrow)
  · rw [link]
    show (s.dev.active && true && decide (1 ≤ (BitVec.ofNat 3 ((s.dev.ld n).link.trainSpeed t)).toNat) && (s.dev.ld n).acc.dec.committed) = _
    rw [speed_toNat, Bool.and_true]
    rfl
  · rw [pool]
    show (if (s.dev.ld n).link.st = .training then _ else _) = _
    rw [if_neg (by rw [show (s.dev.ld n).link.st = .recovering from hr]; decide)]
  · rw [same.mem, he]; rfl
  · rw [same.slc, he]; rfl
  · rw [same.pm, he]; rfl

end Sys2Proof.Machine
end

section
/-! Filters of a home slice (R218, R227, R232) and the control of a Barge channel (R324, R343 to R345, R404). -/
namespace Sys2Proof.Machine

/-- A change of a filter that touches neither its collections nor its credit requests. -/
theorem Dev.Rest.modF {d : Dev} (h : d.Rest) (sl : Nat) (f : Filter → Filter)
    (hf : ∀ x : Filter, (f x).colls = x.colls ∧ (f x).credReq = x.credReq := by intro x; exact ⟨rfl, rfl⟩) : (d.modF sl f).Rest := by
  refine h.modMs sl _ fun x hx => ?_
  unfold Slice.atRest at hx ⊢
  dsimp only
  rw [(hf x.filt).1, (hf x.filt).2]
  exact hx

theorem Dev.ms_modF {d : Dev} (h : d.Rest) (n m : Nat) (f : Filter → Filter) :
    (d.modF n f).ms m = if m = n then { d.ms n with filt := f (d.ms n).filt } else d.ms m := Dev.ms_modMs h n m _

theorem Dev.Rest.putFent {d : Dev} (h : d.Rest) (sl : Nat) (loc : FLoc) (e : FEnt) : (d.putFent sl loc e).Rest := by
  unfold Dev.putFent
  cases loc <;> exact h.modF _ _

/-- A filter whose entries, hold store and MOVED bit stay finds the same entries. -/
theorem Dev.fent_modF {d : Dev} (h : d.Rest) (sl : Nat) (f : Filter → Filter) (sector : Nat)
    (hf : ∀ x : Filter, (f x).ents = x.ents ∧ (f x).store = x.store ∧ (f x).moved = x.moved := by intro x; exact ⟨rfl, rfl, rfl⟩) :
    (d.modF sl f).fent sl sector = d.fent sl sector := by
  have part (m : Nat) : ((d.modF sl f).ms m).filt.ents = (d.ms m).filt.ents ∧ ((d.modF sl f).ms m).filt.store = (d.ms m).filt.store ∧
      ((d.modF sl f).ms m).filt.moved = (d.ms m).filt.moved := by
    rw [Dev.ms_modF h]
    split
    · next hm => rw [hm]; exact hf _
    · exact ⟨rfl, rfl, rfl⟩
  unfold Dev.fent Dev.filtAt Filter.find
  rw [(part sl).2.2, (part sl).2.1, (part _).1]

/-- R218: the request for a shared credit is granted while shared entries are free, and remembered while none is. -/
theorem Dev.creditRequest_asked {d : Dev} {sl n : Nat}
    (hw : ((d.ms sl).waitq.any fun w => w.shared && w.grant.isNone && (match d.fent sl (w.line / 4) with
      | some (_, e) => e.owned && decide (e.owner.val = n) && decide (w.ld ≠ some n)
      | none => false)) = true)
    (hu : ((d.ld n).coh.board.any fun f => decide (f.home = sl) && !f.shared) = true) (hs : sl ∉ (d.ld n).coh.shared) :
    d.creditRequest sl n = if 0 < d.sharedFree n then
        (d.modLd n fun l => { l with coh := { l.coh with shared := l.coh.shared ++ [sl] } }).modF sl fun f => { f with credReq := f.credReq.erase n }
      else d.modF sl fun f => { f with credReq := if n ∈ f.credReq then f.credReq else f.credReq ++ [n] } := by
  unfold Dev.creditRequest
  dsimp only
  refine if_pos ?_
  rw [Bool.and_eq_true, Bool.and_eq_true]
  exact ⟨⟨hw, hu⟩, by simpa using hs⟩

/-- Settles O22: both answers of a request that is due. -/
theorem sharedCreditIsAsked : Obligations.SharedCreditIsAsked := by
  unfold Obligations.SharedCreditIsAsked
  intro s sl n hsl hw hu hs ask give
  have asked := Dev.creditRequest_asked hw hu hs
  refine ⟨fun h0 hb => ?_, fun h0 hb => ?_⟩
  · rw [if_neg (by omega)] at asked
    exact (onUnit_on _ _ _ hsl).trans (onDev_settle asked hb)
  · rw [if_pos h0] at asked
    exact (onUnit_on _ _ _ hsl).trans (onDev_settle asked hb)

/-- A sector with a line in state A is owned. -/
theorem FEnt.owned_of_ls {e : FEnt} {line : Nat} (h : e.ls line = 2) : e.owned = true := by
  have inSector : line < 4 := by
    by_contra hl
    have zero : e.lstate.toNat / 2 ^ (2 * line) = 0 :=
      Nat.div_eq_of_lt (Nat.lt_of_lt_of_le e.lstate.isLt (Nat.pow_le_pow_right (by decide) (by omega)))
    rw [FEnt.ls, bits, zero] at h
    exact absurd h (by decide)
  have mem : line ∈ e.linesIn 2 := by
    simp only [FEnt.linesIn, List.mem_filter, decide_eq_true_eq]
    exact ⟨by simp; omega, h⟩
  simp only [FEnt.owned, Bool.not_eq_true', List.isEmpty_eq_false_iff_exists_mem]
  exact ⟨line, mem⟩

/-- R227: the loss of an owned line that the host never had gives it up. -/
theorem Dev.lossLine_unacked {d : Dev} {sl sector line : Nat} {loc : FLoc} {e : FEnt} (hf : d.fent sl sector = some (loc, e)) (hl : e.ls line = 2) :
    d.lossLine sl e.owner.val sector line false = d.putFent sl loc ((e.setLs line 0).disown true) := by
  simp [Dev.lossLine, hf, hl, FEnt.owned_of_ls hl]

/-- R227: a loss report of one transfer whose handoff has arrived. -/
theorem Dev.applyLoss_one {d : Dev} (h : d.Rest) {sl ld sector line : Nat} {ep : BitVec 4} {acked : Bool}
    (hl : (d.ms sl).filt.losses = [{ ld, xfers := [(sector, line, ep, acked)] }]) (hh : (d.ms sl).filt.handoffs = []) (hw : (d.ms sl).filt.fwds = []) :
    d.applyLoss sl = (d.modF sl fun f => { f with losses := [] }).lossLine sl ld sector line acked := by
  have ms : (d.modF sl fun f => { f with losses := [] }).ms sl = { d.ms sl with filt := { (d.ms sl).filt with losses := [] } } := by
    rw [Dev.ms_modF h, if_pos rfl]
  simp only [Dev.applyLoss, hl, List.foldl_cons, List.foldl_nil, ms, hh, hw, List.any_nil, Bool.or_false, Bool.false_eq_true, if_false]

/-- R232: the filter of a bypassed slice that holds no entry moves at once. -/
theorem Dev.filterMove_empty {d : Dev} (h : d.Rest) {sl : Sl} (hm : (d.ms sl).filt.moving = true) (hp : (d.ms (partner sl)).wharf.fenced = false)
    (he : (d.ms sl).filt.ents = []) :
    d.filterMove sl = (d.modF sl fun f => { f with ents := [], moving := false, moved := true }).modF (partner sl) fun f => { f with hosting := true } := by
  have apart : partner sl ≠ sl.val := by
    have := sl.isLt
    unfold partner
    omega
  have ms : (d.modF sl fun f => { f with ents := [], moving := false, moved := true }).ms (partner sl) = d.ms (partner sl) := by
    rw [Dev.ms_modF h, if_neg apart]
  simp only [Dev.filterMove, hm, hp, he, Bool.not_true, Bool.false_eq_true, if_false, List.filter_nil, List.foldl_nil, List.isEmpty_nil, if_true]
  refine Dev.modMs_congr _ _ _ _ ?_
  rw [ms]
  rfl

/-- Settles O24. -/
theorem lostLinesAndMovedFiltersSettle : Obligations.LostLinesAndMovedFiltersSettle := by
  unfold Obligations.LostLinesAndMovedFiltersSettle
  refine ⟨?_, ?_⟩
  · intro s sl ld sector line ep loc e hrest hsl hl hh hw hf hls ho
    have h := s.dev.atRest_iff.1 hrest
    have h1 := h.modF sl fun f => { f with losses := [] }
    subst ho
    refine onUnit_ends hsl ((Dev.applyLoss_one h hl hh hw).trans (Dev.lossLine_unacked ?_ hls)) (h1.putFent _ _ _)
    exact (Dev.fent_modF h sl (fun f => { f with losses := [] }) sector).trans hf
  · intro s sl hrest hsl hm hp he
    have h := s.dev.atRest_iff.1 hrest
    exact onUnit_ends hsl (Dev.filterMove_empty h hm hp he) ((h.modF _ _).modF _ _)

/-! Control of a Barge channel (R324, R343 to R345, R404). -/

theorem Dev.modBg_congr (d : Dev) (n : Nat) (f g : BrgCh → BrgCh) (h : f (d.bg n) = g (d.bg n)) : d.modBg n f = d.modBg n g := by
  unfold Dev.modBg
  rw [h]

/-- A Barge command that changes one channel. -/
theorem onBarge_modBg {s : State} {f : Dev → Dev} (h : s.dev.Rest) (hb : s.dev.bargeOn1 = true) (n : Nat) (g : BrgCh → BrgCh) (hf : f s.dev = s.dev.modBg n g) :
    onBarge s f = .next (s.to (s.dev.modBg n g)) :=
  onBarge_ends hb hf (h.modBg n g)

/-- R324: a doorbell within the ring starts an idle channel that has descriptors. -/
theorem Dev.doorbell_idle {d : Dev} (h : d.Rest) {n : Nat} {tail : BitVec 17} (hi : (d.bg n).st = .idle) (ht : tail ≠ (d.bg n).head)
    (hr : (tail - (d.bg n).head).toNat ≤ (d.bg n).ringSize) :
    (d.abortLaidUp 2 n 1).doorbell n tail = d.modBg n fun y => { y with tail, st := .running } := by
  rw [h.abortLaidUp]
  simp only [Dev.doorbell, Nat.not_lt.2 hr, decide_false, Bool.false_and, Bool.false_eq_true, if_false]
  exact d.modBg_congr n _ _ (by simp [hi, ht.symm])

/-- R404: ENABLE written to a Disabled channel that may run. -/
theorem Dev.bgEnable_disabled {d : Dev} {n r : Nat} {q : Bool} (hs : (d.bg n).st = .disabled) (hb : (d.bg n).bad = false) (hp : (d.bg n).stop = false)
    (hr : r ≤ 13) (ho : (d.bg n).owner = .host → (d.bg n).hostok = true ∧ d.on n = true ∧ n % 2 = 0) :
    d.bgEnable n r q = d.modBg n fun y =>
      { y with enable := true, ringlog2 := r, irqen := q, st := if (d.bg n).head = (d.bg n).tail then .idle else .running } := by
  have allowed : (decide ((d.bg n).owner = .host) && (!(d.bg n).hostok || !d.on n || (decide (n % 2 = 1) && (d.ld (n - 1)).link.merged))) = false := by
    by_cases hh : (d.bg n).owner = .host
    · obtain ⟨ok, on, even⟩ := ho hh
      simp [ok, on, even]
    · simp [hh]
  simp only [Dev.bgEnable, hs, ne_eq, not_true_eq_false, if_false]
  refine d.modBg_congr n _ _ ?_
  rw [allowed]
  simp only [BrgCh.boundary, hb, hp, hr, Nat.not_lt.2 hr, decide_false, Bool.or_false, Bool.not_false, Bool.not_true, Bool.false_eq_true, if_false, if_true]
  split <;> rfl

/-- R344: a bus-error retry that succeeds outside the internal map clears the error. -/
theorem Dev.busRetry_good {d : Dev} {n a : Nat} (he : (d.bg n).prog.err = some a) (ha : spaceOf a ≠ 1) (hr : (d.bg n).prog.retry < d.p 0x1B0) :
    d.busRetry n true = d.modBg n fun y =>
      { y with retries := satAdd 0xFFFF y.retries 1, prog := { y.prog with err := none, retry := y.prog.retry + 1 } } := by
  simp [Dev.busRetry, he, hr]

/-- Settles O35, one rule a clause. -/
theorem bargeChannelControl : Obligations.BargeChannelControl := by
  unfold Obligations.BargeChannelControl
  intro s n hrest hb b
  have h := s.dev.atRest_iff.1 hrest
  refine ⟨fun tail hi ht hr => ?_, fun hi => ?_, fun hr hc => ?_, fun hs he hp => ?_, fun r q hs hbad hp hr ho => ?_, fun hi hc => ?_, fun a he ha hr => ?_⟩
  · change onBarge s (fun d => (d.abortLaidUp 2 n 1).doorbell n tail) = _
    exact onBarge_modBg h hb n _ (Dev.doorbell_idle h hi ht hr)
  · change onBarge s (fun d => d.bgStop n) = _
    exact onBarge_modBg h hb n _ (s.dev.modBg_congr n _ _ (by simp [BrgCh.stopNow, show (s.dev.bg n).st = .idle from hi]))
  · change onBarge s (fun d => d.bgStop n) = _
    refine onBarge_modBg h hb n _ (s.dev.modBg_congr n _ _ ?_)
    simp [BrgCh.stopNow, show (s.dev.bg n).st = .running from hr, show (s.dev.bg n).cur ≠ none from hc]
  · change onBarge s (fun d => d.bgRun n) = _
    refine onBarge_modBg h hb n _ (s.dev.modBg_congr n _ _ ?_)
    simp only [Bool.or_eq_true, decide_eq_true_eq, BrgCh.boundary, show (s.dev.bg n).enable = true from he, show (s.dev.bg n).stop = false from hp,
      Bool.not_true, Bool.false_eq_true, if_false]
    rw [if_pos hs]
    split <;> rfl
  · change onBarge s (fun d => d.bgEnable n r q) = _
    exact onBarge_modBg h hb n _ (Dev.bgEnable_disabled hs hbad hp hr ho)
  · change onBarge s (fun d => d.bgDisable n) = _
    refine onBarge_modBg h hb n _ (s.dev.modBg_congr n _ _ ?_)
    simp [BrgCh.disable, show (s.dev.bg n).st = .idle from hi, show (s.dev.bg n).cur = none from hc]
  · change onBarge s (fun d => d.busRetry n true) = _
    exact onBarge_modBg h hb n _ (Dev.busRetry_good he ha hr)

end Sys2Proof.Machine
end

section
/-! Scratch windows (R189, R190), class windows (R314, R315, R317) and data that reaches a host from another one (R219, R224). -/
namespace Sys2Proof.Machine

/-- Bytes stored one after the other from place `x` of a table are found there, and every other place keeps its byte. -/
theorem tget_putBytes (x : Nat) (bs : List Byte) {t : Tbl Byte} (ht : Tbl.rises t = true) :
    let u := ((List.range bs.length).zip bs).foldl (fun t y => tput 0#8 t (x + y.1) y.2) t
    Tbl.rises u = true ∧ ∀ a, tget 0#8 u a = if x ≤ a ∧ a < x + bs.length then bs.getD (a - x) 0#8 else tget 0#8 t a := by
  induction bs using List.reverseRecOn with
  | nil => exact ⟨ht, fun a => (if_neg (by simp only [List.length_nil]; omega)).symm⟩
  | append_singleton bs b ih =>
    obtain ⟨rises, found⟩ := ih
    have last : (List.range (bs ++ [b]).length).zip (bs ++ [b]) = (List.range bs.length).zip bs ++ [(bs.length, b)] := by
      rw [List.length_append, List.length_singleton, List.range_succ, List.zip_append (by simp)]
      rfl
    rw [last, List.foldl_append]
    refine ⟨rises_tput _ _ _ _ rises, fun a => ?_⟩
    refine (tget_tput 0#8 b _ (x + bs.length) a rises).trans ?_
    rw [found a, List.length_append, List.length_singleton]
    rcases Nat.lt_trichotomy a (x + bs.length) with h | h | h
    · rw [if_neg (by omega)]
      by_cases hx : x ≤ a
      · rw [if_pos ⟨hx, h⟩, if_pos ⟨hx, by omega⟩, List.getD_append _ _ _ _ (by omega)]
      · rw [if_neg (by omega), if_neg (by omega)]
    · rw [if_pos h, if_pos ⟨by omega, by omega⟩, show a - x = bs.length by omega, List.getD_append_right _ _ _ _ (Nat.le_refl _)]
      simp
    · rw [if_neg (by omega), if_neg (by omega), if_neg (by omega)]

/-- R190: the window of scratch is the fourth memory of the internal map. -/
theorem memoryOf_scratch {off : Nat} (h : off < 2 ^ 27) : memoryOf (0x80000000 + off) = some (3, off) := by
  have top : off < 0x8000000 := h
  unfold memoryOf
  rw [if_neg (by omega), if_neg (by omega), if_neg (by omega), if_neg (by omega), if_pos (by omega), Nat.add_sub_cancel_left]

/-- An offset in the window and a length that stays in its page are taken as they are. -/
theorem scratch_span {off n : Nat} (hoff : off < 2 ^ 27) (hn : off % 4096 + n ≤ 4096) :
    off % 2 ^ 27 = off ∧ n ≤ 4096 - (0x80000000 + off) % 4096 := by
  refine ⟨Nat.mod_eq_of_lt hoff, ?_⟩
  omega

theorem Dev.scratchRead_ok {d : Dev} {ag : ScrAgent} {off n sl x : Nat} (hi : d.noInj = true) (hc : d.coreOn = true) (hoff : off < 2 ^ 27)
    (hn : off % 4096 + n ≤ 4096) (ha : d.allowed (scrAgent ag) (0x80000000 + off) n false = true) (hs : d.scratchAt off = some (sl, x)) :
    d.scratchOp ag off (.read n .ok) = { d with dbgOut := (List.range n).map fun i => tget 0#8 (d.ms sl).wharf.scratch (x + i) } := by
  obtain ⟨off_eq, n_le⟩ := scratch_span hoff hn
  simp only [Dev.scratchOp, Dev.scratchRead, off_eq, Nat.min_eq_left n_le, hc, ha, Bool.not_true, Bool.false_eq_true, if_false, Dev.rawRead,
    memoryOf_scratch hoff, hs, Dev.check_noInj hi]

/-- R189: the bytes of a write to scratch, and the poison of the units it covers whole. -/
def Wharf.scratchPut (x : Nat) (bs : List Byte) (w : Wharf) : Wharf :=
  { w with scratch := ((List.range bs.length).zip bs).foldl (fun t y => tput 0#8 t (x + y.1) y.2) w.scratch
           scrPois := w.scrPois.filter fun u => !(decide (x ≤ u * 16) && decide (u * 16 + 16 ≤ x + bs.length)) }

theorem Dev.scratchWrite_ok {d : Dev} {ag : ScrAgent} {off sl x : Nat} {bs : List Byte} (hc : d.coreOn = true) (hoff : off < 2 ^ 27)
    (hn : off % 4096 + bs.length ≤ 4096) (ha : d.allowed (scrAgent ag) (0x80000000 + off) bs.length true = true) (hs : d.scratchAt off = some (sl, x)) :
    d.scratchOp ag off (.write bs) = d.modW sl (Wharf.scratchPut x bs) := by
  obtain ⟨off_eq, n_le⟩ := scratch_span hoff hn
  simp only [Dev.scratchOp, Dev.scratchWrite, off_eq, List.take_of_length_le n_le, hc, ha, Bool.not_true, Bool.false_eq_true, if_false, Dev.rawWrite,
    memoryOf_scratch hoff, hs]
  rfl

/-- Settles O27. -/
theorem scratchReadsWhatWasWritten : Obligations.ScratchReadsWhatWasWritten := by
  unfold Obligations.ScratchReadsWhatWasWritten
  intro s ag off hrest hi hc hoff
  have h := s.dev.atRest_iff.1 hrest
  refine ⟨fun n hn ha sl x hs => ?_, fun bs hn ha sl x hs ht => ?_⟩
  · change onDev s (fun d => d.scratchOp ag off (.read n .ok)) = _
    exact onDev_ends (Dev.scratchRead_ok hi hc hoff hn ha hs) h.same
  · have written : (s.dev.modW sl (Wharf.scratchPut x bs)).ms sl = { s.dev.ms sl with wharf := (s.dev.ms sl).wharf.scratchPut x bs } := by
      exact (Dev.ms_modMs h sl sl _).trans (if_pos rfl)
    refine ⟨s.to (s.dev.modW sl (Wharf.scratchPut x bs)), ?_, rfl, rfl, fun m hm => ?_, ?_, ?_⟩
    · change onDev s (fun d => d.scratchOp ag off (.write bs)) = _
      exact onDev_ends (Dev.scratchWrite_ok hc hoff hn ha hs) (h.modW _ _)
    · exact (Dev.ms_modMs h sl m _).trans (if_neg hm)
    · rw [State.to_dev, written]; rfl
    · rw [State.to_dev, written]
      exact (tget_putBytes x bs ht).2

/-! Class windows. -/

/-- R317: metering receipts changes the meters alone. -/
theorem Dev.meter_tele (rs : List Receipt) (d : Dev) : ∃ tele, rs.foldl (fun d x => d.meterOne x) d = { d with tele } := by
  induction rs generalizing d with
  | nil => exact ⟨_, rfl⟩
  | cons x rs ih => exact ih (d.meterOne x)

/-- A window that ends with the broadcast figures in force: the admitted records apply and nothing is used of the next window. -/
theorem Dev.windowEnd_calm {d : Dev} (hw : d.qos.dwNext = d.qos.dw) (hq : d.qos.dqNext = d.qos.dq) (hi : d.qos.diNext = d.qos.di) (he : d.qos.lastEv = [])
    (rs : List Receipt) :
    d.windowEnd rs = { rs.foldl (fun d x => d.meterOne x) d with
      qos := { d.qos with recs := d.qos.pend.foldl (fun t x => tput none t x.1 x.2) d.qos.recs, pend := [], slots := [], deps := [] } } := by
  obtain ⟨tele, metered⟩ := d.meter_tele rs
  unfold Dev.windowEnd
  dsimp only
  rw [metered]
  simp only [hw, hq, hi, ne_eq, not_true_eq_false, decide_false, Bool.false_and, Bool.false_eq_true, if_false, List.foldl_fixed, Dev.mergedOut, he,
    List.foldl_nil]

theorem exec_windowBoundary {s : State} (h : s.dev.Rest) (hw : s.dev.qos.dwNext = s.dev.qos.dw) (hq : s.dev.qos.dqNext = s.dev.qos.dq)
    (hi : s.dev.qos.diNext = s.dev.qos.di) (he : s.dev.qos.lastEv = []) (rs : List Receipt) :
    exec (.qosWindowBoundary rs) s = .next (s.to { rs.foldl (fun d x => d.meterOne x) s.dev with
      qos := { s.dev.qos with recs := s.dev.qos.pend.foldl (fun t x => tput none t x.1 x.2) s.dev.qos.recs, pend := [], slots := [], deps := [] } }) := by
  obtain ⟨tele, metered⟩ := s.dev.meter_tele rs
  change onDev s (fun d => d.windowEnd rs) = _
  refine onDev_ends (Dev.windowEnd_calm hw hq hi he rs) ?_
  rw [metered]
  exact h.same

/-- Settles O34. -/
theorem windowsApplyClassRecords : Obligations.WindowsApplyClassRecords := by
  unfold Obligations.WindowsApplyClassRecords
  intro s hrest
  have h := s.dev.atRest_iff.1 hrest
  refine ⟨?_, fun hw hq hi he => ⟨exec_windowBoundary h hw hq hi he, fun u k got => ⟨_, exec_windowBoundary h hw hq hi he _, ?_⟩⟩⟩
  · change onDev s (fun d => d.recompute) = _
    exact onDev_ends rfl h.same
  · simp [Dev.meterOne, shareRes, State.to_dev]
    rfl

/-! Data that reaches a host from another one (R219, R224). -/

/-- R53: a response with a transfer to a host that can be answered at once leaves as a flit that names the transfer. -/
def Landing.sentXfer (r : Rsp) (x : Option (Nat × Nat)) (l : Landing) : Landing :=
  ({ l with pool := { l.pool with hostCred := l.pool.hostCred - 1 } } : Landing).sendFlit (some r) x

theorem Dev.respond_xfer {d : Dev} {n : Nat} (hr : d.Rest) (h : d.hears n = true) (r : Rsp) (x : Option (Nat × Nat)) :
    d.respond n r x = d.modLd n (Landing.sentXfer r x) := by
  simp only [Dev.hears, Bool.and_eq_true, decide_eq_true_eq] at h
  obtain ⟨⟨up, short⟩, credit⟩ := h
  unfold Dev.respond
  rw [up]
  apply Dev.modLd_congr
  simp [hr.txq n, Landing.pump, up, short, credit, Landing.sentXfer, Landing.sendFlit, Pool.giveHost]

theorem Dev.linkLive_of_hears {d : Dev} {n : Nat} (h : d.hears n = true) : d.linkLive n = true := by
  simp [Dev.linkLive, Dev.hears_up h]

/-- What counting, in landing `n` and outside the landings, leaves as it was. -/
structure SameLine (n : Nat) (d e : Dev) : Prop where
  rest : e.Rest
  xfers : (e.ld n).coh.xfers = (d.ld n).coh.xfers
  replay : (e.ld n).pool = (d.ld n).pool
  slc : e.slc = d.slc
  mem : e.mem = d.mem

theorem SameLine.refl {d : Dev} (h : d.Rest) (n : Nat) : SameLine n d d := ⟨h, rfl, rfl, rfl, rfl⟩

theorem SameLine.bump {n : Nat} {d e : Dev} (k : SameLine n d e) (code inst m : Nat) : SameLine n d (e.bump code inst m) := by
  refine ⟨k.rest.bump _ _ _ _ _, ?_, ?_, (Dev.bump_slc ..).trans k.slc, (Dev.bump_mem ..).trans k.mem⟩ <;> rw [Dev.ld_bump]
  · exact k.xfers
  · exact k.replay

theorem SameLine.startHold {n : Nat} {d e : Dev} (k : SameLine n d e) (sector : Nat) : SameLine n d (e.startHold n sector) := by
  unfold Dev.startHold
  split
  · exact k
  · refine ⟨k.rest.modLd _ _, ?_, ?_, k.slc, k.mem⟩ <;> rw [Dev.ld_modLd_self k.rest]
    · exact k.xfers
    · exact k.replay

/-- R219: a data message of one transfer is taken off its way. -/
def Landing.arrived (x : Xfer) (rest : List (BitVec 4 × Line × Bool)) (take : Bool) (l : Landing) : Landing :=
  { l with coh := { l.coh with xfers := l.coh.xfers.map fun y => if y = x then { y with inFlight := rest, got := y.got || take } else y } }

/-- Settles O23: the data that completes the request and what is discarded. -/
theorem transferCompletesTheRequest : Obligations.TransferCompletesTheRequest := by
  unfold Obligations.TransferCompletesTheRequest
  intro s n x ep data pois rest hrest hn hh hx hfl hgot
  have h := s.dev.atRest_iff.1 hrest
  have found : (s.dev.ld n).coh.xfers.find? (fun x => !x.inFlight.isEmpty) = some x := by rw [hx]; simp [hfl]
  have arrives (take : Bool) : ((s.dev.ld n).arrived x rest take).coh.xfers = [{ x with inFlight := rest, got := take }] := by
    simp [Landing.arrived, hx, hgot]
  refine ⟨fun he => ?_, fun he => ?_⟩
  · have h1 := h.modLd n (Landing.arrived x rest true)
    have hears := Dev.hears_modLd h hh (Landing.arrived x rest true)
    have ld1 := Dev.ld_modLd_self h n (Landing.arrived x rest true)
    obtain ⟨d1, hd1⟩ : ∃ d1, d1 = s.dev.modLd n (Landing.arrived x rest true) := ⟨_, rfl⟩
    rw [← hd1] at h1 hears ld1
    let lat := ((d1.ld n).rxtx + 40 + 20 * d1.hop n x.home) / 10 + 10
    obtain ⟨d2, hd2⟩ : ∃ d2, d2 = d1.modLd n (Landing.sentXfer (.data x.tag data pois x.grant lat) (some (x.epoch.toNat, x.sector))) := ⟨_, rfl⟩
    have h2 : d2.Rest := hd2 ▸ h1.modLd n _
    have ld2 : d2.ld n = ((s.dev.ld n).arrived x rest true).sentXfer (.data x.tag data pois x.grant lat) (some (x.epoch.toNat, x.sector)) := by
      rw [hd2, Dev.ld_modLd_self h1, ld1]
    obtain ⟨e, counts, same⟩ : ∃ e, s.dev.dataArrives n = e ∧ SameLine n d2 e := by
      refine ⟨_, rfl, ?_⟩
      simp only [Dev.dataArrives, found, hfl, hgot, he, Bool.not_false, decide_true, Bool.and_self, Bool.not_true, Bool.false_or]
      rw [show (s.dev.modLd n fun l => { l with coh := { l.coh with xfers := l.coh.xfers.map fun y =>
        if y = x then { y with inFlight := rest, got := y.got || true } else y } }) = d1 from hd1.symm, Dev.linkLive_of_hears hears]
      rw [if_neg (by decide), Dev.respond_xfer h1 hears, ← hd2]
      have counted := (((SameLine.refl h2 n).bump 0x001 n 1).bump 0x003 n 64).bump 0x005 n lat
      split <;> split
      · exact (counted.bump 0x00A n 1).startHold _
      · exact counted.startHold _
      · exact counted.bump 0x00A n 1
      · exact counted
    refine ⟨s.to e, lat, onUnit_ends hn counts same.rest, ?_, ?_, ?_, ?_⟩
    · exact same.xfers.trans ((congrArg (·.coh.xfers) ld2).trans (arrives true))
    · exact congrArg (·.replay) (same.replay.trans (congrArg (·.pool) ld2))
    · exact same.slc.trans (by rw [hd2, hd1]; rfl)
    · exact same.mem.trans (by rw [hd2, hd1]; rfl)
  · have keeps : s.dev.dataArrives n = s.dev.modLd n (Landing.arrived x rest false) := by
      simp only [Dev.dataArrives, found, hfl, hgot, he, decide_false, Bool.and_false, Bool.not_false, Bool.true_or, if_true]
      rfl
    refine ⟨_, onUnit_modLd h hn n _ keeps, ?_, ?_, rfl, rfl⟩ <;> rw [State.to_dev, Dev.ld_modLd_self h]
    · rw [arrives, ← hgot]
    · rfl

end Sys2Proof.Machine
end

section
/-! Requests of a host to lines of the Wharf (R26 to R33, R35, R44, R180, R195, R213, R312). -/
namespace Sys2Proof.Machine

/-- Where the landings are the same, the same landings hear. -/
theorem Dev.hears_of_lnd {d e : Dev} (h : e.lnd = d.lnd) (n : Nat) : e.hears n = d.hears n := by
  unfold Dev.hears Dev.ld
  rw [h]

theorem Dev.ld_of_lnd {d e : Dev} (h : e.lnd = d.lnd) (n : Nat) : e.ld n = d.ld n := by
  unfold Dev.ld
  rw [h]

theorem Dev.hop_of_links {d e : Dev} (h : e.lko.links = d.lko.links) (a b : Nat) : e.hop a b = d.hop a b := by
  unfold Dev.hop Dev.via
  rw [h]

/-- R80, R96: the work of a request that passes its checks. -/
theorem Dev.checkReq_ok {d : Dev} {n : Nat} {q : Req} {sl : Nat} {w : Work} (h : d.checkReq n q = .ok sl w) :
    w.ld = some n ∧ w.req = q ∧ w.grant = none ∧ w.pf = false ∧ w.dead = false ∧ w.ack = false ∧
      ∃ label dpa, (d.ld n).acc.decode q.hpa.toNat = some (label, dpa) ∧ w.line = dpa / 64 := by
  unfold Dev.checkReq at h
  split at h
  · exact absurd h (by simp)
  · next label dpa decodes =>
    unfold Dev.checkLine at h
    dsimp only at h
    split at h
    · exact absurd h (by simp)
    · split at h
      · exact absurd h (by simp)
      · split at h
        · exact absurd h (by simp)
        · split at h
          · exact absurd h (by simp)
          · obtain ⟨-, rfl⟩ := Checked.ok.inj h
            exact ⟨rfl, rfl, rfl, rfl, rfl, rfl, label, dpa, decodes, rfl⟩

/-- With no injection waiting a sound tag is read. -/
theorem Dev.tagCheck_sound {d : Dev} (hi : d.noInj = true) (sl line : Nat) : d.tagCheck sl line {} = d := by
  simp [Dev.tagCheck, Dev.check_noInj hi]

theorem Dev.parityRead_sound {d : Dev} (hi : d.noInj = true) (sl k : Nat) : d.parityRead sl k {} = (true, d) := by
  simp [Dev.parityRead, Dev.check_noInj hi]

/-- R35: at a slice with nothing waiting a request is served at once, and waits only when it cannot be. -/
theorem Dev.submit_served {d e : Dev} (h : d.Rest) {sl : Nat} {w : Work} {ph : Phys} (hs : d.serve sl w ph = (none, e)) : d.submit sl w ph = e := by
  simp only [Dev.submit, (h.slice sl).1, List.any_nil, Bool.false_and, Bool.false_eq_true, if_false, hs]

/-- A request that passes its checks on a landing with no request waiting goes to its home slice. -/
theorem Dev.memReq_passed {d : Dev} {n : Nat} {q : Req} {sl : Nat} {w : Work} {ph : Phys} (hm : (d.ld n).link.memen = true)
    (hc : d.checkReq n q = .ok sl w) (hw : (d.ld n).wait = []) (hk : (q.kind.writes && decide ((d.ld n).ideMem.mode = .skid)) = false) :
    d.memReq n q ph = (match q.kind with
      | .rd _ => match ((d.submit sl w ph).ld n).acc.decode q.hpa.toNat with
        | some (label, _) => (d.submit sl w ph).stride n label w.line q.hpa
        | none => d.submit sl w ph
      | _ => d.submit sl w ph) := by
  have noted : d.skidNote n w.line q.kind = d := by rw [Dev.skidNote, hk, if_neg Bool.false_ne_true]
  simp only [Dev.memReq, hm, hc, if_true, noted, hw, List.any_nil, Bool.false_eq_true, if_false] <;> rfl

/-- R30, R213: an eviction notice of a private line is completed and does nothing else. -/
theorem Dev.memReq_clnEvct {d : Dev} (h : d.Rest) {n : Nat} {hpa : BitVec 64} {tag : BitVec 16} {sl : Nat} {w : Work} {ph : Phys} (hh : d.hears n = true)
    (hm : (d.ld n).link.memen = true) (hw : (d.ld n).wait = []) (hc : d.checkReq n { kind := .clnEvct, hpa, tag } = .ok sl w) (hs : w.shared = false) :
    d.memReq n { kind := .clnEvct, hpa, tag } ph = d.modLd n fun l => l.sent (.cmp tag .noOp) := by
  obtain ⟨ld, req, -⟩ := Dev.checkReq_ok hc
  have served : d.serve sl w ph = (none, d.modLd n fun l => l.sent (.cmp tag .noOp)) := by
    simp only [Dev.serve, hs, Bool.false_and, Bool.false_eq_true, if_false, req, ld]
    rw [Dev.respond_hears h hh]
  exact (Dev.memReq_passed hm hc hw rfl).trans (Dev.submit_served h served)

/-- What a command at landing `n` keeps of what the next step at the landing looks at. -/
structure KeepsLd (n : Nat) (d e : Dev) : Prop where
  rest : e.Rest
  acc : (e.ld n).acc = (d.ld n).acc
  strides : (e.ld n).strides = (d.ld n).strides
  prm : e.prm = d.prm

theorem KeepsLd.refl {d : Dev} (h : d.Rest) (n : Nat) : KeepsLd n d d := ⟨h, rfl, rfl, rfl⟩

theorem KeepsLd.bump {n : Nat} {d e : Dev} (k : KeepsLd n d e) (code inst m : Nat) (ld cls : Option Nat) : KeepsLd n d (e.bump code inst m ld cls) := by
  have ld' := Dev.ld_of_lnd (Dev.bump_lnd e code inst m ld cls) n
  exact ⟨k.rest.bump _ _ _ _ _, by rw [ld', k.acc], by rw [ld', k.strides], (Dev.bump_prm ..).trans k.prm⟩

theorem KeepsLd.modW {n : Nat} {d e : Dev} (k : KeepsLd n d e) (sl : Nat) (f : Wharf → Wharf) : KeepsLd n d (e.modW sl f) :=
  ⟨k.rest.modW sl f, k.acc, k.strides, k.prm⟩

theorem KeepsLd.sent {n : Nat} {d e : Dev} (k : KeepsLd n d e) (r : Rsp) : KeepsLd n d (e.modLd n fun l => l.sent r) := by
  have ld' := Dev.ld_modLd_self k.rest n fun l => l.sent r
  exact ⟨k.rest.sent n r, by rw [ld', ← k.acc]; rfl, by rw [ld', ← k.strides]; rfl, k.prm⟩

/-- R26 to R29: the answer of a read with its data in hand, and its counts. -/
def Dev.readAnswered (d : Dev) (n : Nat) (tag : BitVec 16) (data : Line) (pois : Bool) (lat : Nat) (c : Option Nat) : Dev :=
  let d := d.modLd n fun l => l.sent (.data tag data pois .noOp lat)
  let d := ((d.bump 0x001 n 1 none c).bump 0x003 n 64 none c).bump 0x005 n lat none c
  if pois then d.bump 0x00A n 1 none c else d

theorem Dev.readDone_answered {d : Dev} (h : d.Rest) {n sl x : Nat} {w : Work} {data : Line} {pois : Bool} {snp : Snp} (hh : d.hears n = true)
    (hl : w.ld = some n) (hd : w.dead = false) (hk : w.req.kind = .rd snp) :
    d.readDone sl w data pois .noOp x = d.readAnswered n w.req.tag data pois (((d.ld n).rxtx + 40 + 20 * d.hop n sl) / 10 + x) (some w.cls) := by
  simp only [Dev.readDone, hl, hd, Dev.linkLive_of_hears hh, hk, Bool.not_true, Bool.or_self, Bool.false_eq_true, if_false, Dev.respond_hears h hh]
  rfl

/-- R26, R184, R195: a read that hits counts the hit, a used prefetch, and makes its line the youngest. -/
def Dev.readHit (d : Dev) (sl n k : Nat) (c : Option Nat) : Dev :=
  let x := (d.ms sl).wharf.get k
  let d := d.bump 0x101 sl 1 (some n) c
  let d := if x.pf then d.bump 0x007 n 1 none c else d
  d.modW sl fun v => v.put k { x with age := 0, pf := false }

theorem Dev.readHit_keeps {d : Dev} (h : d.Rest) (sl n k : Nat) (c : Option Nat) :
    KeepsLd n d (d.readHit sl n k c) ∧ (d.readHit sl n k c).lnd = d.lnd ∧ (d.readHit sl n k c).lko = d.lko := by
  have hit := (KeepsLd.refl h n).bump 0x101 sl 1 (some n) c
  unfold Dev.readHit
  dsimp only
  split
  · exact ⟨(hit.bump 0x007 n 1 none c).modW _ _, by simp, by simp⟩
  · exact ⟨hit.modW _ _, by simp, by simp⟩

theorem Dev.serveRead_hit {d : Dev} (hi : d.noInj = true) {sl n k : Nat} {w : Work} (hf : (d.ms sl).wharf.find w.line = some k) (hp : w.pf = false)
    (hl : w.ld = some n) :
    d.serveRead sl w {} = (none, (d.readHit sl n k (some w.cls)).answer sl w ((d.ms sl).wharf.get k).data ((d.ms sl).wharf.get k).pois 8) := by
  simp only [Dev.serveRead, hf, hp, hl, Bool.false_eq_true, if_false, Dev.parityRead_sound hi, if_true]
  rfl

/-- R195: a landing that watches no stream begins to watch this one, and prefetches nothing. -/
theorem Dev.stride_first {d : Dev} {n : Nat} (hs : (d.ld n).strides = []) (label line : Nat) (hpa : BitVec 64) :
    d.stride n label line hpa = d.modLd n fun l => (l.watch line label (d.p 0x174)).1 := by
  have fresh : ((d.ld n).watch line label (d.p 0x174)).2.trained = false := by simp [Landing.watch, hs]
  simp only [Dev.stride, fresh, Bool.not_false, Bool.true_or, if_true]
  exact d.modLd_congr n _ _ rfl

theorem Landing.watch_txq (l : Landing) (line label train : Nat) : (l.watch line label train).1.pool = l.pool := by
  unfold Landing.watch
  dsimp only
  split <;> rfl

/-- Settles O4: the hit (`readHit`), the answer (`readAnswered`) and the stream (`stride_first`). -/
theorem readHitAnswersFromWharf : Obligations.ReadHitAnswersFromWharf := by
  unfold Obligations.ReadHitAnswersFromWharf
  intro s n q sl k w hrest hn hi hh hm hq hc hs hf hstr hwait x c lat d1 d2 d3 d4 d5 d6
  have h := s.dev.atRest_iff.1 hrest
  obtain ⟨ld, req, grant, pf, dead, -, label, dpa, decodes, -⟩ := Dev.checkReq_ok hc
  have kind : q.toReq.kind = .rd q.snp := by simp [ReadReq.toReq, hq]
  obtain ⟨hit, lnd, lko⟩ := Dev.readHit_keeps h sl n k c
  have hit_ld := Dev.ld_of_lnd lnd n
  have latency : (((s.dev.readHit sl n k c).ld n).rxtx + 40 + 20 * (s.dev.readHit sl n k c).hop n sl) / 10 + 8 = lat := by
    rw [hit_ld, Dev.hop_of_links (congrArg (·.links) lko)]
  have answered : (s.dev.readHit sl n k c).answer sl w x.data x.pois 8 = d6 := by
    simp only [Dev.answer, pf, ld, grant, Option.getD_none, Bool.false_eq_true, if_false]
    rw [Dev.readDone_answered hit.rest ((Dev.hears_of_lnd lnd n).trans hh) ld dead (by rw [req]; exact kind), latency, req]
    rfl
  have served : s.dev.submit sl w {} = d6 := by
    refine Dev.submit_served h ?_
    simp only [Dev.serve, hs, Bool.false_and, Bool.false_eq_true, if_false, req, kind, Dev.serveLocal, Dev.tagCheck_sound hi, ReqKind.writes]
    rw [Dev.serveRead_hit hi hf pf ld, answered]
  have keeps : KeepsLd n s.dev d6 := by
    have counted := (((hit.sent (.data q.tag x.data x.pois .noOp lat)).bump 0x001 n 1 none c).bump 0x003 n 64 none c).bump 0x005 n lat none c
    show KeepsLd n s.dev (if x.pois then _ else _)
    split
    · exact counted.bump 0x00A n 1 none c
    · exact counted
  refine ⟨label, dpa, decodes, ?_⟩
  change onUnit n s (fun d => (d.memHook n).memReq n q.toReq {}) = _
  refine onUnit_ends hn ?_ (keeps.rest.modLd n _ fun l hl => by rw [Landing.watch_txq]; exact hl)
  rw [h.memHook, Dev.memReq_passed hm hc hwait (by rw [kind]; rfl), kind, served]
  dsimp only
  have decodes' : (d6.ld n).acc.decode q.toReq.hpa.toNat = some (label, dpa) := by rw [keeps.acc]; exact decodes
  rw [decodes']
  dsimp only
  rw [Dev.stride_first (keeps.strides.trans hstr)]
  unfold Dev.p
  rw [keeps.prm]

theorem Dev.ms_of_slc {d e : Dev} (h : e.slc = d.slc) (n : Nat) : e.ms n = d.ms n := by
  unfold Dev.ms
  rw [h]

/-- R32: the completion of a full write, and its counts. -/
def Dev.writeAcked (d : Dev) (n : Nat) (tag : BitVec 16) (c : Option Nat) : Dev :=
  ((d.modLd n fun l => l.sent (.cmp tag .noOp)).bump 0x002 n 1 none c).bump 0x004 n 64 none c

theorem Dev.ackWrite_full {d : Dev} (h : d.Rest) {n : Nat} {w : Work} {mv : MetaV} (hh : d.hears n = true) (ha : w.ack = false) (hl : w.ld = some n)
    (hd : w.dead = false) (hk : w.req.kind = .wr mv) : d.ackWrite w = d.writeAcked n w.req.tag (some w.cls) := by
  simp only [Dev.ackWrite, ha, Dev.writeDone, hl, hd, Dev.linkLive_of_hears hh, hk, Bool.not_true, Bool.or_self, Bool.false_eq_true, if_false,
    Dev.respond_hears h hh]
  rfl

/-- R180: a full line written over a dirty line replaces it and leaves it dirty. -/
theorem Dev.applyWrite_dirty {d : Dev} {sl k : Nat} {w : Work} {mv : MetaV} (hf : (d.ms sl).wharf.find w.line = some k)
    (hk : w.req.kind = .wr mv) (hs : ((d.ms sl).wharf.get k).st = .dirty) (old : Line) (pois : Bool) (ph : Phys) :
    d.applyWrite sl w old pois ph = (true, d.modW sl fun v =>
      v.put k { (d.ms sl).wharf.get k with data := w.req.data, pois := w.req.poison, whole := true, cls := w.cls, age := 0, pf := false }) := by
  simp only [Dev.applyWrite, hk, hf, Option.isNone_some, Bool.and_false, Bool.false_eq_true, if_false, Dev.installDirty, hs]
  rw [if_neg (by simp)]
  refine congrArg (Prod.mk true) (d.modMs_congr sl _ _ ?_)
  simp only [Wharf.dirtied, hs]

/-- R33, R180: a full write that hits a dirty line is completed, counted as a hit and lands. -/
theorem Dev.serveWrite_dirty {d : Dev} (h : d.Rest) {n sl k : Nat} {w : Work} {mv : MetaV} (hh : d.hears n = true)
    (hf : (d.ms sl).wharf.find w.line = some k) (hs : ((d.ms sl).wharf.get k).st = .dirty) (hm : (d.ms sl).misses = []) (ha : w.ack = false)
    (hl : w.ld = some n) (hd : w.dead = false) (hk : w.req.kind = .wr mv) :
    d.serveWrite sl w {} = (none, ((d.writeAcked n w.req.tag (some w.cls)).bump 0x101 sl 1 (some n) (some w.cls)).modW sl fun v =>
      v.put k { (d.ms sl).wharf.get k with data := w.req.data, pois := w.req.poison, whole := true, cls := w.cls, age := 0, pf := false }) := by
  have slc : ((d.writeAcked n w.req.tag (some w.cls)).bump 0x101 sl 1 (some n) (some w.cls)).slc = d.slc := by simp [Dev.writeAcked]
  have ms := Dev.ms_of_slc slc sl
  have lands := Dev.applyWrite_dirty (d := (d.writeAcked n w.req.tag (some w.cls)).bump 0x101 sl 1 (some n) (some w.cls)) (w := { w with ld := some n, ack := true })
    (by rw [ms]; exact hf) hk (by rw [ms]; exact hs) 0#512 false {}
  rw [ms] at lands
  simp only [Dev.serveWrite, hf, hs, hm, hk, ha, List.any_nil, Option.isSome_some, Option.isNone_some, Bool.or_true, Bool.true_or, Bool.and_false, Bool.false_and,
    Bool.not_true, Bool.not_false, Bool.and_true, Bool.false_eq_true, if_false, if_true, Dev.ackWrite_full h hh ha hl hd hk, hl, lands, reduceCtorEq,
    decide_false]

/-- Settles O5. -/
theorem writeHitReplacesTheLine : Obligations.WriteHitReplacesTheLine := by
  unfold Obligations.WriteHitReplacesTheLine
  intro s n sl k w hrest hn hi hh hm hwait hs
  have h := s.dev.atRest_iff.1 hrest
  refine ⟨?_, fun hpa tag hc => ?_⟩
  · intro q hq hc hskid hf hdirty hmiss c d1 d2
    obtain ⟨ld, req, -, -, dead, ack, -⟩ := Dev.checkReq_ok hc
    have kind : q.toReq.kind = .wr q.mv := by simp [WriteReq.toReq, hq]
    have served := Dev.serveWrite_dirty h hh hf hdirty hmiss ack ld dead (by rw [req]; exact kind)
    have rest := (((h.sent n (.cmp q.tag .noOp)).bump 0x002 n 1 none c).bump 0x004 n 64 none c).bump 0x101 sl 1 (some n) c
    rw [req] at served
    change onUnit n s (fun d => (d.memHook n).memReq n q.toReq {}) = _
    refine onUnit_ends hn ?_ (rest.modW _ _)
    rw [h.memHook, Dev.memReq_passed hm hc hwait (by simp [hskid]), kind]
    refine Dev.submit_served h ?_
    simp only [Dev.serve, hs, Bool.false_and, Bool.false_eq_true, if_false, req, kind, Dev.serveLocal, Dev.tagCheck_sound hi, ReqKind.writes, if_true]
    exact served
  · change onUnit n s (fun d => (d.memHook n).memReq n { kind := .clnEvct, hpa, tag } {}) = _
    refine onUnit_ends hn ?_ (h.sent n (.cmp tag .noOp))
    rw [h.memHook]
    exact Dev.memReq_clnEvct h hh hm hwait hc hs

/-! Departures (R53, R57, R59, R312). -/

/-- The check of a request reads the landing's access registers, the records and the filters. -/
theorem Dev.checkReq_congr {d e : Dev} {n : Nat} (hacc : (e.ld n).acc = (d.ld n).acc) (hext : e.ext = d.ext) (hslc : e.slc = d.slc)
    (hcode : e.codeH = d.codeH) (q : Req) : e.checkReq n q = d.checkReq n q := by
  have ms (m : Nat) := Dev.ms_of_slc hslc m
  have home (near : Bool) (page : Nat) : e.home near n page = d.home near n page := by
    simp only [Dev.home, Dev.nearHome, Dev.spread, hcode]
  have holds (sl line : Nat) : e.holds sl line n = d.holds sl line n := by
    simp only [Dev.holds, Dev.fent, Dev.filtAt, ms]
  have found (line : Nat) : e.recFor n line q.kind = d.recFor n line q.kind := by
    simp only [Dev.recFor, hext, home, holds]
  simp only [Dev.checkReq, Dev.checkLine, hacc, found, home]

/-- What the departure of a message does before the message executes: it leaves the pool, its slots are freed and it is counted. -/
def Dev.departing (d : Dev) (n : Nat) (m : PoolMsg) : Dev :=
  let d := d.modLd n fun l => { l with pool := { l.pool with msgs := l.pool.msgs.filter fun x => x.ord ≠ m.ord } }
  let d := if d.withhold then d else d.modLd n fun l => l.freed m.msg
  if msgClass m.msg < 2 then d.countDeparture n m.cls (msgSlots m.msg) else d

/-- Freed slots only change what credits the landing holds. -/
theorem Landing.freed_keeps (l : Landing) (m : Msg) :
    (l.freed m).pool.txq = l.pool.txq ∧ (l.freed m).pool.msgs = l.pool.msgs ∧ (l.freed m).pool.replay = l.pool.replay ∧
      (l.freed m).pool.hostCred = l.pool.hostCred ∧ (l.freed m).link = l.link ∧ (l.freed m).acc = l.acc ∧ (l.freed m).wait = l.wait := by
  unfold Landing.freed
  dsimp only
  split
  · exact ⟨Pool.credit_txq .., Pool.credit_msgs .., (l.pool.credit_sends _ _).1, Pool.credit_hostCred .., rfl, rfl, rfl⟩
  · exact ⟨rfl, rfl, rfl, rfl, rfl, rfl, rfl⟩

/-- What a departing message leaves at its landing and elsewhere. -/
structure Departing (n : Nat) (m : PoolMsg) (d e : Dev) : Prop where
  rest : e.Rest
  msgs : (e.ld n).pool.msgs = (d.ld n).pool.msgs.filter fun x => x.ord ≠ m.ord
  replay : (e.ld n).pool.replay = (d.ld n).pool.replay
  hostCred : (e.ld n).pool.hostCred = (d.ld n).pool.hostCred
  link : (e.ld n).link = (d.ld n).link
  acc : (e.ld n).acc = (d.ld n).acc
  wait : (e.ld n).wait = (d.ld n).wait
  slc : e.slc = d.slc
  ext : e.ext = d.ext
  codeH : e.codeH = d.codeH
  mem : e.mem = d.mem
  pm : e.pm = d.pm

theorem Dev.departing_leaves {d : Dev} (h : d.Rest) (n : Nat) (m : PoolMsg) : Departing n m d (d.departing n m) := by
  obtain ⟨e, he⟩ : ∃ e, e = d.modLd n fun l => { l with pool := { l.pool with msgs := l.pool.msgs.filter fun x => x.ord ≠ m.ord } } := ⟨_, rfl⟩
  have left : Departing n m d e := by
    have rest : e.Rest := he ▸ h.modLd n _
    have ld : e.ld n = _ := he ▸ Dev.ld_modLd_self h n _
    rw [he] at ld rest ⊢
    refine ⟨rest, ?_, ?_, ?_, ?_, ?_, ?_, rfl, rfl, rfl, rfl, rfl⟩ <;> rw [ld]
  have freed : Departing n m d (if e.withhold then e else e.modLd n fun l => l.freed m.msg) := by
    split
    · exact left
    · obtain ⟨-, msgs, replay, hostCred, link, acc, wait⟩ := (e.ld n).freed_keeps m.msg
      have ld := Dev.ld_modLd_self left.rest n fun l => l.freed m.msg
      refine ⟨left.rest.modLd n _ fun l hl => (l.freed_keeps m.msg).1.trans hl, ?_, ?_, ?_, ?_, ?_, ?_, left.slc, left.ext, left.codeH, left.mem, left.pm⟩ <;>
        rw [ld]
      · exact msgs.trans left.msgs
      · exact replay.trans left.replay
      · exact hostCred.trans left.hostCred
      · exact link.trans left.link
      · exact acc.trans left.acc
      · exact wait.trans left.wait
  unfold Dev.departing
  rw [← he]
  dsimp only
  split
  · exact ⟨freed.rest.same, freed.msgs, freed.replay, freed.hostCred, freed.link, freed.acc, freed.wait, freed.slc, freed.ext, freed.codeH, freed.mem, freed.pm⟩
  · exact freed

/-- R312: a request that departs is counted in its class. -/
theorem Dev.departing_counted {d : Dev} {n : Nat} {m : PoolMsg} (hm : msgClass m.msg < 2) (hs : msgSlots m.msg = 1) :
    (d.departing n m).departed n m.cls = d.departed n m.cls + 1 := by
  have qos (e : Dev) (he : e.qos = d.qos) : (e.countDeparture n m.cls 1).departed n m.cls = d.departed n m.cls + 1 := by
    unfold Dev.departed Dev.countDeparture tmod
    rw [he]
    exact tget_tput_same 0 _ (Nat.succ_ne_zero _) _ _
  unfold Dev.departing
  dsimp only
  rw [if_pos hm, hs]
  exact qos _ (by split <;> rfl)

/-- What grants of shared slots keep of the departure counts and the page map. -/
theorem Dev.grantShared_other (d : Dev) (n : Nat) : (d.grantShared n).qos = d.qos ∧ (d.grantShared n).pm = d.pm := by
  unfold Dev.grantShared
  split
  · exact ⟨rfl, rfl⟩
  · refine List.foldlRecOn (motive := fun e : Dev => e.qos = d.qos ∧ e.pm = d.pm) _ _ ⟨rfl, rfl⟩ fun e k c _ => ?_
    dsimp only
    split
    · exact ⟨(Dev.bump_qos ..).trans k.1, (Dev.bump_pm ..).trans k.2⟩
    · exact k

/-- Settles O15: the message leaves (`departing`), executes as an eviction notice, and shared slots are granted. -/
theorem departureExecutesTheMessage : Obligations.DepartureExecutesTheMessage := by
  unfold Obligations.DepartureExecutesTheMessage
  intro s n hpa tag m sl w hrest hn hh hm hwait hmsgs hnext hmsg hc hs
  have h := s.dev.atRest_iff.1 hrest
  have left := Dev.departing_leaves h n m
  have counted : (s.dev.departing n m).departed n m.cls = s.dev.departed n m.cls + 1 :=
    Dev.departing_counted (by rw [hmsg]; exact Nat.zero_lt_two) (by rw [hmsg]; rfl)
  obtain ⟨d1, hd1⟩ : ∃ d1, d1 = s.dev.departing n m := ⟨_, rfl⟩
  rw [← hd1] at left counted
  have hears : d1.hears n = true := by
    rw [Dev.hears, left.link, left.replay, left.hostCred]
    exact hh
  have executes : d1.passMsg n m.msg {} = d1.modLd n fun l => l.sent (.cmp tag .noOp) := by
    rw [hmsg]
    refine Dev.memReq_clnEvct (sl := sl) (w := w) left.rest hears (by rw [left.link]; exact hm) (left.wait.trans hwait) ?_ hs
    rw [Dev.checkReq_congr left.acc left.ext left.slc left.codeH]
    exact hc
  have sent := left.rest.sent n (.cmp tag .noOp)
  have sends := Dev.grantShared_sends sent n
  obtain ⟨qos, pm⟩ := (d1.modLd n fun l => l.sent (.cmp tag .noOp)).grantShared_other n
  have ld2 := Dev.ld_modLd_self left.rest n fun l => l.sent (.cmp tag .noOp)
  have requests : ((s.dev.ld n).pool.msgs.any fun x => decide (2 ≤ msgClass x.msg)) = false := by
    rw [List.any_eq_false]
    intro x hx
    have := hmsgs x hx
    simp only [decide_eq_true_eq]
    omega
  have departs : s.dev.ingressDepart n {} = (d1.modLd n fun l => l.sent (.cmp tag .noOp)).grantShared n := by
    simp only [Dev.ingressDepart, hnext, requests, Bool.false_eq_true, if_false]
    rw [← executes, hd1]
    rfl
  have replay : (((d1.modLd n fun l => l.sent (.cmp tag .noOp)).grantShared n).ld n).pool.replay =
      (s.dev.ld n).pool.replay ++ [{ seq := (d1.ld n).pool.txSeq, body := some (.cmp tag .noOp), credits := (d1.ld n).pool.pend }] := by
    rw [sends.replay, ld2, ← left.replay]
    rfl
  refine ⟨_, onUnit_ends hn departs sends.keeps.rest, ?_, ?_, ?_, ?_, ?_, ?_, ?_, ?_⟩ <;> rw [State.to_dev]
  · rw [sends.keeps.msgs, ld2]; exact left.msgs
  · rw [replay, List.length_append, List.length_singleton]
  · rw [replay]; simp
  · rw [sends.keeps.hostCred, ld2, ← left.hostCred]; rfl
  · rw [← counted]; unfold Dev.departed; rw [qos]; rfl
  · rw [sends.keeps.mem]; exact left.mem
  · rw [sends.keeps.slc]; exact left.slc
  · rw [pm]; exact left.pm

end Sys2Proof.Machine
end

section
/-! Data that DRAM returns and tracker entries that become free (R26, R36, R213). -/
namespace Sys2Proof.Machine

theorem Dev.keyCheck_sound {d : Dev} (hi : d.noInj = true) (sl c : Nat) : d.keyCheck sl c {} = d := by
  simp [Dev.keyCheck, Dev.check_noInj hi]

/-- R26 step 10: the data of a quad of a Plain Open page with no poison of its own, decrypted. -/
def Dev.plainData (d : Dev) (sl quad : Nat) : Quad :=
  let e := d.ent (quad / 16)
  ofBytes 2048 (d.decOpen sl e.ctx quad (memRead d.mem (chBase e.chan + (e.frame * 4096 + quad % 16 * 256)) 256))

theorem Dev.readUnit_sound {d : Dev} (hi : d.noInj = true) (sl quad c off len : Nat) (cls : Option Nat) :
    d.readUnit sl quad c off len {} cls = (some (memRead d.mem (chBase c + off) len), (d.rd c off len cls).2) := by
  have still := Dev.noInj_of_lko hi (rd_same d c off len cls).lko
  simp [Dev.readUnit, Dev.check_noInj still, (d.rd_mem c off len cls).2]

theorem Dev.decOpen_of_slc {d e : Dev} (h : e.slc = d.slc) (sl ctx quad : Nat) (ct : List Byte) : e.decOpen sl ctx quad ct = d.decOpen sl ctx quad ct := by
  unfold Dev.decOpen Dev.keysOf Dev.ms
  rw [h]

theorem Dev.fetchQuad_plain {d : Dev} (hi : d.noInj = true) {sl quad : Nat} (hp : d.plainP sl (quad / 16) = true) (hq : (d.ent (quad / 16)).qpois = 0#16)
    (cls : Option Nat) :
    d.fetchQuad sl quad {} cls = ({ data := d.plainData sl quad },
      (d.rd (d.ent (quad / 16)).chan ((d.ent (quad / 16)).frame * 4096 + quad % 16 * 256) 256 cls).2) := by
  simp only [Dev.plainP, Bool.and_eq_true, decide_eq_true_eq, Bool.not_eq_true'] at hp
  obtain ⟨⟨⟨form, open_⟩, -⟩, chan⟩ := hp
  have stays : d.touchFenced sl (quad / 16) = d := by simp [Dev.touchFenced, form, chan]
  have same := rd_same d (d.ent (quad / 16)).chan ((d.ent (quad / 16)).frame * 4096 + quad % 16 * 256) 256 cls
  have opens (ct : List Byte) := Dev.decOpen_of_slc same.slc sl (d.ent (quad / 16)).ctx quad ct
  simp only [Dev.fetchQuad, stays, hq, BitVec.getLsbD_zero, Bool.false_eq_true, if_false, form, Dev.readUnit_sound hi, Dev.openUnit,
    Dev.keyCheck_sound (Dev.noInj_of_lko hi same.lko), open_, Bool.not_false, if_true, opens]
  rfl

/-- R36: where no miss is outstanding none waits for an entry of the scheduler. -/
theorem Dev.admitWaiting_none {d : Dev} (h : ∀ j, (d.ms j).misses = []) (c n : Nat) : d.admitWaiting c n = d := by
  cases n with
  | zero => rfl
  | succ n =>
    have none_waits : (d.units.flatMap fun s => ((d.ms s).misses.filter fun m =>
        decide ((d.unitOf m.quad).1 = c) && d.unqueued s m && d.entAdmit c m.cls).map fun m => (s, m)) = [] := by
      simp [h]
    unfold Dev.admitWaiting
    dsimp only
    rw [none_waits]
    rfl

/-- What an answer of a request at landing `n` keeps. -/
structure Answered (n : Nat) (r : Rsp) (d e : Dev) : Prop where
  rest : e.Rest
  replay : (e.ld n).pool.replay = (d.ld n).pool.replay ++ [{ seq := (d.ld n).pool.txSeq, credits := (d.ld n).pool.pend, body := some r }]
  wait : (e.ld n).wait = (d.ld n).wait
  slc : e.slc = d.slc
  mem : e.mem = d.mem
  pm : e.pm = d.pm

theorem Answered.sent {d : Dev} (h : d.Rest) (n : Nat) (r : Rsp) : Answered n r d (d.modLd n fun l => l.sent r) := by
  have ld := Dev.ld_modLd_self h n fun l => l.sent r
  refine ⟨h.sent n r, ?_, ?_, rfl, rfl, rfl⟩ <;> rw [ld] <;> rfl

theorem Answered.bump {n : Nat} {r : Rsp} {d e : Dev} (k : Answered n r d e) (code inst m : Nat) (ld cls : Option Nat) :
    Answered n r d (e.bump code inst m ld cls) := by
  have ld' := Dev.ld_of_lnd (Dev.bump_lnd e code inst m ld cls) n
  exact ⟨k.rest.bump _ _ _ _ _, by rw [ld', k.replay], by rw [ld', k.wait], (Dev.bump_slc ..).trans k.slc, (Dev.bump_mem ..).trans k.mem,
    (Dev.bump_pm ..).trans k.pm⟩

theorem Answered.startHold {n : Nat} {r : Rsp} {d e : Dev} (k : Answered n r d e) (sector : Nat) : Answered n r d (e.startHold n sector) := by
  unfold Dev.startHold
  split
  · exact k
  · refine ⟨k.rest.modLd _ _, ?_, ?_, k.slc, k.mem, k.pm⟩ <;> rw [Dev.ld_modLd_self k.rest]
    · exact k.replay
    · exact k.wait

/-- R26, R213: what a read with its data in hand is answered with: a MemInv its completion alone. -/
def Work.rsp (w : Work) (data : Line) (lat : Nat) : Rsp :=
  match w.req.kind with
  | .minv => .cmp w.req.tag (w.grant.getD .noOp)
  | _ => .data w.req.tag data false (w.grant.getD .noOp) lat

/-- R26, R36, R213: data in hand answers a live host that hears. -/
theorem Dev.answer_live {d : Dev} (h : d.Rest) {n : Nat} {w : Work} (hh : d.hears n = true) (hp : w.pf = false) (hl : w.ld = some n)
    (hd : w.dead = false) (sl x : Nat) (data : Line) : ∃ lat, Answered n (w.rsp data lat) d (d.answer sl w data false x) := by
  obtain ⟨lat, hlat⟩ : ∃ lat, lat = ((d.ld n).rxtx + 40 + 20 * d.hop n sl) / 10 + x := ⟨_, rfl⟩
  refine ⟨lat, ?_⟩
  simp only [Dev.answer, hp, hl, Bool.false_eq_true, if_false, Dev.readDone, hd, Dev.linkLive_of_hears hh, Bool.not_true, Bool.or_self,
    Dev.respond_hears h hh, ← hlat]
  have counted (lines : Nat) := (((Answered.sent h n (w.rsp data lat)).bump 0x001 n 1 none (some w.cls)).bump 0x003 n lines none (some w.cls)).bump
    0x005 n lat none (some w.cls)
  by_cases hg : w.grant.getD .noOp = .a
  · rw [if_pos hg]
    exact (counted _).startHold _
  · rw [if_neg hg]
    exact counted _

/-- R26, R36: a DRAM read returns its quad: the scheduler entry is free, the channel is read, and the miss is no longer outstanding. -/
def Dev.quadRead (d : Dev) (sl quad : Nat) (cls : Option Nat) : Dev :=
  let e := d.ent (quad / 16)
  let d := d.modCh e.chan fun y => { y with sched := y.sched.filter fun x => !(decide (x.quad = quad) && decide (x.home = sl)) }
  ((d.rd e.chan (e.frame * 4096 + quad % 16 * 256) 256 cls).2).modMs sl fun s => { s with misses := s.misses.filter fun y => y.quad ≠ quad }

/-- What the return of a quad leaves as it was, and what it ends. -/
structure QuadRead (sl quad : Nat) (d e : Dev) : Prop where
  rest : e.Rest
  lnd : e.lnd = d.lnd
  pm : e.pm = d.pm
  mem : e.mem = d.mem
  lko : e.lko = d.lko
  misses (j : Nat) : (e.ms j).misses = if j = sl then (d.ms sl).misses.filter fun y => y.quad ≠ quad else (d.ms j).misses

theorem Dev.quadRead_leaves {d : Dev} (h : d.Rest) (sl quad : Nat) (cls : Option Nat) : QuadRead sl quad d (d.quadRead sl quad cls) := by
  have h1 := h.modCh (d.ent (quad / 16)).chan fun y =>
    { y with sched := y.sched.filter fun x => !(decide (x.quad = quad) && decide (x.home = sl)) }
  have read (d1 : Dev) (h1 : d1.Rest) (c off n : Nat) :
      QuadRead sl quad d1 (((d1.rd c off n cls).2).modMs sl fun s => { s with misses := s.misses.filter fun y => y.quad ≠ quad }) := by
    have h2 := h1.rd c off n cls
    have same := rd_same d1 c off n cls
    have ms := Dev.ms_of_slc same.slc
    refine ⟨h2.modMs sl _, same.lnd, same.pm, (d1.rd_mem c off n cls).1, same.lko, fun j => ?_⟩
    rw [Dev.ms_modMs h2, ms, ms]
    split <;> rfl
  have all := read _ h1 (d.ent (quad / 16)).chan ((d.ent (quad / 16)).frame * 4096 + quad % 16 * 256) 256
  exact ⟨all.rest, all.lnd, all.pm, all.mem, all.lko, all.misses⟩

/-- A change of the scheduler alone leaves a stored page where it is found. -/
theorem Dev.plainP_modCh {d : Dev} (h : d.Rest) {sl page c : Nat} (f : Chan → Chan) (hf : ∀ x, (f x).usable = x.usable) (hp : d.plainP sl page = true) :
    (d.modCh c f).plainP sl page = true := by
  have usable (m : Nat) : ((d.modCh c f).ch m).usable = (d.ch m).usable := by
    rw [Dev.ch_modCh h]
    split
    · next hm => rw [hm, hf]
    · rfl
  have ok : (d.modCh c f).chOk (d.ent page).chan = d.chOk (d.ent page).chan := by
    unfold Dev.chOk
    rw [usable]
    rfl
  unfold Dev.plainP at hp ⊢
  rw [← hp]
  show (_ && (d.modCh c f).chOk (d.ent page).chan) = _
  rw [ok]
  rfl

theorem Dev.unitOf_plain {d : Dev} {quad : Nat} (h : (d.ent (quad / 16)).form = .p) :
    d.unitOf quad = ((d.ent (quad / 16)).chan, (d.ent (quad / 16)).frame * 4096 + quad % 16 * 256, 256) := by
  simp [Dev.unitOf, h]

/-- With its context's key at hand a quad does not wait for it. -/
theorem Dev.keyWaits_none {d : Dev} {sl : Nat} (h : (d.ms sl).sl.reload = []) (quad : Nat) : d.keyWaits sl quad {} = (false, d) := by
  simp [Dev.keyWaits, h]

/-- R26, R36: the data of a doomed miss of a Plain Open page with one waiter answers it and installs nothing. -/
theorem Dev.dramReturn_doomed {d : Dev} (h : d.Rest) (hi : d.noInj = true) {sl quad : Nat} {m : Miss} {w : Work} (hmiss : (d.ms sl).misses = [m])
    (hquad : m.quad = quad) (hdoomed : m.doomed = true) (hmpf : m.pf = false) (hws : m.ws = [w]) (hk : w.req.kind = .rd .none) (hp : w.pf = false)
    (hplain : d.plainP sl (quad / 16) = true) (hunq : d.unqueued sl m = false) (hqpois : (d.ent (quad / 16)).qpois = 0#16)
    (hreload : (d.ms sl).sl.reload = []) :
    ∃ x, d.dramReturn sl quad {} =
      ((d.quadRead sl quad (some m.cls)).answer sl w (Quad.line (d.plainData sl quad) (w.line % 4)) false x).admitWaiting (d.ent (quad / 16)).chan 192 := by
  have form : (d.ent (quad / 16)).form = .p := by
    simp only [Dev.plainP, Bool.and_eq_true, decide_eq_true_eq] at hplain
    exact hplain.1.1.1
  have stored : d.isStored quad = true := by simp [Dev.isStored, form]
  have found : ((d.ms sl).misses.find? fun m => decide (m.quad = quad)) = some m := by rw [hmiss]; simp [hquad]
  obtain ⟨d1, hd1⟩ : ∃ d1, d1 = d.modCh (d.ent (quad / 16)).chan fun y =>
    { y with sched := y.sched.filter fun x => !(decide (x.quad = quad) && decide (x.home = sl)) } := ⟨_, rfl⟩
  have fetched : d1.fetchQuad sl quad {} (some m.cls) = ({ data := d.plainData sl quad },
      (d1.rd (d.ent (quad / 16)).chan ((d.ent (quad / 16)).frame * 4096 + quad % 16 * 256) 256 (some m.cls)).2) := by
    have plain : d1.plainP sl (quad / 16) = true := by
      rw [hd1]
      exact Dev.plainP_modCh h _ (fun _ => rfl) hplain
    have := Dev.fetchQuad_plain (Dev.noInj_of_lko hi (by rw [hd1]; rfl)) plain (by rw [hd1]; exact hqpois) (some m.cls)
    rw [this, hd1]
    rfl
  have four (j : Nat) (hj : j < 4) (b : Line × Bool) :
      ((List.range 4).map fun j => (Quad.line (d.plainData sl quad) j, false)).getD j b = (Quad.line (d.plainData sl quad) j, false) := by
    rw [List.getD_eq_getElem?_getD, List.getElem?_map, List.getElem?_range hj]
    rfl
  refine ⟨d.storedTime sl quad m.hit, ?_⟩
  simp only [Dev.dramReturn, found, hunq, Bool.false_and, Bool.false_eq_true, if_false, hdoomed, Bool.not_true, stored, Bool.true_and,
    Dev.keyWaits_none hreload, Dev.unitOf_plain form, ← hd1, fetched, hmpf, Bool.true_or, if_true, hws, List.foldl_cons, List.foldl_nil, Dev.serveWaiter,
    hp, hk, ReqKind.writes, four _ (Nat.mod_lt _ (by decide : 0 < 4))]
  rw [Dev.quadRead, ← hd1]

/-- R36: what the offer of a freed tracker entry takes: the next landing in turn, and its first waiting request. -/
def Dev.offerTaken (d : Dev) (sl n i : Nat) : Dev :=
  (d.modLd n fun l => { l with wait := l.wait.eraseIdx i }).modMs sl fun s => { s with offer := (n + 1) % 16 }

/-- R26, R36: a MemInv whose line has come into the Wharf is a hit, answered when it is offered the entry. -/
theorem Dev.serve_minvHit {d : Dev} (h : d.Rest) (hi : d.noInj = true) {sl n k : Nat} {w : Work} (hh : d.hears n = true) (hl : w.ld = some n)
    (hk : w.req.kind = .minv) (hp : w.pf = false) (hd : w.dead = false) (hs : w.shared = false) (hf : (d.ms sl).wharf.find w.line = some k)
    (hpois : ((d.ms sl).wharf.get k).pois = false) :
    ∃ e, d.serve sl w {} = (none, e) ∧ Answered n (.cmp w.req.tag (w.grant.getD .noOp)) (d.readHit sl n k (some w.cls)) e := by
  obtain ⟨keeps, lnd, lko⟩ := Dev.readHit_keeps h sl n k (some w.cls)
  obtain ⟨lat, answered⟩ := Dev.answer_live keeps.rest ((Dev.hears_of_lnd lnd n).trans hh) hp hl hd sl 8 ((d.ms sl).wharf.get k).data
  refine ⟨_, ?_, by rw [Work.rsp, hk] at answered; exact answered⟩
  simp only [Dev.serve, hs, Bool.false_and, Bool.false_eq_true, if_false, hk, Dev.serveLocal, Dev.tagCheck_sound hi, ReqKind.writes]
  rw [Dev.serveRead_hit hi hf hp hl, hpois]

theorem Dev.readHit_mem (d : Dev) (sl n k : Nat) (c : Option Nat) : (d.readHit sl n k c).mem = d.mem := by
  unfold Dev.readHit
  dsimp only
  split <;> simp

/-- A hit touches of its slice only the Wharf. -/
theorem Dev.readHit_offer {d : Dev} (h : d.Rest) (sl n k : Nat) (c : Option Nat) : ((d.readHit sl n k c).ms sl).offer = (d.ms sl).offer := by
  have hit : ∃ e : Dev, e.Rest ∧ e.slc = d.slc ∧ d.readHit sl n k c = e.modW sl fun v => v.put k { (d.ms sl).wharf.get k with age := 0, pf := false } := by
    have counted := h.bump 0x101 sl 1 (some n) c
    unfold Dev.readHit
    dsimp only
    split
    · exact ⟨_, counted.bump 0x007 n 1 none c, by simp, rfl⟩
    · exact ⟨_, counted, by simp, rfl⟩
  obtain ⟨e, rest, slc, eq⟩ := hit
  rw [eq]
  refine (congrArg (·.offer) ((Dev.ms_modMs rest sl sl _).trans (if_pos rfl))).trans ?_
  exact congrArg (·.offer) (Dev.ms_of_slc slc sl)

/-- Settles O9: the return of a doomed miss, and a hit that is offered a freed entry. -/
theorem dramReturnAnswersTheWaiter : Obligations.DramReturnAnswersTheWaiter := by
  unfold Obligations.DramReturnAnswersTheWaiter
  intro s sl hrest hsl hi
  have h := s.dev.atRest_iff.1 hrest
  refine ⟨?_, ?_⟩
  · intro quad m w n hmiss hothers hquad hdoomed hmpf hws hl hk hp hd hline hh hplain hunq hqpois hreload e
    obtain ⟨x, returned⟩ := Dev.dramReturn_doomed h hi hmiss hquad hdoomed hmpf hws hk hp hplain hunq hqpois hreload
    have read := Dev.quadRead_leaves h sl quad.toNat (some m.cls)
    have no_miss (j : Nat) : ((s.dev.quadRead sl quad.toNat (some m.cls)).ms j).misses = [] := by
      rw [read.misses j]
      split
      · rw [hmiss]; simp [hquad]
      · next hj => exact hothers j hj
    obtain ⟨lat, answered⟩ := Dev.answer_live read.rest ((Dev.hears_of_lnd read.lnd n).trans hh) hp hl hd sl x
      (Quad.line (s.dev.plainData sl quad.toNat) (w.line % 4))
    have ends := returned.trans (Dev.admitWaiting_none (fun j => by rw [Dev.ms_of_slc answered.slc]; exact no_miss j) _ _)
    refine ⟨_, lat, onUnit_ends hsl ends answered.rest, ?_, ?_, ?_, ?_⟩ <;> rw [State.to_dev]
    · rw [Dev.ms_of_slc answered.slc]; exact no_miss sl
    · exact answered.mem.trans read.mem
    · exact answered.pm.trans read.pm
    · rw [answered.replay, Dev.ld_of_lnd read.lnd, Work.rsp, hk]; rfl
  · intro n i k w hroom hnext hfirst hl hk hp hd hs hh hf hpf hpois
    have h1 := h.modLd n fun l => { l with wait := l.wait.eraseIdx i }
    have ld1 := Dev.ld_modLd_self h n fun l => { l with wait := l.wait.eraseIdx i }
    have hears := Dev.hears_modLd h hh fun l => { l with wait := l.wait.eraseIdx i }
    obtain ⟨d1, hd1⟩ : ∃ d1, d1 = s.dev.offerTaken sl n i := ⟨_, rfl⟩
    have rest : d1.Rest := hd1 ▸ h1.modMs sl fun s => { s with offer := (n + 1) % 16 }
    have ld := (congrArg (·.ld n) hd1).trans ld1
    have ms : d1.ms sl = { s.dev.ms sl with offer := (n + 1) % 16 } := (congrArg (·.ms sl) hd1).trans ((Dev.ms_modMs h1 sl sl _).trans (if_pos rfl))
    obtain ⟨e, served, answered⟩ := Dev.serve_minvHit (w := { w with offered := true }) rest (Dev.noInj_of_lko hi (by rw [hd1]; rfl)) (sl := sl) (n := n) (k := k)
      (by rw [hd1]; exact hears) hl hk hp hd hs (by rw [ms]; exact hf) (by rw [ms]; exact hpois)
    obtain ⟨keeps, lnd, -⟩ := Dev.readHit_keeps rest sl n k (some w.cls)
    have hit_ld := (Dev.ld_of_lnd lnd n).trans ld
    have offers : s.dev.offerMiss sl {} = e := by
      have := Dev.submit_served rest served
      rw [hd1] at this
      simp only [Dev.offerMiss, Nat.not_le.2 hroom, if_false, hnext, hfirst]
      exact this
    refine ⟨_, onUnit_ends hsl offers answered.rest, ?_, ?_, ?_, ?_⟩ <;> rw [State.to_dev]
    · rw [answered.wait]; exact congrArg (·.wait) hit_ld
    · rw [Dev.ms_of_slc answered.slc]; exact (Dev.readHit_offer rest ..).trans (congrArg (·.offer) ms)
    · rw [answered.mem, Dev.readHit_mem, hd1]; rfl
    · rw [answered.replay]; simp

end Sys2Proof.Machine
end

section
/-! Ends of extent records (R90, R93, R94, R111, R188). -/
namespace Sys2Proof.Machine

/-- R94: a record whose blocks other records hold too returns to Free, keeping its sequence number. -/
def Dev.recFreed (d : Dev) (n : Nat) : Dev :=
  { d with ext := { d.ext with
    recs := tput {} d.ext.recs n { seq := (d.xrec n).seq }
    offers := (d.ext.offers.map fun o => { o with recs := o.recs.filter (· ≠ n) }).filter fun o => !o.recs.isEmpty } }

theorem Dev.freeRecord_shared {d : Dev} {n : Nat} (h : ((d.xrec n).blocks.all fun b => d.heldBut n b) = true) : d.freeRecord n = d.recFreed n := by
  have none_gone : ((d.xrec n).blocks.filter fun b => !d.heldBut n b) = [] :=
    List.filter_eq_nil_iff.2 fun b hb => by simpa using List.all_eq_true.1 h b hb
  unfold Dev.freeRecord
  simp only [none_gone, List.foldl_nil]
  rfl

/-- A device that is not memory-active stays at rest when its records change. -/
theorem Dev.Rest.ext {d : Dev} (h : d.Rest) (ha : d.active = false) (x : Extents) : ({ d with ext := x } : Dev).Rest :=
  ⟨h.fence, h.blow, h.slc, h.lnd, h.entry, h.chn, .inl ha, h.recs, ⟨h.tidy.lnd, h.tidy.slc, h.tidy.chn, h.tidy.brg, h.tidy.prm, h.tidy.paths, h.tidy.ctx,
    h.tidy.plt⟩⟩

/-- R93: a release whose admitted work has drained, or whose landing is down, ends. -/
theorem Dev.drainDone_quiet {d : Dev} {n : Nat} (hr : (d.xrec n).st = .releasing)
    (hq : d.linkLive (d.xrec n).ld = false ∨ (d.admitted (d.xrec n) = false ∧ d.bargeOn (d.xrec n) = false ∧
      ((d.xrec n).shared = true → ∀ sl ∈ d.units, d.heldSectors sl n = []))) :
    d.drainDone n = if (d.xrec n).blocks.all fun b => d.heldBut n b then d.freeRecord n else d.modRec n fun r => { r with st := .reclaiming } := by
  have drained : (d.linkLive (d.xrec n).ld && (d.admitted (d.xrec n) || ((d.xrec n).shared && d.units.any fun sl => !(d.heldSectors sl n).isEmpty) ||
      d.bargeOn (d.xrec n))) = false := by
    rcases hq with down | ⟨admitted, barge, held⟩
    · rw [down, Bool.false_and]
    · have holds : ((d.xrec n).shared && d.units.any fun sl => !(d.heldSectors sl n).isEmpty) = false := by
        cases hs : (d.xrec n).shared with
        | false => rfl
        | true =>
          rw [Bool.true_and, List.any_eq_false]
          intro sl hsl
          simp [held hs sl hsl]
      rw [admitted, barge, holds, Bool.or_self, Bool.or_self, Bool.and_false]
  simp only [Dev.drainDone, hr, ne_eq, not_true_eq_false, if_false, Bool.not_not, drained, Bool.false_eq_true]

/-- Settles O25, one end of a record a clause. -/
theorem recordsEnd : Obligations.RecordsEnd := by
  unfold Obligations.RecordsEnd
  intro s n hrest ha r free others quiet
  have h := s.dev.atRest_iff.1 hrest
  have freed : free.Rest := h.ext ha _
  refine ⟨fun ho hr => ?_, fun ho hr hq => ?_, fun ho hr hq => ?_, fun ho hr => ?_⟩
  · change onDev s (fun d => d.offerExpires n) = _
    refine onDev_ends ?_ (freed.evPool .offerEnded [n, r.ld, r.base, r.nblk1 + 1] 0)
    simp only [Dev.offerExpires, show (s.dev.xrec n).st = .offered from hr, if_true, Dev.endOffer, Dev.freeRecord_shared ho]
    rfl
  · change onDev s (fun d => d.drainDone n) = _
    refine onDev_ends ?_ freed
    rw [Dev.drainDone_quiet hr hq, if_pos ho, Dev.freeRecord_shared ho]
    rfl
  · change onDev s (fun d => d.drainDone n) = _
    refine onDev_ends ?_ (h.ext ha _)
    rw [Dev.drainDone_quiet hr hq, if_neg (by rw [show (s.dev.xrec n).blocks.all _ = false from ho]; decide)]
  · change onDev s (fun d => d.reclaimDone n) = _
    refine onDev_ends ?_ freed
    simp only [Dev.reclaimDone, show (s.dev.xrec n).st = .reclaiming from hr, if_true, Dev.freeRecord_shared ho]
    rfl

/-- Record 0 is listed twice, first Reclaiming and then Granted. -/
def recordTwice : State := { dev := { ext := { recs := [(0, { st := .reclaiming }), (0, { st := .granted })] } } }

/-- What is listed first leaves its place to what is listed second. -/
theorem reclaimComplete_leaves_granted : (ended (exec (.reclaimComplete 0) recordTwice)).map (fun d => (d.xrec 0).st) = some .granted := by decide +kernel

/-- Refutes O26: the statement leaves open in which form the extent records are listed. Where record 0 is listed twice, its reclaim leaves the record listed second,
which is not Free. -/
theorem not_reclaimForgetsTheBlock : ¬ Obligations.ReclaimForgetsTheBlock := by
  unfold Obligations.ReclaimForgetsTheBlock
  intro h
  obtain ⟨t, next, free, -⟩ := h recordTwice 0 (by decide +kernel) (by decide +kernel) (by decide +kernel) (by decide +kernel) (by decide +kernel)
    (by decide +kernel) (by decide +kernel)
  have left := reclaimComplete_leaves_granted
  rw [next] at left
  exact absurd ((Option.some.inj left).symm.trans free) (by decide)

end Sys2Proof.Machine
end

section
/-! Maintenance of the Wharf that ends (R192, R202, R203). -/
namespace Sys2Proof.Machine

/-- With no dirty line named nothing is written back. -/
theorem Dev.writeLines_nil (d : Dev) (sl : Nat) (evict eager : Bool) (ph : Phys) : d.writeLines sl [] evict eager ph = d := rfl

theorem Dev.clearConv_empty {d : Dev} {sl : Nat} (h : (d.ms sl).wharf.lines = []) (m : Nat) : d.clearConv sl m = d := by
  have none_left : (d.ms sl).wharf.inConv m = [] := by simp [Wharf.inConv, h]
  simp only [Dev.clearConv, none_left, List.filter_nil, List.map_nil, Dev.writeLines_nil, List.foldl_nil]

theorem Dev.trimPins_empty {d : Dev} {sl : Nat} (h : (d.ms sl).wharf.lines = []) : d.trimPins sl = d := by
  simp [Dev.trimPins, h]

/-- R192: a Wharf whose conversion ends, with `m` ways of scratch. -/
def Wharf.converted (m : Nat) (w : Wharf) : Wharf :=
  { w with m, conv := false
           scratch := w.scratch.filter fun x => decide (x.1 / 2 ^ 20 < min m w.m)
           scrPois := w.scrPois.filter fun x => decide (x / 2 ^ 20 < min m w.m) }

/-- R192: the slice has `m` ways of scratch and converts none. -/
def Wharf.hasScratch (m : Nat) (w : Wharf) : Prop := w.m = m ∧ w.conv = false

theorem Dev.modW_wharf {d : Dev} (h : d.Rest) (s k : Nat) (f : Wharf → Wharf) :
    ((d.modW s f).ms k).wharf = if k = s then f (d.ms s).wharf else (d.ms k).wharf := by
  unfold Dev.modW
  rw [Dev.ms_modMs h]
  split <;> rfl

/-- R192: the conversion of every slice listed, none of which has a line left. -/
theorem convert_all (m : Nat) (l : List Nat) : ∀ {d : Dev}, d.Rest → (∀ k ∈ l, (d.ms k).wharf.lines = []) →
    let e := l.foldl (fun d s => (d.modW s (Wharf.converted m)).trimPins s) d
    e.Rest ∧ e.mem = d.mem ∧ (∀ k, (d.ms k).wharf.hasScratch m → (e.ms k).wharf.hasScratch m) ∧ ∀ k ∈ l, (e.ms k).wharf.hasScratch m := by
  induction l with
  | nil => exact fun h _ => ⟨h, rfl, fun _ hk => hk, fun _ hk => absurd hk List.not_mem_nil⟩
  | cons s l ih =>
    intro d h empty
    have wharf (k : Nat) := Dev.modW_wharf h s k (Wharf.converted m)
    have lines (k : Nat) : ((d.modW s (Wharf.converted m)).ms k).wharf.lines = (d.ms k).wharf.lines := by
      rw [wharf]
      split
      · next hk => rw [hk]; rfl
      · rfl
    have keeps (k : Nat) (hk : k = s ∨ (d.ms k).wharf.hasScratch m) : ((d.modW s (Wharf.converted m)).ms k).wharf.hasScratch m := by
      rw [wharf]
      split
      · exact ⟨rfl, rfl⟩
      · next hne => exact hk.resolve_left hne
    have trims := Dev.trimPins_empty ((lines s).trans (empty s List.mem_cons_self))
    simp only [List.foldl_cons, trims]
    obtain ⟨rest, mem, kept, done⟩ := ih (h.modW s _) fun k hk => (lines k).trans (empty k (List.mem_cons_of_mem _ hk))
    refine ⟨rest, mem, fun k hk => kept k (keeps k (.inr hk)), fun k hk => ?_⟩
    rcases List.mem_cons.1 hk with rfl | hk
    · exact kept k (keeps k (.inl rfl))
    · exact done k hk

/-- R192: with no line left in any slice the conversion of all of them ends. -/
theorem Dev.convDone_empty {d : Dev} (h : d.Rest) {m : Nat} (hm : d.mg.convTo = some m) (empty : ∀ k ∈ d.units, (d.ms k).wharf.lines = []) :
    ∃ e, d.convDone = e ∧ e.Rest ∧ e.mg.convTo = none ∧ e.mem = d.mem ∧ ∀ k ∈ d.units, (e.ms k).wharf.hasScratch m := by
  have cleared : d.units.foldl (fun d s => d.clearConv s m) d = d := foldl_keep _ _ _ fun s hs => Dev.clearConv_empty (empty s hs) m
  have none_left : (d.units.any fun s => !((d.ms s).wharf.inConv m).isEmpty) = false := by
    rw [List.any_eq_false]
    intro s hs
    simp [Wharf.inConv, empty s hs]
  obtain ⟨rest, mem, -, done⟩ := convert_all m d.units h empty
  obtain ⟨e, he⟩ : ∃ e, e = d.units.foldl (fun d s => (d.modW s (Wharf.converted m)).trimPins s) d := ⟨_, rfl⟩
  rw [← he] at rest mem done
  refine ⟨{ e with mg := { e.mg with convTo := none } }, ?_, rest.same, rfl, mem, done⟩
  simp only [Dev.convDone, hm, cleared, none_left, Bool.false_eq_true, if_false]
  rw [he]
  rfl

/-- What a range operation with nothing to act on changes: nothing that its end reads. -/
structure RangeIdle (sl : Nat) (d e : Dev) : Prop where
  rest : e.Rest
  wharf : (e.ms sl).wharf = (d.ms sl).wharf
  ms : ∀ k, k ≠ sl → e.ms k = d.ms k
  mem : e.mem = d.mem

/-- R201: a Discard drops the held writebacks and quad buffers of its range. -/
def Slice.dropRange (r : RangeOp) (s : Slice) : Slice :=
  { s with held := s.held.filter fun h => !(h.quads.all fun q => decide (r.lo ≤ q.1 * 4 + 3) && decide (q.1 * 4 ≤ r.hi))
           wharf := { s.wharf with qbuf := s.wharf.qbuf.filter fun b => !(decide (r.lo ≤ b.quad * 4 + 3) && decide (b.quad * 4 ≤ r.hi)) } }

theorem Slice.dropRange_wharf {s : Slice} (h : s.wharf.qbuf = []) (r : RangeOp) : (s.dropRange r).wharf = s.wharf := by
  have none_held (p : QBuf → Bool) : s.wharf.qbuf.filter p = s.wharf.qbuf := by rw [h]; rfl
  exact congrArg (fun qbuf => { s.wharf with qbuf }) (none_held _)

theorem Dev.actRange_empty {d : Dev} (h : d.Rest) {sl : Nat} (hl : (d.ms sl).wharf.lines = []) (hq : (d.ms sl).wharf.qbuf = []) (r : RangeOp) :
    RangeIdle sl d (d.actRange sl r false {}) := by
  have refl : RangeIdle sl d d := ⟨h, rfl, fun _ _ => rfl, rfl⟩
  have none_left (w : Wharf) (hw : w.lines = []) : w.inRange r false = [] := by simp [Wharf.inRange, hw]
  unfold Dev.actRange
  cases r.op with
  | clean => simp only [none_left _ hl, hq, List.filter_nil, List.map_nil, Dev.writeLines_nil, List.foldl_nil]; exact refl
  | invalidate => simp only [none_left _ hl, hq, List.filter_nil, List.map_nil, Dev.writeLines_nil, List.foldl_nil]; exact refl
  | discard =>
    have dropped : ((d.modMs sl (Slice.dropRange r)).ms sl).wharf = (d.ms sl).wharf := by
      rw [Dev.ms_modMs h, if_pos rfl, Slice.dropRange_wharf hq]
    show RangeIdle sl d ((((d.modMs sl (Slice.dropRange r)).ms sl).wharf.inRange r false).foldl (fun d x => d.invalidate sl x.1 r.count)
      (d.modMs sl (Slice.dropRange r)))
    rw [none_left _ (by rw [dropped]; exact hl)]
    exact ⟨h.modMs sl _, dropped, fun k hk => (Dev.ms_modMs h sl k _).trans (if_neg hk), rfl⟩

/-- R202: operation `id` is done: with none left every line counts as installed before the next one's marker. -/
def Wharf.rangeEnded (id : Nat) (w : Wharf) : Wharf :=
  let rs := w.ranges.filter fun x => x.id ≠ id
  { w with ranges := rs, lines := if rs.isEmpty then w.lines.map fun x => (x.1, { x.2 with pm := false }) else w.lines }

/-- R202: the last range operation of a slice with no line left is reported done. -/
theorem Dev.rangeDone_empty {d : Dev} (h : d.Rest) {sl : Nat} {r : RangeOp} (hr : (d.ms sl).wharf.ranges = [r]) (hw : (d.ms sl).wharf.rangeQ = [])
    (hl : (d.ms sl).wharf.lines = []) (hq : (d.ms sl).wharf.qbuf = []) :
    ∃ e, d.rangeDone sl r.id = e ∧ e.Rest ∧ (e.ms sl).wharf.ranges = [] ∧ e.mem = d.mem ∧ ∀ k, k ≠ sl → e.ms k = d.ms k := by
  have acted := Dev.actRange_empty h hl hq r
  obtain ⟨a, ha⟩ : ∃ a, a = d.actRange sl r false {} := ⟨_, rfl⟩
  rw [← ha] at acted
  have found : ((d.ms sl).wharf.ranges.find? fun x => decide (x.id = r.id)) = some r := by rw [hr]; simp
  have none_left : (a.ms sl).wharf.inRange r false = [] := by simp [Wharf.inRange, acted.wharf, hl]
  have wharf : ((a.modW sl (Wharf.rangeEnded r.id)).ms sl).wharf = (a.ms sl).wharf.rangeEnded r.id := by rw [Dev.modW_wharf acted.rest, if_pos rfl]
  have no_next : ((a.modW sl (Wharf.rangeEnded r.id)).ms sl).wharf.rangeQ = [] := by rw [wharf, acted.wharf]; exact hw
  refine ⟨a.modW sl (Wharf.rangeEnded r.id), ?_, acted.rest.modW sl (Wharf.rangeEnded r.id), ?_, acted.mem, fun k hk => ?_⟩
  · simp only [Dev.rangeDone, found, ← ha, none_left, List.any_nil, List.isEmpty_nil, Bool.not_true]
    rw [if_neg (by split <;> decide)]
    have ends (e : Dev) (he : (e.ms sl).wharf.rangeQ = []) : (match (e.ms sl).wharf.rangeQ with
        | [] => e
        | q :: qs => (e.modW sl fun w => { w with rangeQ := qs }).beginRange sl q {}) = e := by rw [he]
    exact ends (a.modW sl (Wharf.rangeEnded r.id)) no_next
  · rw [wharf, acted.wharf]
    simp [Wharf.rangeEnded, hr]
  · exact (Dev.ms_modMs acted.rest sl k _).trans ((if_neg hk).trans (acted.ms k hk))

/-- R203: a draining Wharf with no dirty line enters bypass, and its filter moves unless it has moved. -/
theorem Dev.drainComplete_clean {d : Dev} (h : d.Rest) {sl : Nat} (hd : (d.ms sl).wharf.draining = true)
    (hl : ∀ x ∈ (d.ms sl).wharf.lines, x.2.st.isDirty = false) :
    d.drainComplete sl {} = d.modMs sl fun x => { x with
      wharf := { x.wharf with fenced := true, draining := false, lines := [], scratch := [], scrPois := [] }
      filt := { x.filt with moving := !x.filt.moved } } := by
  have none_dirty : ((d.ms sl).wharf.lines.filter fun x => x.2.st = .dirty) = [] := by
    rw [List.filter_eq_nil_iff]
    intro x hx hs
    have := hl x hx
    rw [of_decide_eq_true hs] at this
    exact absurd this (by decide)
  have none_left : ((d.ms sl).wharf.lines.any fun x => x.2.st.isDirty) = false := by
    rw [List.any_eq_false]
    intro x hx
    simp [hl x hx]
  simp only [Dev.drainComplete, hd, none_dirty, List.map_nil, Dev.writeLines_nil, none_left, Bool.not_true, Bool.false_eq_true, if_false]
  exact Dev.modMs_modMs h sl _ _

/-- Settles O28, one end of maintenance a clause. -/
theorem wharfMaintenanceEnds : Obligations.WharfMaintenanceEnds := by
  unfold Obligations.WharfMaintenanceEnds
  intro s hrest
  have h := s.dev.atRest_iff.1 hrest
  refine ⟨fun m hm empty => ?_, fun sl r hsl hr hw hl hq _ => ?_, fun sl hsl hd hl => ?_⟩
  · obtain ⟨e, ends, rest, conv, mem, done⟩ := Dev.convDone_empty h hm fun k hk => (empty k hk).1
    refine ⟨s.to e, ?_, conv, done, mem⟩
    change onDev s (fun d => d.convDone) = _
    exact onDev_ends ends rest
  · obtain ⟨e, ends, rest, ranges, mem, ms⟩ := Dev.rangeDone_empty h hr hw hl hq
    refine ⟨s.to e, ?_, ranges, mem, ms⟩
    change onUnit sl s (fun d => d.rangeDone sl r.id) = _
    exact onUnit_ends hsl ends rest
  · change onUnit sl s (fun d => d.drainComplete sl {}) = _
    exact onUnit_ends hsl (Dev.drainComplete_clean h hd hl) (h.modMs sl _)

end Sys2Proof.Machine
end

section
/-! Cleaning a top node of a counter tree (R257, R251). -/
namespace Sys2Proof.Machine

/-- An access to a channel leaves a device at rest and every channel as usable as it was. -/
structure SameUse (d e : Dev) : Prop where
  rest : e.Rest
  chOk : ∀ c, e.chOk c = d.chOk c

theorem SameUse.refl {d : Dev} (h : d.Rest) : SameUse d d := ⟨h, fun _ => rfl⟩

theorem SameUse.trans {a b c : Dev} (h : SameUse a b) (k : SameUse b c) : SameUse a c := ⟨k.rest, fun m => (k.chOk m).trans (h.chOk m)⟩

theorem SameUse.modCh {d : Dev} (h : d.Rest) (n : Nat) (f : Chan → Chan) (hq : ∀ x, x.retQ = [] → (f x).retQ = [] := by intro x hx; exact hx)
    (hf : (f (d.ch n)).pop = (d.ch n).pop ∧ (f (d.ch n)).usable = (d.ch n).usable := by exact ⟨rfl, rfl⟩) : SameUse d (d.modCh n f) := by
  refine ⟨h.modCh n f hq hf, fun c => ?_⟩
  have usable : ((d.modCh n f).ch c).usable = (d.ch c).usable := by
    rw [Dev.ch_modCh h]
    split
    · next hc => rw [hc, hf.2]
    · rfl
  unfold Dev.chOk
  rw [usable]
  rfl

theorem SameUse.bump {d : Dev} (h : d.Rest) (code inst n : Nat) (ld cls : Option Nat) : SameUse d (d.bump code inst n ld cls) := by
  refine ⟨h.bump _ _ _ _ _, fun c => ?_⟩
  unfold Dev.chOk Dev.on Dev.ch
  rw [Dev.bump_codeH, Dev.bump_chn]

theorem SameUse.activateRow {d : Dev} (h : d.Rest) (c : Nat) (r : RowAddr) (cls : Option Nat) : SameUse d (d.activateRow c r cls) := by
  unfold Dev.activateRow
  dsimp only
  have counted := SameUse.bump h 0x403 c 1 none cls
  exact counted.trans (.modCh counted.rest _ _)

theorem SameUse.foldl {β : Type} (f : Dev → β → Dev) (hf : ∀ d b, d.Rest → SameUse d (f d b)) (l : List β) : ∀ {d : Dev}, d.Rest → SameUse d (l.foldl f d) := by
  induction l with
  | nil => exact .refl
  | cons b l ih => exact fun h => (hf _ b h).trans (ih (hf _ b h).rest)

theorem SameUse.payOwed {d : Dev} (h : d.Rest) (c : Nat) : SameUse d (d.payOwed c) := by
  unfold Dev.payOwed
  dsimp only
  have paid := SameUse.modCh h c fun x => { x with owed := [] }
  have counted (n : Nat) := paid.trans (.bump paid.rest 0x404 c n none none)
  refine (counted _).trans (.foldl _ (fun d r hd => ?_) _ (counted _).rest)
  have opened := SameUse.activateRow hd c r none
  exact opened.trans (.modCh opened.rest _ _)

theorem SameUse.openAt {d : Dev} (h : d.Rest) (c off : Nat) (cls : Option Nat) : SameUse d (d.openAt c off cls) := by
  have opens {e : Dev} (he : e.Rest) :
      SameUse e (if tget none (e.ch c).openRow (e.rowOf c off).bank = some (e.rowOf c off).row then e else e.activateRow c (e.rowOf c off) cls) := by
    split
    · exact .refl he
    · exact .activateRow he _ _ _
  unfold Dev.openAt
  dsimp only
  cases (d.ch c).owed.isEmpty with
  | true => exact opens h
  | false => exact (SameUse.payOwed h c).trans (opens (SameUse.payOwed h c).rest)

theorem SameUse.wr {d : Dev} (h : d.Rest) (c off : Nat) (bs : List Byte) (cls : Option Nat) : SameUse d (d.wr c off bs cls) := by
  refine ⟨h.wr c off bs cls, fun m => ?_⟩
  have opened := SameUse.openAt h c off cls
  have counted := opened.trans (.bump opened.rest 0x402 c ((bs.length + 63) / 64) none cls)
  exact (counted.trans (.bump counted.rest 0x409 c 1 none cls)).chOk m

theorem Dev.ms_modSeal {d : Dev} (h : d.Rest) (sl : Nat) (f : SealSt → SealSt) : (d.modSeal sl f).ms sl = { d.ms sl with sl := f (d.ms sl).sl } := by
  unfold Dev.modSeal
  rw [Dev.ms_modMs h, if_pos rfl]

theorem Dev.Rest.modSeal {d : Dev} (h : d.Rest) (sl : Nat) (f : SealSt → SealSt) : (d.modSeal sl f).Rest := h.modMs sl _

theorem Dev.modSeal_modSeal {d : Dev} (h : d.Rest) (sl : Nat) (f g : SealSt → SealSt) : (d.modSeal sl f).modSeal sl g = d.modSeal sl fun s => g (f s) :=
  Dev.modMs_modMs h sl _ _

/-- R257 step 3: a node goes to both copies of its area while both their channels can be used. -/
def Dev.bothWritten (d : Dev) (r : Root) (o : Nat) (bs : List Byte) : Dev :=
  ((d.wr r.chA (r.frA * 4096 + o) bs none).wr r.chB (r.frB * 4096 + o) bs none)

theorem Dev.storeNode_both {d : Dev} (h : d.Rest) {sl blk lvl idx : Nat} (n : Node) (hA : d.chOk (d.root sl blk).chA = true)
    (hB : d.chOk (d.root sl blk).chB = true) :
    d.storeNode sl blk lvl idx n none =
      (d.bothWritten (d.root sl blk) (d.nodeOff (d.blockNear blk) lvl idx) (nodeBytes n)).bump 0x302 sl 1 none none := by
  have hB' := (SameUse.wr h (d.root sl blk).chA ((d.root sl blk).frA * 4096 + d.nodeOff (d.blockNear blk) lvl idx) (nodeBytes n) none).chOk (d.root sl blk).chB
  simp only [Dev.storeNode, hA, if_true, hB', hB]
  rfl

/-- R251, R257: the parent counter of a top node advances in the root store, with the node's MAC. -/
def SealSt.rootAdvanced (blk : Nat) (r : Root) (c mac : BitVec 64) (s : SealSt) : SealSt :=
  { s with hw := if s.hw.toNat < c.toNat then c else s.hw, roots := tput {} s.roots blk { r with ctr := c, mac } }

/-- R257: the counter that a node's cleaning advances its parent entry to. -/
def SealSt.nextCtr (s : SealSt) (c : BitVec 64) : BitVec 64 := if c = 0#64 then s.hw + 1#64 else c + 1#64

theorem Dev.cleanNode_top {d : Dev} (h : d.Rest) {sl blk idx : Nat} {l : SLine} (hc : (d.ms sl).sl.cache = [l]) (hd : l.dirty = true) (hb : l.blk = blk)
    (hi : l.idx = idx) (ht : l.lvl = (d.root sl blk).top) (hr : Tbl.rises (d.ms sl).sl.roots = true) (hA : d.chOk (d.root sl blk).chA = true)
    (hB : d.chOk (d.root sl blk).chB = true) :
    let c := (d.ms sl).sl.nextCtr (d.root sl blk).ctr
    let o := d.nodeOff (d.blockNear blk) l.lvl idx
    d.cleanNode sl blk l.lvl idx none =
      (((d.modSeal sl (SealSt.rootAdvanced blk (d.root sl blk) c (d.nodeMac c sl blk l.lvl idx l.node))).bothWritten (d.root sl blk) o
        (nodeBytes l.node)).bump 0x302 sl 1 none none).modSeal sl (·.put { l with dirty := false }) := by
  intro c o
  have found : (d.ms sl).sl.line blk l.lvl idx = some l := by simp [SealSt.line, hc, hb, hi]
  have top : (d.root sl blk).top ≤ l.lvl := Nat.le_of_eq ht.symm
  have h1 : (d.modSeal sl fun s => { s with hw := if s.hw.toNat < c.toNat then c else s.hw }).Rest := h.modSeal sl _
  have root1 : (d.modSeal sl fun s => { s with hw := if s.hw.toNat < c.toNat then c else s.hw }).root sl blk = d.root sl blk := by
    unfold Dev.root
    rw [Dev.ms_modSeal h]
  have advanced : ((d.modSeal sl fun s => { s with hw := if s.hw.toNat < c.toNat then c else s.hw }).modSeal sl fun s =>
      { s with roots := tput {} s.roots blk { d.root sl blk with ctr := c, mac := d.nodeMac c sl blk l.lvl idx l.node } }) =
      d.modSeal sl (SealSt.rootAdvanced blk (d.root sl blk) c (d.nodeMac c sl blk l.lvl idx l.node)) := Dev.modSeal_modSeal h sl _ _
  obtain ⟨e, he⟩ : ∃ e, e = d.modSeal sl (SealSt.rootAdvanced blk (d.root sl blk) c (d.nodeMac c sl blk l.lvl idx l.node)) := ⟨_, rfl⟩
  have rest : e.Rest := he ▸ h.modSeal sl _
  have root : e.root sl blk = { d.root sl blk with ctr := c, mac := d.nodeMac c sl blk l.lvl idx l.node } := by
    unfold Dev.root
    rw [he, Dev.ms_modSeal h]
    exact (tget_tput _ _ _ _ _ hr).trans (if_pos rfl)
  have stored := Dev.storeNode_both rest (sl := sl) (blk := blk) (lvl := l.lvl) (idx := idx) l.node
    (by rw [root, he]; exact hA) (by rw [root, he]; exact hB)
  have set : (d.modSeal sl fun s => { s with hw := if s.hw.toNat < c.toNat then c else s.hw }).setParent sl blk l.lvl idx c
      (d.nodeMac c sl blk l.lvl idx l.node) = e := by
    unfold Dev.setParent
    dsimp only
    rw [root1, if_pos top, he]
    exact advanced
  have cleaned : d.cleanNode sl blk l.lvl idx none = (e.storeNode sl blk l.lvl idx l.node none).modSeal sl (·.put { l with dirty := false }) := by
    unfold Dev.cleanNode
    dsimp only
    rw [found]
    simp only [hd, Bool.not_true, Bool.false_eq_true, if_false, if_pos top]
    rw [← set]
    rfl
  rw [cleaned, stored, root, he]
  rfl

/-- Settles O29: the root entry advances, both copies are written, the line is clean. -/
theorem nodeCleanAdvancesTheRoot : Obligations.NodeCleanAdvancesTheRoot := by
  unfold Obligations.NodeCleanAdvancesTheRoot
  intro s sl blk idx l hrest hsl hcache hd hb hi r ht hr hA hB c o
  have h := s.dev.atRest_iff.1 hrest
  have h1 := h.modSeal sl (SealSt.rootAdvanced blk r c (s.dev.nodeMac c sl blk l.lvl idx l.node))
  have ms1 := Dev.ms_modSeal h sl (SealSt.rootAdvanced blk r c (s.dev.nodeMac c sl blk l.lvl idx l.node))
  obtain ⟨e, he⟩ : ∃ e, e = s.dev.modSeal sl (SealSt.rootAdvanced blk r c (s.dev.nodeMac c sl blk l.lvl idx l.node)) := ⟨_, rfl⟩
  rw [← he] at h1 ms1
  obtain ⟨w, hw⟩ : ∃ w, w = (e.bothWritten r o (nodeBytes l.node)).bump 0x302 sl 1 none none := ⟨_, rfl⟩
  have h2 : w.Rest := hw ▸ ((h1.wr _ _ _ _).wr _ _ _ _).bump _ _ _ _ _
  have ms2 : w.ms sl = e.ms sl := Dev.ms_of_slc (by
    rw [hw, Dev.bump_slc]
    exact (wr_same _ _ _ _ _).slc.trans (wr_same _ _ _ _ _).slc) sl
  have mem2 : w.mem = memPut (memPut s.dev.mem (chBase r.chA + (r.frA * 4096 + o)) (nodeBytes l.node)) (chBase r.chB + (r.frB * 4096 + o)) (nodeBytes l.node) := by
    rw [hw, Dev.bump_mem, Dev.bothWritten, Dev.wr_mem, Dev.wr_mem, he]
    rfl
  have cleans : s.dev.nodeClean sl blk l.lvl idx = w.modSeal sl (·.put { l with dirty := false }) :=
    (Dev.cleanNode_top h hcache hd hb hi ht hr hA hB).trans (by rw [hw, he]; rfl)
  have ms3 := Dev.ms_modSeal h2 sl (·.put { l with dirty := false })
  rw [ms2, ms1] at ms3
  have root : (w.modSeal sl (·.put { l with dirty := false })).root sl blk = { r with ctr := c, mac := s.dev.nodeMac c sl blk l.lvl idx l.node } := by
    unfold Dev.root
    rw [ms3]
    exact (tget_tput _ _ _ _ _ hr).trans (if_pos rfl)
  refine ⟨s.to (w.modSeal sl (·.put { l with dirty := false })), ?_, ?_, ?_, ?_, mem2⟩
  · change onUnit sl s (fun d => d.nodeClean sl blk l.lvl idx) = _
    exact onUnit_ends hsl cleans (h2.modSeal sl _)
  · rw [State.to_dev, root]
  · rw [State.to_dev, root]
  · rw [State.to_dev, ms3]
    simp [SealSt.put, SealSt.rootAdvanced, hcache]

end Sys2Proof.Machine
end

section
/-! A sector handed over: the host's answer at the owner landing, and the handoff at the home slice (R213, R219, R220). -/
namespace Sys2Proof.Machine

/-- R219: a snoop of a landing is answered. -/
def Landing.answered (x : Snoop) (l : Landing) : Landing := { l with coh := { l.coh with snoops := l.coh.snoops.erase x } }

/-- R220: every entry of a sector leaves the boarding queue with a head that wanted A, and none goes back. -/
def Landing.headLeft (sector : Nat) (f : Fwd) (l : Landing) : Landing :=
  { l with coh := { l.coh with board := l.coh.board.filter fun y => decide (y.sector ≠ sector) || (decide (Want.a = Want.none) && decide (y ≠ f))
                               returns := BitVec.ofNat 16 (satAdd 0xFFFF l.coh.returns.toNat 0) } }

/-- R219: the handoff of a head that wanted A with no data written back. -/
def handoffOf (n : Nat) (f : Fwd) (rsp : BiRsp) (snooped : BitVec 4) : Handoff := { from_ := n, head := some f, rsp, snooped }

/-- What the answer of a host that ends the service of a head leaves. -/
structure HeadServed (n : Nat) (f : Fwd) (rsp : BiRsp) (d e : Dev) : Prop where
  rest : e.Rest
  board : (e.ld n).coh.board = []
  snoops : (e.ld n).coh.snoops = []
  handoff : ∃ snooped, (e.ms f.home).filt.handoffs = (d.ms f.home).filt.handoffs ++ [handoffOf n f rsp snooped]
  mem : e.mem = d.mem

/-- R220: the end of a head's service with nothing behind it and nothing to send: the handoff goes to the home slice. -/
theorem HeadServed.of_sent {d : Dev} (h : d.Rest) {n : Nat} {f : Fwd} {rsp : BiRsp} {snooped : BitVec 4} (g : Landing → Landing)
    (hg : ∀ l, l.pool.txq = [] → (g l).pool.txq = []) (hb : (g (d.ld n)).coh.board = []) (hs : (g (d.ld n)).coh.snoops = []) :
    HeadServed n f rsp d ((d.modLd n g).sendHandoff f.home (handoffOf n f rsp snooped)) := by
  have h1 := h.modLd n g hg
  have ld := Dev.ld_modLd_self h n g
  refine ⟨h1.modF _ _, ?_, ?_, ⟨snooped, ?_⟩, rfl⟩
  · exact (congrArg (·.coh.board) ld).trans hb
  · exact (congrArg (·.coh.snoops) ld).trans hs
  · unfold Dev.sendHandoff
    rw [Dev.ms_modF h1, if_pos rfl]
    rfl

/-- R219, R220: the answer to the one snoop for the one head, which wanted A and had nothing written back. -/
theorem Dev.biRsp_head {d : Dev} (h : d.Rest) {n : Nat} {f : Fwd} {x : Snoop} (rsp : BiRsp) (hb : (d.ld n).coh.board = [f])
    (hs : (d.ld n).coh.snoops = [x]) (hw : x.why = .board) (hblk : x.blk = false) (hg : x.got = []) (hx : x.line = f.sector * 4 + f.line) (hf : f.line < 4)
    (hk : f.req.kind = .rd .inv) (hr : f.rdonly = false) : HeadServed n f rsp d (d.biRsp n x.line false rsp) := by
  have sector : x.line / 4 = f.sector := by omega
  have found : ((d.ld n).coh.snoops.find? fun s => decide (s.blk = false) && (if false = true then decide (s.line / 4 = x.line / 4) else decide (s.line = x.line))) =
      some x := by rw [hs]; simp [hblk]
  have want : wantOf f.req.kind f.rdonly = .a := by rw [hk, hr]; rfl
  have h1 : (d.modLd n (Landing.answered x)).Rest := h.modLd n _
  have head : ((d.modLd n (Landing.answered x)).ld n).coh.ofSector (x.line / 4) = [f] := by
    rw [Dev.ld_modLd_self h, sector]
    simp [Landing.answered, Coh.ofSector, hb]
  obtain ⟨snooped, ends⟩ : ∃ snooped, d.biRsp n x.line false rsp =
      (((d.modLd n (Landing.answered x)).modLd n (Landing.headLeft (x.line / 4) f)).sendHandoff f.home (handoffOf n f rsp snooped)) := by
    obtain ⟨snooped, covers⟩ : ∃ snooped, snooped = ((match (d.modLd n (Landing.answered x)).fent f.home (x.line / 4) with
      | some (_, e) => e
      | none => {}).linesIn 2).foldl (fun m j => setBit m j true) 0#4 := ⟨_, rfl⟩
    refine ⟨snooped, ?_⟩
    unfold Dev.biRsp
    rw [found]
    dsimp only
    rw [hw]
    dsimp only
    unfold Dev.headDone
    dsimp only
    rw [show (d.modLd n fun l => { l with coh := { l.coh with snoops := l.coh.snoops.erase x } }) = d.modLd n (Landing.answered x) from rfl, head]
    dsimp only
    have unsent : (decide (Want.a ≠ Want.w) && decide (f.req.kind ≠ .minv) && (dataOf [] f.line).isSome && f.ld.isSome) = false := by rw [hk]; rfl
    rw [want, hg, unsent]
    have left := Dev.modLd_modLd h1 n (fun l => { l with coh := { l.coh with
      board := l.coh.board.filter fun y => decide (y.sector ≠ x.line / 4) || (decide (Want.a = Want.none) && decide (y ≠ f)) } })
      fun l => { l with coh := { l.coh with returns := BitVec.ofNat 16 (satAdd 0xFFFF l.coh.returns.toNat 0) } }
    have sent := congrArg (fun e : Dev => e.sendHandoff f.home (handoffOf n f rsp snooped)) left
    rw [covers] at sent ⊢
    cases f.ld <;> exact sent
  rw [ends, Dev.modLd_modLd h]
  refine HeadServed.of_sent h _ (fun l hl => hl) ?_ ?_
  · simp [Landing.answered, Landing.headLeft, hb, sector]
  · simp [Landing.answered, Landing.headLeft, hs]

/-! The handoff at the home slice. -/

/-- A filter entry whose line is given a state has it in that state. -/
theorem FEnt.ls_setLs (e : FEnt) {j v : Nat} (hj : j < 4) (hv : v < 4) : (e.setLs j v).ls j = v := by
  have small : e.lstate.toNat < 256 := e.lstate.isLt
  simp only [FEnt.setLs, FEnt.ls, bits, BitVec.toNat_ofNat]
  have cases4 : j = 0 ∨ j = 1 ∨ j = 2 ∨ j = 3 := by omega
  rcases cases4 with rfl | rfl | rfl | rfl <;> norm_num <;> omega

theorem FEnt.foldl_setLs_epoch (l : List Nat) (v : Nat) : ∀ e : FEnt, (l.foldl (fun e j => e.setLs j v) e).epoch = e.epoch := by
  induction l with
  | nil => exact fun _ => rfl
  | cons j l ih => exact fun e => ih (e.setLs j v)

/-- R220: a head that wanted A makes its requester the owner of its line, under the next ownership epoch. -/
theorem FEnt.handed_a {e : FEnt} {h : Handoff} {f : Fwd} {r : Nat} (hk : f.req.kind = .rd .inv) (hr : f.rdonly = false) (hl : f.ld = some r) (hf : f.line < 4) :
    (e.handed h f).ls f.line = 2 ∧ (e.handed h f).owner = Fin.ofNat 16 r ∧ (e.handed h f).epoch = e.epoch + 1#4 := by
  have want : wantOf f.req.kind f.rdonly = .a := by rw [hk, hr]; rfl
  unfold FEnt.handed
  rw [want, hl]
  exact ⟨FEnt.ls_setLs _ hf (by decide), rfl, congrArg (· + 1#4) (FEnt.foldl_setLs_epoch _ 0 e)⟩

/-- A change of a slice that leaves what it holds leaves every slice. -/
theorem Dev.ms_modMs_fixed {d : Dev} (h : d.Rest) {sl : Nat} {f : Slice → Slice} (hf : f (d.ms sl) = d.ms sl) (m : Nat) : (d.modMs sl f).ms m = d.ms m := by
  rw [Dev.ms_modMs h]
  split
  · next hm => rw [hm, hf]
  · rfl

/-- R219: the oldest handoff, the only one, is taken off its way, with the forward it answers. -/
def Filter.handoffTaken (f : Fwd) (x : Filter) : Filter :=
  { x with handoffs := [], fwds := x.fwds.filter fun y => !decide (f.sector = y.sector ∧ f.line = y.line ∧ f.ld = y.ld ∧ f.req = y.req) }

/-- What the entry's update does to the slices is all that they show of a handoff. -/
structure HandoffApplied (d e : Dev) : Prop where
  rest : e.Rest
  ms : ∀ m, e.ms m = d.ms m
  mem : e.mem = d.mem

theorem HandoffApplied.refl {d : Dev} (h : d.Rest) : HandoffApplied d d := ⟨h, fun _ => rfl, rfl⟩

theorem HandoffApplied.modMs {d e : Dev} (k : HandoffApplied d e) (sl : Nat) (f : Slice → Slice) (hf : f (e.ms sl) = e.ms sl)
    (hr : ∀ x, x.atRest = true → (f x).atRest = true) : HandoffApplied d (e.modMs sl f) :=
  ⟨k.rest.modMs sl f hr, fun m => (Dev.ms_modMs_fixed k.rest hf m).trans (k.ms m), k.mem⟩

/-- R220: with nothing waiting at rest the conflict queue stays empty behind a handoff that returns nothing. -/
def Slice.requeued (sector : Nat) (s : Slice) : Slice :=
  { s with waitq := (s.waitq.filter fun w => w.grant.isSome && decide (w.line / 4 = sector)) ++ [].map (fun f : Fwd => f.toWork none) ++
      s.waitq.filter fun w => !(w.grant.isSome && decide (w.line / 4 = sector)) }

theorem Slice.requeued_empty {s : Slice} (h : s.waitq = []) (sector : Nat) : s.requeued sector = s := by
  have same : (s.waitq.filter fun w => w.grant.isSome && decide (w.line / 4 = sector)) ++ [].map (fun f : Fwd => f.toWork none) ++
      (s.waitq.filter fun w => !(w.grant.isSome && decide (w.line / 4 = sector))) = s.waitq := by rw [h]; rfl
  exact congrArg (fun waitq => { s with waitq }) same

theorem Slice.requeued_atRest (sector : Nat) (s : Slice) (h : s.atRest = true) : (s.requeued sector).atRest = true := by
  have empty : s.waitq = [] := by
    simp only [Slice.atRest, Bool.and_eq_true, List.isEmpty_iff] at h
    exact h.1.1
  rw [Slice.requeued_empty empty]
  exact h

/-- R227: no loss report waits for the sector's handoff. -/
theorem HandoffApplied.lossPending {d e : Dev} (k : HandoffApplied d e) {sl : Nat} (hl : (e.ms sl).filt.lossWait = []) (sector : Nat) :
    HandoffApplied d (e.lossPending sl sector) := by
  unfold Dev.lossPending
  rw [hl]
  have same (p : Nat × Nat × Nat × BitVec 4 × Bool → Bool) : (e.ms sl).filt.lossWait.filter p = (e.ms sl).filt.lossWait := by rw [hl]; rfl
  refine k.modMs sl _ ?_ fun x hx => hx
  exact congrArg (fun lossWait => { e.ms sl with filt := { (e.ms sl).filt with lossWait } }) (same _)

/-- R219, R220: the one handoff on its way, of a head that wanted A and whose data its owner sent: the entry is updated and nothing else. -/
theorem Dev.applyHandoff_sent {d : Dev} (hd : d.Rest) {sl r : Nat} {h : Handoff} {f : Fwd} {loc : FLoc} {e : FEnt} (hh : (d.ms sl).filt.handoffs = [h])
    (hf : h.head = some f) (hb : h.back = []) (hdata : h.data = []) (hs : h.sent = true) (hl : f.ld = some r) (hk : f.req.kind = .rd .inv)
    (hr : f.rdonly = false) (he : d.fent sl f.sector = some (loc, e)) (hx : ∀ x ∈ (d.ld r).coh.xfers, x.got = false) :
    d.applyHandoff sl = (((d.modF sl (Filter.handoffTaken f)).putFent sl loc (e.handed h f)).modMs sl (Slice.requeued f.sector)).lossPending sl f.sector := by
  have want : wantOf f.req.kind f.rdonly = .a := by rw [hk, hr]; rfl
  have taken : (d.modF sl fun y => { y with handoffs := [], fwds := y.fwds.filter fun x => !(((some f).toList ++ []).any fun g =>
      decide (g.sector = x.sector ∧ g.line = x.line ∧ g.ld = x.ld ∧ g.req = x.req)) }) = d.modF sl (Filter.handoffTaken f) := by
    simp only [Option.toList_some, List.append_nil, List.any_cons, List.any_nil, Bool.or_false]
    rfl
  have found : (d.modF sl (Filter.handoffTaken f)).fent sl f.sector = some (loc, e) := (Dev.fent_modF hd sl (Filter.handoffTaken f) f.sector).trans he
  have lnd : ((d.modF sl (Filter.handoffTaken f)).putFent sl loc (e.handed h f)).lnd = d.lnd := by
    unfold Dev.putFent
    cases loc <;> rfl
  have unacked : ((((d.modF sl (Filter.handoffTaken f)).putFent sl loc (e.handed h f)).ld r).coh.xfers.find? fun x =>
      decide (x.sector = f.sector) && decide (x.line = f.line)).map (fun x : Xfer => x.got && x.acked) ≠ some true := by
    rw [Dev.ld_of_lnd lnd]
    cases hfind : (d.ld r).coh.xfers.find? fun x => decide (x.sector = f.sector) && decide (x.line = f.line) with
    | none => simp
    | some x => simp [hx x (List.mem_of_find?_eq_some hfind)]
  unfold Dev.applyHandoff
  rw [hh]
  dsimp only
  rw [hdata, hf, hb]
  dsimp only [List.foldl_nil, Bool.not_true]
  refine (if_neg (by decide)).trans ?_
  simp only [taken, found, hl, want, hs, Bool.true_or, if_true, reduceCtorEq, if_false, unacked]
  rfl

/-- Settles O21: the answer at the owner landing and the handoff at the home slice. -/
theorem answerHandsTheSectorOver : Obligations.AnswerHandsTheSectorOver := by
  unfold Obligations.AnswerHandsTheSectorOver
  refine ⟨?_, ?_⟩
  · intro s n f x rsp hrest hn _ hb hs hw hblk hg hx hf hlt hk hr
    have h := s.dev.atRest_iff.1 hrest
    have served := Dev.biRsp_head h rsp hb hs hw hblk hg hx hf hk hr
    obtain ⟨rest, board, snoops, ⟨snooped, handoff⟩, mem⟩ := served
    have line : (BitVec.ofNat 39 x.line).toNat = x.line := by rw [BitVec.toNat_ofNat, Nat.mod_eq_of_lt hlt]
    refine ⟨s.to (s.dev.biRsp n x.line false rsp), handoffOf n f rsp snooped, ?_, board, snoops, handoff, rfl, rfl, rfl, rfl, rfl, mem⟩
    change onUnit n s (fun d => d.biRsp n (BitVec.ofNat 39 x.line).toNat false rsp) = _
    exact onUnit_ends hn (by rw [line]) rest
  · intro s sl h f r loc e hrest hsl hh hf hb hdata hsent hl hlt hk hr he hloss hx
    have hd := s.dev.atRest_iff.1 hrest
    have applied := Dev.applyHandoff_sent hd hh hf hb hdata hsent hl hk hr he hx
    have h1 := hd.modF sl (Filter.handoffTaken f)
    obtain ⟨p, hp⟩ : ∃ p, p = (s.dev.modF sl (Filter.handoffTaken f)).putFent sl loc (e.handed h f) := ⟨_, rfl⟩
    have rest : p.Rest := hp ▸ h1.putFent sl loc _
    have filt : (p.ms sl).filt.handoffs = [] ∧ (p.ms sl).filt.lossWait = [] := by
      have before : ((s.dev.modF sl (Filter.handoffTaken f)).ms sl).filt.handoffs = [] ∧ ((s.dev.modF sl (Filter.handoffTaken f)).ms sl).filt.lossWait = [] := by
        rw [Dev.ms_modF hd, if_pos rfl]
        exact ⟨rfl, hloss⟩
      rw [hp]
      unfold Dev.putFent
      cases loc with
      | way fs k =>
        rw [Dev.ms_modF h1]
        split
        · next hm => rw [← hm]; exact before
        · exact before
      | store => rw [Dev.ms_modF h1, if_pos rfl]; exact before
    have steady := (HandoffApplied.refl rest).modMs sl (Slice.requeued f.sector) (Slice.requeued_empty (rest.slice sl).1 _) (Slice.requeued_atRest _)
    have done := steady.lossPending (sl := sl) (by rw [steady.ms]; exact filt.2) f.sector
    rw [hp] at done
    refine ⟨_, onUnit_ends hsl applied done.rest, ?_, done.ms, FEnt.handed_a hk hr hl hlt⟩
    rw [State.to_dev, done.ms, ← hp]
    exact filt.1

end Sys2Proof.Machine
end

section

/-! O36: a Barge channel of Syust with its ring in the internal map fetches, judges and completes its descriptors (R325 to R327). -/

namespace Sys2Proof.Machine

/-- The second device differs from the first in its DRAM and what counts its use alone. -/
def Dev.DramOnly (d e : Dev) : Prop := ∃ chn tele ctr mem, e = { d with chn, tele, ctr, mem }

theorem Dev.DramOnly.refl (d : Dev) : d.DramOnly d := ⟨_, _, _, _, rfl⟩

theorem Dev.DramOnly.trans {a b c : Dev} (h : a.DramOnly b) (k : b.DramOnly c) : a.DramOnly c := by
  obtain ⟨_, _, _, _, rfl⟩ := h
  obtain ⟨_, _, _, _, rfl⟩ := k
  exact ⟨_, _, _, _, rfl⟩

theorem Dev.bump_dramOnly (d : Dev) (code inst n : Nat) (ld cls : Option Nat) : d.DramOnly (d.bump code inst n ld cls) := by
  unfold Dev.bump
  dsimp only
  split <;> exact ⟨_, _, _, _, rfl⟩

theorem Dev.modCh_dramOnly (d : Dev) (c : Nat) (f : Chan → Chan) : d.DramOnly (d.modCh c f) := ⟨_, _, _, _, rfl⟩

theorem Dev.activateRow_dramOnly (d : Dev) (c : Nat) (r : RowAddr) (cls : Option Nat) : d.DramOnly (d.activateRow c r cls) := by
  unfold Dev.activateRow
  exact (d.bump_dramOnly _ _ _ _ _).trans (Dev.modCh_dramOnly _ _ _)

theorem Dev.foldl_dramOnly {β : Type} (f : Dev → β → Dev) (hf : ∀ (d : Dev) b, d.DramOnly (f d b)) (l : List β) (d : Dev) : d.DramOnly (l.foldl f d) := by
  induction l generalizing d with
  | nil => exact .refl d
  | cons b l ih => exact (hf d b).trans (ih _)

theorem Dev.payOwed_dramOnly (d : Dev) (c : Nat) : d.DramOnly (d.payOwed c) := by
  unfold Dev.payOwed
  dsimp only
  have paid := (d.modCh_dramOnly c fun x => { x with owed := [] }).trans (Dev.bump_dramOnly _ 0x404 c (d.ch c).owed.length none none)
  exact paid.trans (Dev.foldl_dramOnly _ (fun (e : Dev) r => (e.activateRow_dramOnly c r none).trans (Dev.modCh_dramOnly _ _ _)) _ _)

theorem Dev.openAt_dramOnly (d : Dev) (c off : Nat) (cls : Option Nat) : d.DramOnly (d.openAt c off cls) := by
  have opens (e : Dev) (he : d.DramOnly e) : d.DramOnly (if tget none (e.ch c).openRow (e.rowOf c off).bank = some (e.rowOf c off).row then e
      else e.activateRow c (e.rowOf c off) cls) := by
    split
    · exact he
    · exact he.trans (e.activateRow_dramOnly _ _ _)
  unfold Dev.openAt
  dsimp only
  cases (d.ch c).owed.isEmpty with
  | true => exact opens d (.refl d)
  | false => exact opens _ (d.payOwed_dramOnly c)

theorem Dev.wr_dramOnly (d : Dev) (c off : Nat) (bs : List Byte) (cls : Option Nat) : d.DramOnly (d.wr c off bs cls) := by
  have counted := ((d.openAt_dramOnly c off cls).trans (Dev.bump_dramOnly _ 0x402 c ((bs.length + 63) / 64) none cls)).trans
    (Dev.bump_dramOnly _ 0x409 c 1 none cls)
  obtain ⟨_, _, _, _, hc⟩ := counted
  unfold Dev.wr
  dsimp only
  rw [hc]
  exact ⟨_, _, _, _, rfl⟩

theorem Dev.DramOnly.brg {d e : Dev} (h : d.DramOnly e) : e.brg = d.brg := by
  obtain ⟨_, _, _, _, rfl⟩ := h
  rfl

/-- An access of the internal map leaves the device at rest and every Barge channel as it was. -/
structure SameBarge (d e : Dev) : Prop where
  rest : e.Rest
  brg : e.brg = d.brg

theorem SameBarge.bg {d e : Dev} (h : SameBarge d e) (n : Nat) : e.bg n = d.bg n := by
  unfold Dev.bg
  rw [h.brg]

theorem SameBarge.bgAgent {d e : Dev} (h : SameBarge d e) (n : Nat) : e.bgAgent n = d.bgAgent n := by
  unfold Dev.bgAgent Dev.driver
  rw [h.bg]

theorem Dev.rawWrite_sameBarge {d : Dev} (h : d.Rest) (a : Nat) (bs : List Byte) : SameBarge d (d.rawWrite a bs).2 := by
  unfold Dev.rawWrite
  split
  · exact ⟨h, rfl⟩
  · exact ⟨h.same, rfl⟩
  · split
    · exact ⟨h, rfl⟩
    · dsimp only
      exact ⟨h.modW _ _, rfl⟩
  · split
    · exact ⟨h, rfl⟩
    · dsimp only
      exact ⟨h.wr _ _ _ _, (d.wr_dramOnly _ _ _ _).brg⟩

theorem Dev.intWrite_sameBarge {d : Dev} (h : d.Rest) (ag : Agent) (a : Nat) (bs : List Byte) : SameBarge d (d.intWrite ag a bs).2 := by
  unfold Dev.intWrite
  split
  · exact d.rawWrite_sameBarge h a bs
  · exact ⟨h, rfl⟩

/-- Two changes of a Barge channel, one after the other. -/
theorem Dev.modBg_modBg {d : Dev} (h : d.Rest) (n : Nat) (f g : BrgCh → BrgCh) : (d.modBg n f).modBg n g = d.modBg n fun b => g (f b) := by
  have again : (d.modBg n f).bg n = f (d.bg n) := by rw [Dev.bg_modBg h, if_pos rfl]
  unfold Dev.modBg at again ⊢
  rw [again]
  dsimp only
  rw [tput_tput _ _ _ _ _ h.tidy.brg]

/-- A channel that Syust drives, its ring in the internal map, with no error and nothing that stops it (R321, R325). -/
structure Dev.SyustRing (d : Dev) (n : Nat) : Prop where
  owner : (d.bg n).owner = .syust
  space : (d.bg n).space = 1
  slot : spaceOf (d.bg n).slotAddr = 1
  noErr : (d.bg n).prog.err = none
  stop : (d.bg n).stop = false
  enable : (d.bg n).enable = true

theorem Dev.driver_syust {d : Dev} {n : Nat} (h : (d.bg n).owner = .syust) : d.driver n = .syust := by
  unfold Dev.driver
  rw [h]

theorem Dev.bgAgent_syust {d : Dev} {n : Nat} (h : (d.bg n).owner = .syust) : d.bgAgent n = .bs := by
  unfold Dev.bgAgent
  rw [Dev.driver_syust h]

theorem Dev.SyustRing.ringOk {d : Dev} {n : Nat} (h : d.SyustRing n) : d.ringOk n = true := by
  unfold Dev.ringOk
  rw [Dev.driver_syust h.owner, h.space]
  rfl

/-- R327: the judgement of a page descriptor of Syust, before any page is looked at. -/
theorem Dev.earlyCode_syust {d : Dev} {n : Nat} (h : (d.bg n).owner = .syust) (x : Desc) (page : d.descOk .syust x = true → isByteOp x.op = false) :
    d.earlyCode n x = if d.descOk .syust x = true then none else some 0x17 := by
  unfold Dev.earlyCode
  rw [Dev.driver_syust h]
  cases ok : d.descOk .syust x with
  | true => simp [page ok]
  | false => rfl

/-- The words of the descriptor at the channel's head come from the internal map. -/
theorem Dev.srcLine_internal {d : Dev} {n a : Nat} {bs : List Byte} {e : Dev} (h : (d.bg n).owner = .syust) (hs : spaceOf a = 1)
    (hr : d.intRead .bs (addrIn a) 64 .ok = (some (bs, false), e)) : d.srcLine n a {} = (.ok (ofBytes 512 bs) false, e) := by
  unfold Dev.srcLine
  rw [hs, Dev.bgAgent_syust h]
  dsimp only
  rw [hr]
  rfl

/-- What a fetched descriptor makes of its channel. -/
def BrgCh.fetched (own : Bool) (x : Desc) (code : Option Nat) (b : BrgCh) : BrgCh :=
  match own, code with
  | false, _ => { b with st := .idle }
  | true, none => { b with st := .running, cur := some x, prog := {} }
  | true, some c => { b with st := .running, cur := some x, prog := { fin := true, code := c, fault := x.src } }


theorem Dev.bgFetch_owned {d : Dev} (hd : d.Rest) {n : Nat} (h : d.SyustRing n) {bs : List Byte} {own : Bool} {x : Desc} (run : (d.bg n).st = .running)
    (idle : (d.bg n).cur = none) (more : (d.bg n).head ≠ (d.bg n).tail)
    (hr : d.intRead .bs (addrIn (d.bg n).slotAddr) 64 .ok = (some (bs, false), d)) (hx : parseDesc (ofBytes 512 bs) = (own, x))
    (page : own = true → d.descOk .syust x = true → isByteOp x.op = false) :
    d.bgFetch n {} = d.modBg n (BrgCh.fetched own x (if d.descOk .syust x = true then none else some 0x17)) := by
  unfold Dev.bgFetch
  dsimp only
  rw [idle, h.noErr, run, h.stop, h.enable, if_neg more, h.owner, h.ringOk, h.space]
  simp only [Option.isSome_none, decide_true, Bool.or_self, Bool.not_true, Bool.false_eq_true, if_false, Bool.or_false,
    reduceCtorEq, decide_false, Bool.false_and, one_ne_zero]
  rw [Dev.srcLine_internal h.owner h.slot hr]
  simp only [Bool.false_eq_true, if_false, hx]
  cases own with
  | false => rfl
  | true =>
    have kept (f : BrgCh → BrgCh) (hf : (f (d.bg n)).owner = .syust) :
        (d.modBg n f).earlyCode n x = if d.descOk .syust x = true then none else some 0x17 :=
      Dev.earlyCode_syust (by rw [Dev.bg_modBg hd, if_pos rfl]; exact hf) x (page rfl)
    rw [kept _ h.owner]
    cases d.descOk .syust x with
    | true => rfl
    | false =>
      change (d.modBg n _).finish n 0x17 x.src = _
      exact Dev.modBg_modBg hd n _ _

/-- R326: what the end of a descriptor without a fault leaves of its channel. -/
def BrgCh.completed (x : Desc) (b : BrgCh) : BrgCh :=
  { b with cur := none, prog := {}, head := b.head + 1#17, lastcode := b.prog.code, descs := b.descs + 1#16
           doneirq := b.doneirq || (x.irq && b.irqen), st := if b.head + 1#17 = b.tail then .idle else .running }

/-- What follows a write to the channel's ring: its fault, or the next step. -/
def Dev.afterPut (n a : Nat) (r : Got × Dev) (k : Dev → Dev) : Dev :=
  match r with
  | (.wait, d) => d
  | (.bus, d) => d.busError n a
  | (.code c, d) => d.halt n c
  | (.ok _ _, d) => k d

/-- The same with the good case first, as the second write of a completion has it. -/
theorem Dev.afterPut_eq (n a : Nat) (r : Got × Dev) (k : Dev → Dev) :
    (match r with
      | (.ok _ _, d) => k d
      | (.wait, d) => d
      | (.bus, d) => d.busError n a
      | (.code c, d) => d.halt n c) = Dev.afterPut n a r k := by
  obtain ⟨g, d⟩ := r
  cases g <;> rfl

/-- A write into the descriptor at the head of the ring (R326). -/
def Dev.putRing (d : Dev) (n : Nat) (b : BrgCh) (lo : Nat) (bs : List Byte) (ph : Phys) : Got × Dev :=
  let data := ofBytes 512 (List.replicate lo 0#8 ++ bs)
  if b.space = 0 then
    match d.brgWrite (b.slotAddr / 64) (d.bgCls n) data (enables lo (lo + bs.length)) false ph with
    | (true, d) => (.ok data false, d)
    | (false, d) => (.wait, d)
  else
    match d.intWrite (d.bgAgent n) (addrIn b.slotAddr + lo) bs with
    | (true, d) => (.ok data false, d)
    | (false, d) => (.bus, d)

theorem Dev.putRing_internal {d e : Dev} {n : Nat} {b : BrgCh} {lo : Nat} {bs : List Byte} {ph : Phys} (hs : b.space = 1) (ha : d.bgAgent n = .bs)
    (hw : d.intWrite .bs (addrIn b.slotAddr + lo) bs = (true, e)) :
    d.putRing n b lo bs ph = (.ok (ofBytes 512 (List.replicate lo 0#8 ++ bs)) false, e) := by
  unfold Dev.putRing
  dsimp only
  rw [if_neg (by rw [hs]; decide), ha, hw]

/-- R326: HEAD moves on, the interrupt is raised, and the channel goes to its boundary or halts. -/
def Dev.slotFreed (d : Dev) (n : Nat) (b : BrgCh) (x : Desc) : Dev :=
  let freed := d.modBg n fun y =>
    { y with cur := none, prog := {}, head := y.head + 1#17, lastcode := b.prog.code, descs := y.descs + 1#16, doneirq := y.doneirq || (x.irq && y.irqen) }
  let told := if x.irq && b.irqen then freed.bgIrq n 6 else freed
  if b.prog.code = 0x20 then told.halt n 0x20 b.prog.fault else told.modBg n BrgCh.boundary

/-- R326: the completion of a descriptor writes its status, clears OWN and frees its slot, in this order. -/
theorem Dev.bgComplete_steps {d : Dev} {n : Nat} {x : Desc} (ph : Phys) (hx : (d.bg n).cur = some x) (fin : (d.bg n).prog.fin = true)
    (err : (d.bg n).prog.err = none) (ok : d.ringOk n = true) :
    d.bgComplete n ph = Dev.afterPut n (d.bg n).slotAddr (d.putRing n (d.bg n) 48 ((d.bg n).prog.words (isByteOp x.op)) ph) fun e =>
      Dev.afterPut n (d.bg n).slotAddr (e.putRing n (d.bg n) 0 (bytesOf 8 (BitVec.ofNat 64 (x.w0 / 2 * 2))) ph) fun e => e.slotFreed n (d.bg n) x := by
  unfold Dev.bgComplete
  dsimp only
  rw [hx]
  dsimp only
  rw [fin, err, ok]
  refine congrArg₂ (Dev.afterPut n (d.bg n).slotAddr) rfl (funext fun e => ?_)
  exact Dev.afterPut_eq n _ (e.putRing n (d.bg n) 0 (bytesOf 8 (BitVec.ofNat 64 (x.w0 / 2 * 2))) ph) fun e => e.slotFreed n (d.bg n) x

theorem Dev.slotFreed_syust {g : Dev} (hg : g.Rest) {n : Nat} {x : Desc} (h : (g.bg n).owner = .syust) (code : (g.bg n).prog.code ≠ 0x20)
    (enable : (g.bg n).enable = true) (stop : (g.bg n).stop = false) : g.slotFreed n (g.bg n) x = g.modBg n (BrgCh.completed x) := by
  have driven (f : BrgCh → BrgCh) (hf : (f (g.bg n)).owner = .syust) (v : Nat) : (g.modBg n f).bgIrq n v = g.modBg n f := by
    unfold Dev.bgIrq
    rw [Dev.driver_syust (by rw [Dev.bg_modBg hg, if_pos rfl]; exact hf)]
  unfold Dev.slotFreed
  dsimp only
  rw [if_neg code, driven _ h, ite_self, Dev.modBg_modBg hg]
  refine Dev.modBg_congr _ _ _ _ ?_
  simp only [BrgCh.boundary, BrgCh.completed, enable, stop, Bool.not_true, Bool.false_eq_true, if_false]
  split <;> rfl

theorem Dev.bgComplete_internal {d : Dev} (hd : d.Rest) {n : Nat} (h : d.SyustRing n) {x : Desc} (hx : (d.bg n).cur = some x)
    (fin : (d.bg n).prog.fin = true) (code : (d.bg n).prog.code ≠ 0x20) {e g : Dev}
    (h1 : d.intWrite .bs (addrIn (d.bg n).slotAddr + 48) ((d.bg n).prog.words (isByteOp x.op)) = (true, e))
    (h2 : e.intWrite .bs (addrIn (d.bg n).slotAddr) (bytesOf 8 (BitVec.ofNat 64 (x.w0 / 2 * 2))) = (true, g)) :
    d.bgComplete n {} = g.modBg n (BrgCh.completed x) := by
  have k1 : SameBarge d e := by simpa only [h1] using d.intWrite_sameBarge hd .bs (addrIn (d.bg n).slotAddr + 48) ((d.bg n).prog.words (isByteOp x.op))
  have k2 : SameBarge e g := by
    simpa only [h2] using e.intWrite_sameBarge k1.rest .bs (addrIn (d.bg n).slotAddr) (bytesOf 8 (BitVec.ofNat 64 (x.w0 / 2 * 2)))
  have agent := Dev.bgAgent_syust h.owner
  have kept : g.bg n = d.bg n := (k2.bg n).trans (k1.bg n)
  rw [Dev.bgComplete_steps {} hx fin h.noErr h.ringOk, Dev.putRing_internal h.space agent h1]
  dsimp only [Dev.afterPut]
  rw [Dev.putRing_internal h.space ((k1.bgAgent n).trans agent) ((congrArg (fun a => e.intWrite .bs a _) (Nat.add_zero _)).trans h2)]
  dsimp only [Dev.afterPut]
  rw [← kept] at code ⊢
  exact Dev.slotFreed_syust k2.rest ((congrArg BrgCh.owner kept).trans h.owner) code ((congrArg BrgCh.enable kept).trans h.enable)
    ((congrArg BrgCh.stop kept).trans h.stop)

/-- A write that is accepted, with the device it leaves. -/
theorem eq_accepted {w : Bool × Dev} (h : w.1 = true) : w = (true, w.2) := Prod.ext h rfl

/-- Settles O36: the fetch of a descriptor and its three ends, and its completion. -/
theorem descriptorsStartAndComplete : Obligations.DescriptorsStartAndComplete := by
  unfold Obligations.DescriptorsStartAndComplete
  intro s n hrest hb
  dsimp only
  intro owner space slot noErr stop enable
  have h := s.dev.atRest_iff.1 hrest
  have ring : s.dev.SyustRing n := ⟨owner, space, slot, noErr, stop, enable⟩
  refine ⟨?_, ?_⟩
  · intro bs own x run idle more hr hx
    have fetched (page : own = true → s.dev.descOk .syust x = true → isByteOp x.op = false) :
        exec (.bargeDescriptorFetch n {}) s = .next (s.to (s.dev.modBg n (BrgCh.fetched own x (if s.dev.descOk .syust x = true then none else some 0x17)))) := by
      change onBarge s (fun d => d.bgFetch n {}) = _
      exact onBarge_modBg h hb n _ (Dev.bgFetch_owned h ring run idle more hr hx page)
    refine ⟨fun hown => ?_, fun hown ok page => ?_, fun hown bad => ?_⟩
    · subst hown
      exact fetched (fun no => absurd no (by decide))
    · subst hown
      rw [fetched fun _ _ => page, ok]
      rfl
    · subst hown
      rw [fetched fun _ ok => absurd ok (by rw [bad]; decide), bad]
      rfl
  · intro x hx fin code h1 h2
    have kept1 := s.dev.intWrite_sameBarge h .bs (addrIn (s.dev.bg n).slotAddr + 48) ((s.dev.bg n).prog.words (isByteOp x.op))
    have kept2 := Dev.intWrite_sameBarge kept1.rest .bs (addrIn (s.dev.bg n).slotAddr) (bytesOf 8 (BitVec.ofNat 64 (x.w0 / 2 * 2)))
    have done := Dev.bgComplete_internal h ring hx fin code (eq_accepted h1) (eq_accepted h2)
    change onBarge s (fun d => d.bgComplete n {}) = _
    refine (onBarge_ends hb done (kept2.rest.modBg _ _)).trans (congrArg (fun e => Host.Outcome.next (s.to e)) ?_)
    refine Dev.modBg_congr _ _ _ _ ?_
    rw [kept2.bg, kept1.bg]
    rfl

end Sys2Proof.Machine
end

section

/-! The Barge channels stand apart from memory, the page map and the channels of DRAM: what these do commutes with a change of a Barge channel. -/

namespace Sys2Proof.Machine

/-- The device with other Barge channels. -/
def Dev.setBrg (d : Dev) (t : Tbl (Option BrgCh)) : Dev := { d with brg := t }

theorem Dev.modBg_setBrg (d : Dev) (n : Nat) (f : BrgCh → BrgCh) : d.modBg n f = d.setBrg (tput none d.brg n (some (f (d.bg n)))) := rfl

theorem Dev.setBrg_bump (d : Dev) (t : Tbl (Option BrgCh)) (code inst n : Nat) (ld cls : Option Nat) :
    (d.setBrg t).bump code inst n ld cls = (d.bump code inst n ld cls).setBrg t := by
  unfold Dev.bump Dev.setBrg
  dsimp only
  split <;> rfl

theorem Dev.setBrg_activateRow (d : Dev) (t : Tbl (Option BrgCh)) (c : Nat) (r : RowAddr) (cls : Option Nat) :
    (d.setBrg t).activateRow c r cls = (d.activateRow c r cls).setBrg t := by
  unfold Dev.activateRow
  dsimp only
  rw [Dev.setBrg_bump]
  rfl

theorem Dev.setBrg_foldl {β : Type} (f : Dev → β → Dev) (t : Tbl (Option BrgCh)) (hf : ∀ (d : Dev) b, f (d.setBrg t) b = (f d b).setBrg t) (l : List β) (d : Dev) :
    l.foldl f (d.setBrg t) = (l.foldl f d).setBrg t := by
  induction l generalizing d with
  | nil => rfl
  | cons b l ih => rw [List.foldl_cons, List.foldl_cons, hf, ih]

theorem Dev.setBrg_payOwed (d : Dev) (t : Tbl (Option BrgCh)) (c : Nat) : (d.setBrg t).payOwed c = (d.payOwed c).setBrg t := by
  have opens (d : Dev) (r : RowAddr) : ((d.setBrg t).activateRow c r none).modCh c (fun x => { x with openRow := tput none x.openRow r.bank none }) =
      ((d.activateRow c r none).modCh c fun x => { x with openRow := tput none x.openRow r.bank none }).setBrg t := by
    rw [Dev.setBrg_activateRow]
    rfl
  unfold Dev.payOwed
  dsimp only
  refine Eq.trans ?_ (Dev.setBrg_foldl _ t opens _ _)
  rw [← Dev.setBrg_bump]
  rfl

theorem Dev.setBrg_openAt (d : Dev) (t : Tbl (Option BrgCh)) (c off : Nat) (cls : Option Nat) : (d.setBrg t).openAt c off cls = (d.openAt c off cls).setBrg t := by
  have opens (e : Dev) : (if tget none ((e.setBrg t).ch c).openRow ((e.setBrg t).rowOf c off).bank = some ((e.setBrg t).rowOf c off).row then e.setBrg t
      else (e.setBrg t).activateRow c ((e.setBrg t).rowOf c off) cls) =
      (if tget none (e.ch c).openRow (e.rowOf c off).bank = some (e.rowOf c off).row then e else e.activateRow c (e.rowOf c off) cls).setBrg t := by
    rw [Dev.setBrg_activateRow, apply_ite (Dev.setBrg · t)]
    rfl
  unfold Dev.openAt
  dsimp only
  rw [show ((d.setBrg t).ch c).owed = (d.ch c).owed from rfl]
  cases (d.ch c).owed.isEmpty with
  | true => exact opens d
  | false =>
    rw [Dev.setBrg_payOwed]
    exact opens _

theorem Dev.setBrg_wr (d : Dev) (t : Tbl (Option BrgCh)) (c off : Nat) (bs : List Byte) (cls : Option Nat) :
    (d.setBrg t).wr c off bs cls = (d.wr c off bs cls).setBrg t := by
  unfold Dev.wr
  dsimp only
  rw [Dev.setBrg_openAt, Dev.setBrg_bump, Dev.setBrg_bump]
  rfl

theorem Dev.setBrg_rd (d : Dev) (t : Tbl (Option BrgCh)) (c off n : Nat) (cls : Option Nat) :
    (d.setBrg t).rd c off n cls = ((d.rd c off n cls).1, (d.rd c off n cls).2.setBrg t) := by
  unfold Dev.rd
  dsimp only
  rw [Dev.setBrg_openAt, Dev.setBrg_bump, Dev.setBrg_bump]
  rfl

theorem Dev.setBrg_rawWrite (d : Dev) (t : Tbl (Option BrgCh)) (a : Nat) (bs : List Byte) :
    (d.setBrg t).rawWrite a bs = ((d.rawWrite a bs).1, (d.rawWrite a bs).2.setBrg t) := by
  unfold Dev.rawWrite
  split
  · rfl
  · rfl
  · rw [show ∀ o, (d.setBrg t).scratchAt o = d.scratchAt o from fun _ => rfl]
    split <;> rfl
  · rw [show ∀ o, (d.setBrg t).carveAt o = d.carveAt o from fun _ => rfl]
    split
    · rfl
    · rw [Dev.setBrg_wr]

theorem Dev.setBrg_intWrite (d : Dev) (t : Tbl (Option BrgCh)) (ag : Agent) (a : Nat) (bs : List Byte) :
    (d.setBrg t).intWrite ag a bs = ((d.intWrite ag a bs).1, (d.intWrite ag a bs).2.setBrg t) := by
  unfold Dev.intWrite
  rw [show (d.setBrg t).allowed ag a bs.length true = d.allowed ag a bs.length true from rfl, Dev.setBrg_rawWrite]
  cases d.allowed ag a bs.length true <;> rfl

theorem Dev.setBrg_rawRead {d : Dev} (hi : d.noInj = true) (t : Tbl (Option BrgCh)) (a n : Nat) :
    (d.setBrg t).rawRead a n .ok = ((d.rawRead a n .ok).1, (d.rawRead a n .ok).2.setBrg t) := by
  have sound (e : Dev) (he : e.lko = d.lko) (srcs : List Nat) : e.check srcs .ok = (.ok, false, e) := Dev.check_noInj (Dev.noInj_of_lko hi he) _ _
  unfold Dev.rawRead
  split
  · rfl
  · rfl
  · rw [show ∀ o, (d.setBrg t).scratchAt o = d.scratchAt o from fun _ => rfl]
    split
    · rfl
    · rw [sound (d.setBrg t) rfl, sound d rfl]
      rfl
  · rw [show ∀ o, (d.setBrg t).carveAt o = d.carveAt o from fun _ => rfl]
    split
    · rfl
    · next c off _ =>
      have same := (rd_same d c off n none).lko
      simp only [Dev.setBrg_rd]
      rw [sound _ same, sound ((d.rd c off n none).2.setBrg t) same]

theorem Dev.setBrg_intRead {d : Dev} (hi : d.noInj = true) (t : Tbl (Option BrgCh)) (ag : Agent) (a n : Nat) :
    (d.setBrg t).intRead ag a n .ok = ((d.intRead ag a n .ok).1, (d.intRead ag a n .ok).2.setBrg t) := by
  unfold Dev.intRead
  rw [show (d.setBrg t).allowed ag a n false = d.allowed ag a n false from rfl, Dev.setBrg_rawRead hi]
  cases d.allowed ag a n false <;> rfl

theorem Dev.setBrg_retide (d : Dev) (t : Tbl (Option BrgCh)) (c : Nat) : (d.setBrg t).retide c = (d.retide c).setBrg t := by
  have told (e : Dev) (tide : Tide) : (e.setBrg t).tideEvent c tide = (e.tideEvent c tide).setBrg t := by
    unfold Dev.tideEvent
    rw [show (e.setBrg t).fmnBusy = e.fmnBusy from rfl]
    split <;> rfl
  have next : (d.setBrg t).nextTide c = d.nextTide c := rfl
  unfold Dev.retide
  dsimp only
  rw [next, show ((d.setBrg t).chOk c && (d.setBrg t).active) = (d.chOk c && d.active) from rfl, show (d.setBrg t).ch c = d.ch c from rfl]
  split
  · split
    · rfl
    · exact told (d.modCh c fun x => { x with tide := d.nextTide c }) _
  · rfl

theorem Dev.setBrg_setUsed (d : Dev) (t : Tbl (Option BrgCh)) (c frame : Nat) (mask : BitVec 8) (b : Bool) :
    (d.setBrg t).setUsed c frame mask b = (d.setUsed c frame mask b).setBrg t := by
  unfold Dev.setUsed
  dsimp only
  rw [show (d.setBrg t).ch c = d.ch c from rfl]
  split
  · rfl
  · rw [← Dev.setBrg_retide]
    refine congrArg (Dev.retide · c) ?_
    rw [apply_ite (Dev.setBrg · t)]
    rfl

theorem Dev.setBrg_freeStorage (d : Dev) (t : Tbl (Option BrgCh)) (e : PEnt) : (d.setBrg t).freeStorage e = (d.freeStorage e).setBrg t := by
  unfold Dev.freeStorage
  rw [show (d.setBrg t).chOk e.chan = d.chOk e.chan from rfl, Dev.setBrg_setUsed]
  split
  · rfl
  · split <;> rfl

/-! Freeing storage leaves the device at rest. -/

theorem rises_map {α : Type} (f : α → α) (t : Tbl α) : Tbl.rises (t.map fun x => (x.1, f x.2)) = Tbl.rises t := by
  have from_ (lo : Nat) : Tbl.risesFrom lo (t.map fun x => (x.1, f x.2)) = Tbl.risesFrom lo t := by
    induction t generalizing lo with
    | nil => rfl
    | cons x t ih => simp only [List.map_cons, Tbl.risesFrom, ih]
  exact from_ 0

theorem Dev.Rest.tideEvent {d : Dev} (h : d.Rest) (c : Nat) (t : Tide) : (d.tideEvent c t).Rest := by
  unfold Dev.tideEvent
  split
  · exact h.same
  · have told : ((d.evPool .tide [c, t.rank, (d.ch c).free]).tellPilots 1 c).Rest :=
      (h.evPool .tide [c, t.rank, (d.ch c).free] 0).modPlt _ ((rises_map (fun p : Pilot => p.push 1 c) _).trans h.tidy.plt)
    exact told.same

theorem Dev.Rest.modTide {d : Dev} (h : d.Rest) (c : Nat) (t : Tide) : (d.modCh c fun x => { x with tide := t }).Rest := h.modCh c _

theorem Dev.Rest.retide {d : Dev} (h : d.Rest) (c : Nat) : (d.retide c).Rest := by
  have tided (t : Tide) := (h.modTide c t).tideEvent c t
  unfold Dev.retide
  dsimp only
  generalize d.nextTide c = t
  split
  · split
    · exact h
    · exact tided t
  · exact h

theorem Dev.Rest.setUsed {d : Dev} (h : d.Rest) (c frame : Nat) (mask : BitVec 8) (b : Bool) : (d.setUsed c frame mask b).Rest := by
  have marked (a : Tbl (BitVec 8)) : ({ d with pm := { d.pm with alloc := a } } : Dev).Rest := h.same
  unfold Dev.setUsed
  dsimp only
  generalize d.used c frame = old
  generalize (if b = true then old ||| mask else old &&& ~~~mask) = new
  generalize tput 0#8 d.pm.alloc (c * 2 ^ 28 + frame) new = alloc
  split
  · exact h
  · refine Dev.Rest.retide ?_ c
    split
    · exact (marked alloc).modCh c fun x => { x with free := x.free + popcount old - popcount new }
    · exact marked _

theorem Dev.Rest.freeStorage {d : Dev} (h : d.Rest) (e : PEnt) : (d.freeStorage e).Rest := by
  unfold Dev.freeStorage
  split
  · exact h
  · split
    · exact h.setUsed _ _ _ _
    · exact h

end Sys2Proof.Machine
end

section

/-! O37: one line of a COPY or FILL, one page of a ZERO, and the lines of a dictionary operation (R328, R333, R337, R351). -/

namespace Sys2Proof.Machine

/-! Lines and their bytes. -/

theorem natOfBytes_lt (bs : List Byte) : natOfBytes bs < 256 ^ bs.length := by
  induction bs with
  | nil => decide
  | cons b bs ih =>
    have := b.isLt
    rw [natOfBytes, List.length_cons, Nat.pow_succ]
    omega

theorem natOfBytes_inj : ∀ {as bs : List Byte}, as.length = bs.length → natOfBytes as = natOfBytes bs → as = bs
  | [], [], _, _ => rfl
  | a :: as, b :: bs, hl, h => by
    have ha := a.isLt
    have hb := b.isLt
    simp only [natOfBytes] at h
    have head : a = b := BitVec.eq_of_toNat_eq (by omega)
    have tail : as = bs := natOfBytes_inj (Nat.succ.inj hl) (by omega)
    rw [head, tail]

theorem natOfBytes_range (n v : Nat) : natOfBytes ((List.range n).map fun i => BitVec.ofNat 8 (v / 256 ^ i)) = v % 256 ^ n := by
  induction n generalizing v with
  | zero => simp [natOfBytes, Nat.mod_one]
  | succ n ih =>
    have shift : ((fun i => BitVec.ofNat 8 (v / 256 ^ i)) ∘ Nat.succ) = fun i => BitVec.ofNat 8 (v / 256 / 256 ^ i) := by
      funext i
      simp [Nat.pow_succ', Nat.div_div_eq_div_mul]
    have low : v % 256 ^ (n + 1) = v % 256 + 256 * (v / 256 % 256 ^ n) := by rw [Nat.pow_succ', Nat.mod_mul]
    rw [List.range_succ_eq_map, List.map_cons, List.map_map, shift, natOfBytes, ih, BitVec.toNat_ofNat, Nat.pow_zero, Nat.div_one]
    exact low.symm

theorem natOfBytes_bytesOf {w : Nat} (n : Nat) (v : BitVec w) : natOfBytes (bytesOf n v) = v.toNat % 256 ^ n := by
  rw [← natOfBytes_range]
  refine congrArg natOfBytes (List.map_congr_left fun i _ => ?_)
  rw [show (256 : Nat) = 2 ^ 8 from rfl, ← Nat.pow_mul, ← Nat.shiftRight_eq_div_pow]
  rfl

theorem pow_bytes (n : Nat) : 256 ^ n = 2 ^ (8 * n) := (Nat.pow_mul 2 8 n).symm

theorem ofBytes_bytesOf {n : Nat} (v : BitVec (8 * n)) : ofBytes (8 * n) (bytesOf n v) = v := by
  refine BitVec.eq_of_toNat_eq ?_
  rw [ofBytes, natOfBytes_bytesOf, BitVec.toNat_ofNat, pow_bytes, Nat.mod_mod, Nat.mod_eq_of_lt v.isLt]

theorem bytesOf_ofBytes {n : Nat} {bs : List Byte} (h : bs.length = n) : bytesOf n (ofBytes (8 * n) bs) = bs := by
  have lt : natOfBytes bs < 2 ^ (8 * n) := by
    rw [← pow_bytes, ← h]
    exact natOfBytes_lt bs
  refine natOfBytes_inj (by simp [bytesOf, h]) ?_
  rw [natOfBytes_bytesOf, ofBytes, BitVec.toNat_ofNat, pow_bytes, Nat.mod_mod, Nat.mod_eq_of_lt lt]

/-- A line is 64 bytes. -/
theorem Line.of_bytes (l : Line) : ofBytes 512 (bytesOf 64 l) = l := ofBytes_bytesOf (n := 64) l

theorem Line.bytes_of {bs : List Byte} (h : bs.length = 64) : bytesOf 64 (ofBytes 512 bs) = bs := bytesOf_ofBytes h

theorem length_bytesOf {w : Nat} (n : Nat) (v : BitVec w) : (bytesOf n v).length = n := by simp [bytesOf]

/-! A step of a byte operation. -/

/-- R322: the operation runs. -/
def BrgCh.begun (b : BrgCh) : BrgCh := { b with st := .running, prog := { b.prog with begun := true } }

/-- A channel of Syust that gets on with a descriptor (R322, R326). -/
structure Dev.Working (d : Dev) (n : Nat) (x : Desc) : Prop where
  owner : (d.bg n).owner = .syust
  cur : (d.bg n).cur = some x
  fin : (d.bg n).prog.fin = false
  err : (d.bg n).prog.err = none
  first : d.outranked n = false

theorem Dev.stageCheck_sound {d : Dev} (hi : d.noInj = true) (n : Nat) (f : BrgCh → BrgCh) (run : Dev → Dev) :
    (d.modBg n f).stageCheck n {} run = run (d.modBg n f) := by
  unfold Dev.stageCheck
  rw [Dev.check_noInj (Dev.noInj_of_lko (e := d.modBg n f) hi rfl)]

theorem Dev.byteOp_begins {d : Dev} (h : d.Rest) (hi : d.noInj = true) {n : Nat} {x : Desc} (hw : d.Working n x) (lines : Nat) :
    d.byteOp n x.op lines {} = (d.modBg n BrgCh.begun).byteRun n x {} lines := by
  unfold Dev.byteOp Dev.bgProgress
  dsimp only
  rw [hw.cur]
  dsimp only
  rw [hw.fin, hw.err, hw.first]
  simp only [decide_true, Bool.not_true, Option.isSome_none, Bool.or_self, Bool.false_eq_true, if_false]
  rw [Dev.modBg_modBg h, Dev.stageCheck_sound hi]
  rfl

theorem Dev.dictOp_begins {d : Dev} (h : d.Rest) (hi : d.noInj = true) {n : Nat} {x : Desc} (hw : d.Working n x)
    (free : (d.bg n).prog.begun = true ∨ d.dictBusy n < 2) (lines : Nat) :
    d.dictOp n x.op lines {} = (d.modBg n BrgCh.begun).byteRun n x {} lines := by
  have busy : (d.modBg n fun b => { b with st := .running }).dictBusy n = d.dictBusy n := by
    unfold Dev.dictBusy
    refine congrArg List.length (List.filter_congr fun k _ => ?_)
    by_cases hk : k = n
    · simp [hk]
    · rw [Dev.bg_modBg h, if_neg hk]
  have waits : (!(d.bg n).prog.begun && decide (2 ≤ d.dictBusy n)) = false := by
    rcases free with begun | few
    · rw [begun]
      rfl
    · rw [decide_eq_false (Nat.not_le.2 few), Bool.and_false]
  unfold Dev.dictOp Dev.bgProgress
  dsimp only
  rw [hw.cur]
  dsimp only
  rw [hw.fin, hw.err, hw.first, busy, Dev.bg_modBg h, if_pos rfl, waits]
  simp only [decide_true, Bool.not_true, Option.isSome_none, Bool.or_self, Bool.false_eq_true, if_false]
  rw [Dev.modBg_modBg h, Dev.stageCheck_sound hi]
  rfl

theorem Dev.byteRun_one (d : Dev) (n : Nat) (x : Desc) (ph : Phys) :
    d.byteRun n x ph 1 = if x.op = 0xA ∨ x.op = 0xB then (d.dictLine n x ph).2 else (d.byteLine n x ph).2 := by
  unfold Dev.byteRun
  dsimp only [Dev.byteRun]
  split <;> simp

/-! Accesses of the internal map by a channel of Syust. -/

theorem Dev.driver_modBg {d : Dev} (h : d.Rest) {n : Nat} {f : BrgCh → BrgCh} (hf : (f (d.bg n)).owner = .syust) : (d.modBg n f).driver n = .syust :=
  Dev.driver_syust (by rw [Dev.bg_modBg h, if_pos rfl]; exact hf)

theorem Dev.srcLine_modBg {d : Dev} (h : d.Rest) (hi : d.noInj = true) {n : Nat} {f : BrgCh → BrgCh} (hf : (f (d.bg n)).owner = .syust) {a : Nat} {l : Line}
    (hs : spaceOf a = 1) (hr : d.intRead .bs (addrIn a) 64 .ok = (some (bytesOf 64 l, false), d)) :
    (d.modBg n f).srcLine n a {} = (.ok l false, d.modBg n f) := by
  have owner : ((d.modBg n f).bg n).owner = .syust := by rw [Dev.bg_modBg h, if_pos rfl]; exact hf
  have read : (d.modBg n f).intRead .bs (addrIn a) 64 .ok = (some (bytesOf 64 l, false), d.modBg n f) := by
    rw [Dev.modBg_setBrg, Dev.setBrg_intRead hi, hr]
  rw [Dev.srcLine_internal owner hs read, Line.of_bytes]

/-- A whole line goes to the internal map. -/
theorem Dev.dstLine_modBg {d : Dev} (h : d.Rest) {n : Nat} {f : BrgCh → BrgCh} (hf : (f (d.bg n)).owner = .syust) {a : Nat} {bs : List Byte}
    (hs : spaceOf a = 1) (hl : bs.length = 64) (hw : (d.intWrite .bs (addrIn a) bs).1 = true) :
    (d.modBg n f).dstLine n a 0 64 (ofBytes 512 bs) false {} = (.ok (ofBytes 512 bs) false, (d.intWrite .bs (addrIn a) bs).2.modBg n f) := by
  have owner : ((d.modBg n f).bg n).owner = .syust := by rw [Dev.bg_modBg h, if_pos rfl]; exact hf
  have kept := d.intWrite_sameBarge h .bs (addrIn a) bs
  have put : (d.modBg n f).intWrite .bs (addrIn a) bs = (true, (d.intWrite .bs (addrIn a) bs).2.modBg n f) := by
    rw [Dev.modBg_setBrg, Dev.setBrg_intWrite, hw, Dev.modBg_setBrg, kept.bg, kept.brg]
  have bytes : (List.drop 0 (bytesOf 64 (ofBytes 512 bs))).take (64 - 0) = bs := by
    rw [List.drop_zero, Line.bytes_of hl]
    exact List.take_of_length_le (Nat.le_of_eq hl)
  unfold Dev.dstLine
  rw [hs]
  dsimp only
  rw [if_neg Bool.false_ne_true, bytes, Dev.bgAgent_syust owner, Nat.add_zero, put]
  rfl

/-! One line of each operation. -/

theorem lineCount_aligned {a : Nat} (h : a % 64 = 0) : lineCount a 64 = 1 := by
  unfold lineCount
  omega

/-- A line that is written. -/
theorem Dev.wrote_modBg {d : Dev} (h : d.Rest) (n : Nat) (f : BrgCh → BrgCh) (lines bytes : Nat) :
    (d.modBg n f).wrote n lines bytes =
      d.modBg n fun b => { f b with prog := { (f b).prog with pos := (f b).prog.pos + lines, done := (f b).prog.done + bytes } } :=
  Dev.modBg_modBg h n f _

/-- R337: one line of FILL. -/
theorem Dev.byteLine_fill {d : Dev} (h : d.Rest) {n : Nat} {x : Desc} {f : BrgCh → BrgCh} (hf : (f (d.bg n)).owner = .syust) (hp : (f (d.bg n)).prog.pos = 0)
    (ho : x.op = 3) (hl : x.len = 64) (hs : spaceOf x.src = 1) (ha : x.src % 64 = 0) (hw : (d.intWrite .bs (addrIn x.src) (fillBytes x x.src 64)).1 = true) :
    ((d.modBg n f).byteLine n x {}).2 = ((d.intWrite .bs (addrIn x.src) (fillBytes x x.src 64)).2.modBg n f).wrote n 1 64 := by
  have bg : (d.modBg n f).bg n = f (d.bg n) := by rw [Dev.bg_modBg h, if_pos rfl]
  have target : x.target = x.src := by rw [Desc.target, if_pos (.inr ho)]
  have down : x.down = false := by rw [Desc.down, ho]; rfl
  have line : x.src / 64 * 64 = x.src := Nat.div_mul_cancel (Nat.dvd_of_mod_eq_zero ha)
  have length : (fillBytes x x.src 64).length = 64 := by simp [fillBytes]
  have put := Dev.dstLine_modBg h hf hs length hw
  simp only [Dev.byteLine, bg, target, down, hl, hp, ho, lineCount_aligned ha, Bool.false_eq_true, if_false, Nat.add_zero, line, Nat.max_self, Nat.min_self,
    Nat.add_sub_cancel_left, Nat.sub_self, List.replicate_zero, List.nil_append, put, false_and, Nat.reduceEqDiff, Nat.reduceLeDiff]

/-- What a staged source line adds to the buffer (R323). -/
def BrgCh.staged (k : Nat) (l : Line) (b : BrgCh) : BrgCh := { b with prog := { b.prog with buf := b.prog.buf ++ [(k, l, false)] } }

/-- R323: the one source line of a COPY is staged. -/
theorem Dev.stage_one {d : Dev} (h : d.Rest) (hi : d.noInj = true) {n : Nat} {x : Desc} {f : BrgCh → BrgCh} (hf : (f (d.bg n)).owner = .syust)
    (hb : (f (d.bg n)).prog.buf = []) (hl : x.len = 64) (hdown : x.down = false) {l : Line} (hs : spaceOf x.src = 1) (ha : x.src % 64 = 0)
    (hr : d.intRead .bs (addrIn x.src) 64 .ok = (some (bytesOf 64 l, false), d)) :
    (d.modBg n f).stage n x {} 64 (x.src / 64) = (none, d.modBg n fun b => (f b).staged (x.src / 64) l) := by
  have bg : (d.modBg n f).bg n = f (d.bg n) := by rw [Dev.bg_modBg h, if_pos rfl]
  have line : x.src / 64 * 64 = x.src := Nat.div_mul_cancel (Nat.dvd_of_mod_eq_zero ha)
  have last : (x.src + 64 - 1) / 64 = x.src / 64 := by omega
  have read := Dev.srcLine_modBg h hi hf hs hr
  have here : ¬(x.src / 64 < x.src / 64 ∨ x.src / 64 < x.src / 64 ∨ 64 ≤ 0) := by omega
  have past : x.src / 64 + 1 < x.src / 64 ∨ x.src / 64 < x.src / 64 + 1 ∨ 64 ≤ 1 := by omega
  rw [Dev.stage]
  simp only [hl, last, bg, hb, List.length_nil, here, if_false, line, read, hdown, Bool.false_eq_true]
  rw [Dev.modBg_modBg h, Dev.stage]
  simp only [hl, last, Dev.bg_modBg h, if_true, hb, List.nil_append, List.length_singleton, past]
  refine congrArg (Prod.mk none) (Dev.modBg_congr _ _ _ _ ?_)
  rw [BrgCh.staged, hb]

/-- What one line of COPY leaves of its channel. -/
def BrgCh.copied (k : Nat) (l : Line) (b : BrgCh) : BrgCh :=
  { b with prog := { b.prog with buf := [(k, l, false)], pos := b.prog.pos + 1, done := b.prog.done + 64 } }

/-- R328, R333: one line of COPY. -/
theorem Dev.byteLine_copy {d : Dev} (h : d.Rest) (hi : d.noInj = true) {n : Nat} {x : Desc} {f : BrgCh → BrgCh} (hf : (f (d.bg n)).owner = .syust)
    (hp : (f (d.bg n)).prog = { begun := true }) (ho : x.op = 1) (hl : x.len = 64) (hdown : x.down = false) {l : Line} (hs : spaceOf x.src = 1)
    (ha : x.src % 64 = 0) (hr : d.intRead .bs (addrIn x.src) 64 .ok = (some (bytesOf 64 l, false), d)) (hsd : spaceOf x.dst = 1) (had : x.dst % 64 = 0)
    (hw : (d.intWrite .bs (addrIn x.dst) (bytesOf 64 l)).1 = true) :
    ((d.modBg n f).byteLine n x {}).2 = (d.intWrite .bs (addrIn x.dst) (bytesOf 64 l)).2.modBg n fun b => (f b).copied (x.src / 64) l := by
  have bg : (d.modBg n f).bg n = f (d.bg n) := by rw [Dev.bg_modBg h, if_pos rfl]
  have target : x.target = x.dst := by rw [Desc.target, if_neg (by omega)]
  have line : x.dst / 64 * 64 = x.dst := Nat.div_mul_cancel (Nat.dvd_of_mod_eq_zero had)
  have high : (x.dst + 64 - 1 - x.dst + x.src) / 64 = x.src / 64 := by omega
  have start : x.src - x.src / 64 * 64 = 0 := by omega
  have whole : List.take 64 (bytesOf 64 l) = bytesOf 64 l := List.take_of_length_le (Nat.le_of_eq (length_bytesOf 64 l))
  have stage := Dev.stage_one h hi hf (by rw [hp]) hl hdown hs ha hr
  have put := Dev.dstLine_modBg h (f := fun b => (f b).staged (x.src / 64) l) hf hsd (length_bytesOf 64 l) hw
  have empty : ({ begun := true } : BProg).gathered (x.src / 64) (x.src / 64) = none := rfl
  have got : ((f (d.bg n)).staged (x.src / 64) l).prog.gathered (x.src / 64) (x.src / 64) = some (bytesOf 64 l, none) := by
    rw [BrgCh.staged, hp]
    simp [BProg.gathered, BProg.staged]
  simp only [Dev.byteLine, bg, target, hdown, hl, hp, ho, lineCount_aligned had, Bool.false_eq_true, if_false, Nat.add_zero, line, Nat.max_self, Nat.min_self,
    Nat.zero_add, high, start, empty, Option.isSome_none, ite_self, stage, Dev.bg_modBg h, if_true, got, List.drop_zero, whole,
    Nat.add_sub_cancel_left, Nat.sub_self, List.replicate_zero, List.nil_append, put, false_and, Nat.reduceEqDiff, Nat.reduceLeDiff]
  have kept := d.intWrite_sameBarge h .bs (addrIn x.dst) (bytesOf 64 l)
  rw [Dev.wrote_modBg kept.rest, Dev.modBg_modBg kept.rest]
  refine Dev.modBg_congr _ _ _ _ ?_
  simp [kept.bg, BrgCh.staged, BrgCh.copied, hp]

/-! ZERO of a page stored whole (R337). -/

theorem Dev.brg_of_setBrg {g : Dev → Dev} {d : Dev} (hg : ∀ t, g (d.setBrg t) = (g d).setBrg t) : (g d).brg = d.brg := by
  have same := hg d.brg
  rw [show d.setBrg d.brg = d from rfl] at same
  rw [same]
  rfl

/-- What does not look at the Barge channels keeps them. -/
theorem Dev.bg_of_setBrg {g : Dev → Dev} {d : Dev} (hg : ∀ t, g (d.setBrg t) = (g d).setBrg t) (n : Nat) : (g d).bg n = d.bg n := by
  rw [Dev.bg, Dev.brg_of_setBrg hg]
  rfl

/-- What does not look at the Barge channels commutes with a change of one. -/
theorem Dev.modBg_of_setBrg {g : Dev → Dev} {d : Dev} (hg : ∀ t, g (d.setBrg t) = (g d).setBrg t) (n : Nat) (f : BrgCh → BrgCh) :
    g (d.modBg n f) = (g d).modBg n f := by
  rw [Dev.modBg_setBrg, hg, Dev.modBg_setBrg, Dev.bg_of_setBrg hg, Dev.brg_of_setBrg hg]

/-- A page becomes form Z and its storage free (R337). -/
def Dev.pageFreed (d : Dev) (page : Nat) (e : PEnt) : Dev := (d.setEnt page (e.toZ 0#16)).freeStorage e

theorem Dev.setBrg_pageFreed (d : Dev) (page : Nat) (e : PEnt) (t : Tbl (Option BrgCh)) : (d.setBrg t).pageFreed page e = (d.pageFreed page e).setBrg t :=
  Dev.setBrg_freeStorage (d.setEnt page (e.toZ 0#16)) t e

theorem Dev.Rest.pageFreed {d : Dev} (h : d.Rest) (page : Nat) (e : PEnt) : (d.pageFreed page e).Rest := (h.setEnt _ _).freeStorage _

theorem Dev.fent_none {d : Dev} {sl : Nat} (h : (d.ms sl).filt = {}) (sector : Nat) : d.fent sl sector = none := by
  have here : d.filtAt sl = sl := by rw [Dev.filtAt, h]; rfl
  rw [Dev.fent, here, h]
  rfl

theorem Dev.heldIn_none {d : Dev} {sl : Nat} (h : (d.ms sl).filt = {}) (page : Nat) : d.heldIn sl page = [] := by
  unfold Dev.heldIn
  simp only [Dev.fent_none h]
  exact List.filterMap_eq_nil_iff.2 fun _ _ => rfl

/-- A change that leaves a slice as it was leaves the device, when that slice is listed, not the default. -/
theorem Dev.modMs_of_fixed {d : Dev} (h : d.Rest) {sl : Nat} {f : Slice → Slice} (hf : f (d.ms sl) = d.ms sl) (hne : d.ms sl ≠ {}) : d.modMs sl f = d := by
  have slc : tmod {} d.slc sl f = d.slc := by
    rw [tmod, show tget {} d.slc sl = d.ms sl from rfl, hf]
    exact tput_tget_from ({} : Slice) d.slc sl h.tidy.slc hne
  rw [Dev.modMs, slc]

/-- Nothing of a page waits at its slice and no line of it is held (R337). -/
structure Dev.PageQuiet (d : Dev) (sl page : Nat) : Prop where
  misses : (d.ms sl).misses = []
  filt : (d.ms sl).filt = {}
  held : (d.ms sl).held = []
  qbuf : (d.ms sl).wharf.qbuf = []
  lines : ((d.ms sl).wharf.lines.all fun k => decide (k.2.addr / 64 ≠ page)) = true

/-- What a page that becomes form Z drops of its slice. -/
def Slice.pageDropped (page : Nat) (s : Slice) : Slice :=
  { s with held := s.held.filter fun h => !decide (h.page = page)
           misses := s.misses.map fun m => if decide (m.quad / 16 = page) then { m with doomed := true } else m
           wharf := { s.wharf with qbuf := s.wharf.qbuf.filter fun b => !decide (b.quad / 16 = page) } }

theorem Slice.pageDropped_quiet {s : Slice} (page : Nat) (hm : s.misses = []) (hh : s.held = []) (hq : s.wharf.qbuf = []) : s.pageDropped page = s := by
  have same : s.pageDropped page = { s with held := s.held, misses := s.misses, wharf := { s.wharf with qbuf := s.wharf.qbuf } } := by
    rw [Slice.pageDropped, hm, hh, hq]
    rfl
  exact same

theorem Dev.zeroPage_plain {d : Dev} (h : d.Rest) (hi : d.noInj = true) {sl page cls : Nat} (hsl : d.homeOf page = sl) (hp : d.plainP sl page = true)
    (hq : d.PageQuiet sl page) (hpin : (d.ent page).pin = false) :
    d.zeroPage page cls {} = (.ok 0#512 false, d.pageFreed page (d.ent page)) := by
  obtain ⟨misses, filt, held, qbuf, lines⟩ := hq
  have found := pmLookup_hit hi hp (some cls)
  have pin : (d.entNow sl page).pin = false := by
    unfold Dev.entNow
    split <;> exact hpin
  have listed : d.ms sl ≠ {} := by
    intro none
    simp [Dev.plainP, none, Slice.pmcFind] at hp
  have plain : (d.ent page).sld = false := by
    simp only [Dev.plainP, Bool.and_eq_true, Bool.not_eq_true'] at hp
    exact hp.1.1.2
  have noLines : (d.ms sl).wharf.lines.filter (fun x => decide (x.2.st ≠ .invalid) && decide (x.2.addr / 64 = page)) = [] := by
    refine List.filter_eq_nil_iff.2 fun x hx => ?_
    have := List.all_eq_true.1 lines x hx
    simp_all
  unfold Dev.zeroPage
  simp only [hsl, (h.slice sl).1, misses, filt, List.any_nil, Bool.or_self, Bool.false_eq_true, if_false, Dev.heldIn_none filt, List.isEmpty_nil,
    Bool.not_true, found, pin, noLines, List.foldl_nil]
  have steady : d.modMs sl (Slice.pageDropped page) = d := Dev.modMs_of_fixed h (Slice.pageDropped_quiet page misses held qbuf) listed
  unfold Slice.pageDropped at steady
  rw [steady, foldl_keep _ d _ fun i _ => by rw [Dev.fent_none filt], plain]
  rfl

theorem Dev.byteLine_zero {d : Dev} (h : d.Rest) (hi : d.noInj = true) {n : Nat} {x : Desc} {f : BrgCh → BrgCh} (hf : (f (d.bg n)).owner = .syust)
    (hp : (f (d.bg n)).prog.pos = 0) (ho : x.op = 2) (hl : x.len = 4096) (hs : spaceOf x.src = 0) (ha : x.src % 4096 = 0)
    (hplain : d.plainP (d.homeOf (x.src / 4096)) (x.src / 4096) = true) (hctx : d.ctxAllows .syust (x.src / 4096) true = true)
    (hpin : (d.ent (x.src / 4096)).pin = false) (hq : d.PageQuiet (d.homeOf (x.src / 4096)) (x.src / 4096)) :
    ((d.modBg n f).byteLine n x {}).2 =
      ((d.pageFreed (x.src / 4096) (d.ent (x.src / 4096))).modBg n f).wrote n 64 4096 := by
  obtain ⟨page, hpage⟩ : ∃ page, page = x.src / 4096 := ⟨_, rfl⟩
  rw [← hpage] at hplain hctx hpin hq ⊢
  have bg : (d.modBg n f).bg n = f (d.bg n) := by rw [Dev.bg_modBg h, if_pos rfl]
  have target : x.target = x.src := by rw [Desc.target, if_pos (.inl ho)]
  have down : x.down = false := by rw [Desc.down, ho]; rfl
  have lines : lineCount x.src 4096 = 64 := by
    unfold lineCount
    omega
  have line : x.src / 64 * 64 = x.src := by omega
  have zeroed (cls : Nat) := Dev.zeroPage_plain (cls := cls) (h.modBg n f) (Dev.noInj_of_lko (e := d.modBg n f) hi rfl) rfl hplain
    ⟨hq.misses, hq.filt, hq.held, hq.qbuf, hq.lines⟩ hpin
  have allowed : (d.modBg n f).ctxAllows ((d.modBg n f).driver n) page true = true := by
    rw [Dev.driver_modBg h hf]
    exact hctx
  have apart : (d.modBg n f).pageFreed page (d.ent page) = (d.pageFreed page (d.ent page)).modBg n f :=
    Dev.modBg_of_setBrg (g := fun d' => d'.pageFreed page (d.ent page)) (d.setBrg_pageFreed page _) n f
  unfold Dev.byteLine
  simp only [bg, target, down, hl, hp, ho, lines, Bool.false_eq_true, if_false, Nat.add_zero, line, ← hpage]
  rw [if_neg (by decide), if_pos ⟨trivial, hs, ha, le_rfl, le_rfl⟩, if_neg (by rw [allowed]; decide), zeroed]
  exact congrArg (Dev.wrote · n 64 4096) apart

/-! The lines of a dictionary operation (R351). -/

/-- What one input line of a dictionary operation leaves of its channel. -/
def BrgCh.taken (k : Nat) (l : Line) (b : BrgCh) : BrgCh :=
  { b with prog := { b.prog with buf := b.prog.buf ++ [(k, l, false)], pos := b.prog.pos + 1 } }

theorem Dev.dictLine_input {d : Dev} (h : d.Rest) (hi : d.noInj = true) {n : Nat} {x : Desc} {f : BrgCh → BrgCh} (hf : (f (d.bg n)).owner = .syust)
    (hout : (f (d.bg n)).prog.out = none) (hp : (f (d.bg n)).prog.pos = 0) (hl : x.len = 64) {l : Line} (hs : spaceOf x.src = 1) (ha : x.src % 64 = 0)
    (hr : d.intRead .bs (addrIn x.src) 64 .ok = (some (bytesOf 64 l, false), d)) :
    ((d.modBg n f).dictLine n x {}).2 = d.modBg n fun b => (f b).taken (x.src / 64) l := by
  have bg : (d.modBg n f).bg n = f (d.bg n) := by rw [Dev.bg_modBg h, if_pos rfl]
  have line : x.src / 64 * 64 = x.src := Nat.div_mul_cancel (Nat.dvd_of_mod_eq_zero ha)
  have read := Dev.srcLine_modBg h hi hf hs hr
  simp only [Dev.dictLine, bg, hout, hl, hp, lineCount_aligned ha, Nat.add_zero, line, read, Nat.reduceLeDiff, if_false]
  exact Dev.modBg_modBg h n _ _

/-- What the encoder or decoder of a dictionary operation gives for its input. -/
def Desc.dictOut (x : Desc) (bs : List Byte) : List Byte × Nat := if x.op = 0xA then dictUnpack bs x.arg else dictPack bs x.dcrc x.arg

/-- What the coder leaves of its channel. -/
def BrgCh.coded (r : List Byte × Nat) (b : BrgCh) : BrgCh := { b with prog := { b.prog with out := some r.1, derr := r.2, pos := 0 } }

theorem Dev.dictLine_code {d : Dev} (h : d.Rest) (hi : d.noInj = true) {n : Nat} {x : Desc} {f : BrgCh → BrgCh} {l : Line}
    (hout : (f (d.bg n)).prog.out = none) (hp : (f (d.bg n)).prog.pos = 1) (hb : (f (d.bg n)).prog.buf = [(x.src / 64, l, false)])
    (hl : x.len = 64) (ha : x.src % 64 = 0) :
    ((d.modBg n f).dictLine n x {}).2 = d.modBg n fun b => (f b).coded (x.dictOut (bytesOf 64 l)) := by
  have bg : (d.modBg n f).bg n = f (d.bg n) := by rw [Dev.bg_modBg h, if_pos rfl]
  have whole : List.take 64 (bytesOf 64 l) = bytesOf 64 l := List.take_of_length_le (Nat.le_of_eq (length_bytesOf 64 l))
  have sound (srcs : List Nat) (c : Chk) : (d.modBg n f).check srcs c = (c, false, d.modBg n f) :=
    Dev.check_noInj (Dev.noInj_of_lko (e := d.modBg n f) hi rfl) _ _
  have run : (d.modBg n f).dictRun n x {} = d.modBg n fun b => (f b).coded (x.dictOut (bytesOf 64 l)) := by
    simp only [Dev.dictRun, bg, hb, List.flatMap_singleton, ha, List.drop_zero, hl, whole, sound, Bool.false_eq_true, if_false, List.find?_singleton,
      Option.map_none, if_true]
    rw [Dev.modBg_modBg h]
    refine Dev.modBg_congr _ _ _ _ ?_
    rw [BrgCh.coded, Desc.dictOut, ← hb]
  simp only [Dev.dictLine, bg, hout, hl, hp, lineCount_aligned ha, le_refl, if_true, run]

theorem Dev.dictLine_output {d : Dev} (h : d.Rest) {n : Nat} {x : Desc} {f : BrgCh → BrgCh} (hf : (f (d.bg n)).owner = .syust) {out : List Byte}
    (hout : (f (d.bg n)).prog.out = some out) (hp : (f (d.bg n)).prog.pos = 0) (hc : (f (d.bg n)).prog.code ≠ 1) (hl : out.length = 64)
    (hs : spaceOf x.dst = 1) (ha : x.dst % 64 = 0) (hw : (d.intWrite .bs (addrIn x.dst) out).1 = true) :
    ((d.modBg n f).dictLine n x {}).2 = ((d.intWrite .bs (addrIn x.dst) out).2.modBg n f).wrote n 1 64 := by
  have bg : (d.modBg n f).bg n = f (d.bg n) := by rw [Dev.bg_modBg h, if_pos rfl]
  have line : x.dst / 64 * 64 = x.dst := Nat.div_mul_cancel (Nat.dvd_of_mod_eq_zero ha)
  have some_ : out.isEmpty = false := by
    cases out with
    | nil => cases hl
    | cons => rfl
  have whole : List.take 64 out = out := List.take_of_length_le (Nat.le_of_eq hl)
  have put := Dev.dstLine_modBg h hf hs hl hw
  simp only [Dev.dictLine, bg, hout, hp, some_, Bool.false_eq_true, if_false, hl, lineCount_aligned ha, Nat.add_zero, line, Nat.max_self, Nat.min_self,
    Nat.sub_self, List.drop_zero, Nat.add_sub_cancel_left, whole, List.replicate_zero, List.nil_append, hc, decide_false, put, Nat.reduceLeDiff]

theorem BrgCh.begun_running {b : BrgCh} (hs : b.st = .running) : b.begun = { b with prog := { b.prog with begun := true } } := by
  rw [BrgCh.begun, ← hs]

theorem BrgCh.begun_again {b : BrgCh} (hs : b.st = .running) (hb : b.prog.begun = true) : b.begun = b := by
  rw [BrgCh.begun_running hs, ← hb]

/-- Settles O37: each clause is one line of its operation. -/
theorem byteOperationsWriteTheirData : Obligations.ByteOperationsWriteTheirData := by
  unfold Obligations.ByteOperationsWriteTheirData
  intro s n x hrest hon hi
  dsimp only
  intro owner run cur first
  have h := s.dev.atRest_iff.1 hrest
  have work (fin : (s.dev.bg n).prog.fin = false) (err : (s.dev.bg n).prog.err = none) : s.dev.Working n x := ⟨owner, cur, fin, err, first⟩
  have starts (hp : (s.dev.bg n).prog = {}) : s.dev.Working n x := work (by rw [hp]) (by rw [hp])
  have written (a : Nat) (bs : List Byte) := s.dev.intWrite_sameBarge h .bs a bs
  have bytes (hp : (s.dev.bg n).prog = {}) (ho : x.op ≠ 0xA ∧ x.op ≠ 0xB) :
      s.dev.byteOp n x.op 1 {} = ((s.dev.modBg n BrgCh.begun).byteLine n x {}).2 := by
    rw [Dev.byteOp_begins h hi (starts hp), Dev.byteRun_one, if_neg (not_or.2 ho)]
  refine ⟨?_, ?_, ?_, ?_⟩
  · rintro l ho hl hp hdown ⟨hs, ha, hr⟩ hsd had hw
    have step := bytes hp (by omega)
    rw [Dev.byteLine_copy h hi owner (by rw [BrgCh.begun, hp]) ho hl hdown hs ha hr hsd had hw, ho] at step
    change onBarge s (fun d => d.byteOp n 1 1 {}) = _
    refine (onBarge_ends hon step ((written _ _).rest.modBg _ _)).trans (congrArg (fun e => Host.Outcome.next (s.to e)) (Dev.modBg_congr _ _ _ _ ?_))
    rw [(written _ _).bg, BrgCh.begun_running run, BrgCh.copied, hp]
  · intro ho hl hp hs ha hw
    have step := bytes hp (by omega)
    rw [Dev.byteLine_fill h owner (by rw [BrgCh.begun, hp]) ho hl hs ha hw, Dev.wrote_modBg (written _ _).rest, ho] at step
    change onBarge s (fun d => d.byteOp n 3 1 {}) = _
    refine (onBarge_ends hon step ((written _ _).rest.modBg _ _)).trans (congrArg (fun e => Host.Outcome.next (s.to e)) (Dev.modBg_congr _ _ _ _ ?_))
    rw [(written _ _).bg, BrgCh.begun_running run, hp]
  · intro ho hl hp hs ha hplain hctx hpin misses filt held qbuf lines
    have zeroed := h.pageFreed (x.src / 4096) (s.dev.ent (x.src / 4096))
    have step := bytes hp (by omega)
    rw [Dev.byteLine_zero h hi owner (by rw [BrgCh.begun, hp]) ho hl hs ha hplain hctx hpin ⟨misses, filt, held, qbuf, lines⟩, Dev.wrote_modBg zeroed, ho] at step
    change onBarge s (fun d => d.byteOp n 2 1 {}) = _
    refine (onBarge_ends hon step (zeroed.modBg _ _)).trans (congrArg (fun e => Host.Outcome.next (s.to e)) (Dev.modBg_congr _ _ _ _ ?_))
    have kept := Dev.bg_of_setBrg (g := fun d => d.pageFreed (x.src / 4096) (s.dev.ent (x.src / 4096))) (s.dev.setBrg_pageFreed (x.src / 4096) _) n
    rw [kept, BrgCh.begun_running run, hp]
  · intro hop
    have go (k : Nat) : exec (if x.op = 0xA then .dictUnpack n k {} else .dictPack n k {}) s = onBarge s fun d => d.dictOp n x.op k {} := by
      rcases hop with op | op <;> rw [op] <;> rfl
    have line (w : s.dev.Working n x) (free : (s.dev.bg n).prog.begun = true ∨ s.dev.dictBusy n < 2) :
        s.dev.dictOp n x.op 1 {} = ((s.dev.modBg n BrgCh.begun).dictLine n x {}).2 := by
      rw [Dev.dictOp_begins h hi w free, Dev.byteRun_one, if_pos hop]
    refine ⟨?_, ?_, ?_⟩
    · rintro l hp free hl ⟨hs, ha, hr⟩
      have step := line (starts hp) (.inr free)
      rw [Dev.dictLine_input h hi owner (by rw [BrgCh.begun, hp]) (by rw [BrgCh.begun, hp]) hl hs ha hr] at step
      rw [go]
      refine (onBarge_ends hon step (h.modBg _ _)).trans (congrArg (fun e => Host.Outcome.next (s.to e)) (Dev.modBg_congr _ _ _ _ ?_))
      rw [BrgCh.begun_running run, BrgCh.taken, hp]
      rfl
    · intro l hp hl ha
      have step := line (work (by rw [hp]) (by rw [hp])) (.inl (by rw [hp]))
      rw [Dev.dictLine_code h hi (by rw [BrgCh.begun, hp]) (by rw [BrgCh.begun, hp]) (by rw [BrgCh.begun, hp]) hl ha] at step
      rw [go]
      refine (onBarge_ends hon step (h.modBg _ _)).trans (congrArg (fun e => Host.Outcome.next (s.to e)) (Dev.modBg_congr _ _ _ _ ?_))
      rw [BrgCh.begun_again run (by rw [hp])]
      rfl
    · intro out begun hout hp fin err code hlen hs ha hw
      have step := line (work fin err) (.inl begun)
      rw [Dev.dictLine_output h owner hout hp code hlen hs ha hw, Dev.wrote_modBg (written _ _).rest] at step
      rw [go]
      refine (onBarge_ends hon step ((written _ _).rest.modBg _ _)).trans (congrArg (fun e => Host.Outcome.next (s.to e)) (Dev.modBg_congr _ _ _ _ ?_))
      rw [(written _ _).bg, BrgCh.begun_again run begun, hp]

end Sys2Proof.Machine
end

section

/-! O39: the standard commands that read (R361, R366, R367, R479). -/

namespace Sys2Proof.Machine

/-- Table 12.7: a command that owners and tenants may issue. -/
theorem CSpec.permits_all {c : CSpec} (hp : c.p = true) (ht : c.t = true) (hc : c.cci = false) {r : Role} (hr : r ≠ .operator) (pn : Nat) :
    c.permits r pn = true := by
  unfold CSpec.permits
  cases r with
  | owner => rw [hp, hc]; rfl
  | tenant n => dsimp only; rw [ht, hc]; rfl
  | operator => exact absurd rfl hr

theorem CSpec.permits_owner {c : CSpec} (hp : c.p = true) (hc : c.cci = false) {r : Role} (hr : r = .owner) (pn : Nat) : c.permits r pn = true := by
  subst hr
  unfold CSpec.permits
  dsimp only
  rw [hp, hc]
  rfl

theorem CSpec.permits_tenant {c : CSpec} (ht : c.t = true) (hc : c.cci = false) {r : Role} {n : Nat} (hr : r = .tenant n) (pn : Nat) : c.permits r pn = true := by
  subst hr
  unfold CSpec.permits
  dsimp only
  rw [ht, hc]
  rfl

/-- A path of the Pool owner that is not a mailbox is a CCI. -/
theorem CSpec.permits_cci {c : CSpec} (hp : c.p = true) {d : Dev} {pn : Nat} (hr : d.role pn = .owner) (h : 32 ≤ pn) : c.permits (d.role pn) pn = true := by
  have cci : pn ≤ 48 := by
    by_contra high
    rw [Dev.role, if_neg (by omega), if_neg (by omega), if_neg (by omega)] at hr
    cases hr
  rw [hr]
  simp [CSpec.permits, hp, h, cci]

theorem need_true {b : Bool} (h : b = true) : need b = none := by rw [h]; rfl

/-- R358, R359: a standard command that reads and may be issued answers what it computes. -/
theorem onMail_read {s : State} {p : CmdPath} (h : s.dev.Rest) (ht : s.dev.takes (pathNo p) = true) {f : Dev → Nat → Dev} (op : Nat)
    {fields : Role → Option Ans} {act : Role → Ans × Dev} {a : Ans} {e : Dev}
    (hf : f s.dev (pathNo p) = s.dev.std1 (pathNo p) op false false fields act)
    (hp : (stdSpec op false false).permits (s.dev.role (pathNo p)) (pathNo p) = true) (hl : (stdSpec op false false).len = none)
    (hfields : fields (s.dev.role (pathNo p)) = none) (hact : act (s.dev.role (pathNo p)) = (a, e)) (ha : a.dcode = 0) (he : e.Rest) :
    onMail p s f = .next (s.to (e.answerPath (pathNo p) a)) := by
  refine onMail_to h ht (hf.trans ?_) (he.answerPath _ _)
  rw [Dev.std_read h ht op fields act hp hl hfields (by rw [hact]; exact ha), hact]

theorem Dev.Rest.draw {d : Dev} (h : d.Rest) : ({ d with draws := d.draws + 1 } : Dev).Rest := h.same

/-- Settles O39: each command is one that reads. -/
theorem standardReadsAnswerFromState : Obligations.StandardReadsAnswerFromState := by
  unfold Obligations.StandardReadsAnswerFromState
  intro s p hrest ht hr
  dsimp only
  have h := s.dev.atRest_iff.1 hrest
  have all (c : CSpec) (hp : c.p = true) (ht : c.t = true) (hc : c.cci = false) := CSpec.permits_all hp ht hc hr (pathNo p)
  refine ⟨?_, ?_, ?_, ?_, ?_, ?_, ?_, ?_, ?_, ?_, ?_, ?_, ?_, ?_, ?_⟩
  · change onMail p s (fun d pn => d.identify pn) = _
    exact onMail_read h ht 0x0001 rfl (all _ rfl rfl rfl) rfl rfl rfl rfl h
  · cases hb : (s.dev.path (pathNo p)).bg with
    | none =>
      change onMail p s (fun d pn => d.bgStatus pn) = _
      refine onMail_read h ht 0x0002 rfl (all _ rfl rfl rfl) rfl rfl ?_ rfl h
      rw [hb]
      cases (s.dev.path (pathNo p)).last <;> rfl
    | some b =>
      change onMail p s (fun d pn => d.bgStatus pn) = _
      refine onMail_read h ht 0x0002 rfl (all _ rfl rfl rfl) rfl rfl ?_ rfl h.draw
      rw [hb]
      rfl
  · intro log hlog
    change onMail p s (fun d pn => d.getEvents pn log.toNat) = _
    exact onMail_read h ht 0x0100 rfl (all _ rfl rfl rfl) rfl (need_true (decide_eq_true hlog)) rfl rfl h
  · change onMail p s (fun d pn => d.getPolicy pn) = _
    exact onMail_read h ht 0x0102 rfl (all _ rfl rfl rfl) rfl rfl rfl rfl h
  · change onMail p s (fun d pn => d.fwInfo pn) = _
    exact onMail_read h ht 0x0200 rfl (all _ rfl rfl rfl) rfl rfl rfl rfl h
  · change onMail p s (fun d pn => d.getTime pn) = _
    exact onMail_read h ht 0x0300 rfl (all _ rfl rfl rfl) rfl rfl rfl rfl h
  · change onMail p s (fun d pn => d.supportedLogs pn) = _
    exact onMail_read h ht 0x0400 rfl (all _ rfl rfl rfl) rfl rfl rfl rfl h
  · change onMail p s (fun d pn => d.getLog pn true) = _
    exact onMail_read h ht 0x0401 rfl (all _ rfl rfl rfl) rfl rfl rfl rfl h
  · change onMail p s (fun d pn => d.identifyMem pn) = _
    exact onMail_read h ht 0x4000 rfl (all _ rfl rfl rfl) rfl rfl rfl rfl h
  · change onMail p s (fun d pn => d.health pn) = _
    exact onMail_read h ht 0x4200 rfl (all _ rfl rfl rfl) rfl rfl rfl rfl h
  · change onMail p s (fun d pn => d.getAlert pn) = _
    exact onMail_read h ht 0x4201 rfl (all _ rfl rfl rfl) rfl rfl rfl rfl h
  · intro a len ha hl hlen
    refine ⟨?_, fun has => ?_⟩
    · change onMail p s (fun d pn => d.getPoison pn a.toNat len.toNat) = _
      exact onMail_read h ht 0x4300 rfl (all _ rfl rfl rfl) rfl (need_true (by simp [ha, hl, hlen])) rfl rfl h
    · change onMail p s (fun d pn => d.scanCaps pn a.toNat len.toNat) = _
      exact onMail_read h ht 0x4303 rfl (all _ rfl rfl rfl) rfl (need_true (by simp [ha, hl, hlen, has])) rfl rfl h.draw
  · change onMail p s (fun d pn => d.scanResults pn) = _
    exact onMail_read h ht 0x4305 rfl (all _ rfl rfl rfl) rfl rfl rfl rfl h
  · intro n hn
    refine ⟨?_, ?_⟩
    · change onMail p s (fun d pn => d.dcConfig pn) = _
      exact onMail_read h ht 0x4800 rfl (CSpec.permits_tenant rfl rfl hn _) rfl rfl rfl rfl h
    · change onMail p s (fun d pn => d.dcList pn) = _
      exact onMail_read h ht 0x4801 rfl (CSpec.permits_tenant rfl rfl hn _) rfl rfl (by rw [hn]; rfl) rfl h
  · intro ho
    refine ⟨?_, ?_, ?_, ?_, ?_, ?_, ?_⟩
    · change onMail p s (fun d pn => d.supportedFeatures pn) = _
      exact onMail_read h ht 0x0500 rfl (CSpec.permits_owner rfl rfl ho _) rfl rfl rfl rfl h
    · intro k hk
      change onMail p s (fun d pn => d.getFeature pn k) = _
      exact onMail_read h ht 0x0501 rfl (CSpec.permits_owner rfl rfl ho _) rfl (need_true (decide_eq_true hk)) rfl rfl h
    · intro hpn
      change onMail p s (fun d pn => d.getLimit pn) = _
      exact onMail_read h ht 0x0003 rfl (CSpec.permits_cci rfl ho hpn) rfl rfl rfl rfl h
    · change onMail p s (fun d pn => d.dcdInfo pn) = _
      exact onMail_read h ht 0x5600 rfl (CSpec.permits_owner rfl rfl ho _) rfl rfl rfl rfl h
    · intro n hn
      refine ⟨?_, ?_, ?_⟩
      · change onMail p s (fun d pn => d.hostRegion pn n) = _
        exact onMail_read h ht 0x5601 rfl (CSpec.permits_owner rfl rfl ho _) rfl (need_true hn) rfl rfl h
      · change onMail p s (fun d pn => d.regionExtents pn n) = _
        exact onMail_read h ht 0x5603 rfl (CSpec.permits_owner rfl rfl ho _) rfl (need_true hn) rfl rfl h
      · change onMail p s (fun d pn => d.headInfo pn n) = _
        exact onMail_read h ht 0x5501 rfl (CSpec.permits_owner rfl rfl ho _) rfl (need_true hn) rfl rfl h
    · change onMail p s (fun d pn => d.listTags pn) = _
      exact onMail_read h ht 0x5608 rfl (CSpec.permits_owner rfl rfl ho _) rfl rfl rfl rfl h
    · change onMail p s (fun d pn => d.multiHead pn) = _
      exact onMail_read h ht 0x5500 rfl (CSpec.permits_owner rfl rfl ho _) rfl rfl rfl rfl h

end Sys2Proof.Machine
end

section

/-! O40: the standard commands that set something (R361, R366 to R368, R478). -/

namespace Sys2Proof.Machine

/-- R358, R359: a standard command with a side effect that may be issued takes effect, is counted and answered. -/
theorem onMail_effect {s : State} {p : CmdPath} (h : s.dev.Rest) (ht : s.dev.takes (pathNo p) = true) {f : Dev → Nat → Dev} (op : Nat) (active : Bool)
    {fields : Role → Option Ans} {act : Role → Ans × Dev} {a : Ans} {e : Dev}
    (hf : f s.dev (pathNo p) = s.dev.std1 (pathNo p) op active true fields act)
    (hp : (stdSpec op active true).permits (s.dev.role (pathNo p)) (pathNo p) = true) (hl : (stdSpec op active true).len = none)
    (hfields : fields (s.dev.role (pathNo p)) = none) (hw : active = true → s.dev.works = true) (hact : act (s.dev.role (pathNo p)) = (a, e))
    (hr : a.rc.did = true) (ha : a.dcode = 0) (he : e.Rest) : onMail p s f = .next (s.to (e.acted.answerPath (pathNo p) a)) := by
  refine onMail_to h ht (hf.trans ?_) (he.acted.answerPath _ _)
  rw [Dev.std_effect h ht op active fields act hp hl hfields hw (by rw [hact]; exact hr) (by rw [hact]; exact ha), hact]

theorem Dev.Rest.modLogs {d : Dev} (h : d.Rest) (r : Role) (f : Logs → Logs) : (d.modLogs r f).Rest := by
  unfold Dev.modLogs
  split <;> exact h.same

theorem Dev.Rest.endBg {d : Dev} (h : d.Rest) (pn : Nat) (rc : RC) : (d.endBg pn rc).Rest := by
  have ended := h.modPath pn fun x => { x with bg := none, last := x.bg.map fun b => (b.opcode, rc) }
  unfold Dev.endBg
  dsimp only
  split
  · split
    · exact ended.modLd _ _ fun l hl => by rw [Landing.msi_txq]; exact hl
    · exact ended
  · exact ended

theorem Dev.Rest.setQpois {d : Dev} (h : d.Rest) (home page : Nat) (mask : BitVec 16) : (d.setQpois home page mask).Rest :=
  (h.setEnt page _).modMs home _

theorem Dev.Rest.startBg {d : Dev} (h : d.Rest) (pn opcode : Nat) (op : BgOp) : (d.startBg pn opcode op).Rest := h.modPath pn _

/-- R361: nothing running on the path, and nothing running elsewhere that clashes. -/
theorem Dev.bgConflict_none {d : Dev} {pn : Nat} (hb : (d.path pn).bg = none) {clash : Bg → Bool} (hc : ∀ x ∈ d.mg.paths, ∀ b, x.2.bg = some b → clash b = false) :
    d.bgConflict pn clash = none := by
  unfold Dev.bgConflict
  rw [hb]
  refine List.findSome?_eq_none_iff.2 fun x hx => ?_
  cases hx' : x.2.bg with
  | none => rfl
  | some b => simp [hc x hx b hx']

theorem Dev.background_starts {d : Dev} {pn : Nat} {clash : Bg → Bool} (hq : d.bgConflict pn clash = none) (opcode : Nat) (op : BgOp) (go : Dev → Dev) :
    d.background pn opcode clash op go = ({ rc := .bgStarted }, (go d).startBg pn opcode op) := by
  unfold Dev.background
  rw [hq]

theorem CSpec.permits_any {opcode : Nat} {r : Role} (hr : r ≠ .operator) (pn : Nat) :
    ({ opcode, p := true, t := true, o := true } : CSpec).permits r pn = true := CSpec.permits_all rfl rfl rfl hr pn

/-- R358 check 2: a supported command that the role may not issue is refused. -/
theorem Dev.unsupported_role {d : Dev} (h : d.Rest) {pn op : Nat} (ht : d.takes pn = true) {c : CSpec}
    (hc : cmdTable.find? (fun c => decide (c.opcode = op)) = some c) (hp : c.permits (d.role pn) pn = false) :
    d.unsupported pn op = d.answerPath pn (c.trim (.bad .unsupported 0x000A 0 0 op)) := by
  have code : c.opcode = op := of_decide_eq_true (List.find?_some (p := fun c : CSpec => decide (c.opcode = op)) hc)
  simp only [Dev.takes, Bool.and_eq_true, Bool.not_eq_true'] at ht
  obtain ⟨⟨⟨live, up⟩, vdm⟩, -⟩ := ht
  have heard : ¬(33 ≤ pn ∧ pn ≤ 48 ∧ bits (d.p 0x1E1) (pn - 33) 1 = 0) := by
    rintro ⟨low, high, off⟩
    simp [low, high, off] at vdm
  have gate : d.gate pn c (c.len.getD 0) (fun _ => none) = .inl (d.answerPath pn (c.trim (.bad .unsupported 0x000A 0 0 c.opcode))) := by
    unfold Dev.gate
    simp only [live, h.entry, Bool.not_true, Bool.or_self, Bool.false_eq_true, if_false, heard, up, hp, Bool.not_false, if_true]
  unfold Dev.unsupported
  rw [hc]
  dsimp only
  rw [if_neg (by rw [hp]; decide), gate, code]

/-- Settles O40: each command has its effect, and the two refusals of R358. -/
theorem standardCommandsTakeEffect : Obligations.StandardCommandsTakeEffect := by
  unfold Obligations.StandardCommandsTakeEffect
  intro s p hrest ht hr
  dsimp only
  have h := s.dev.atRest_iff.1 hrest
  have all (c : CSpec) (hp : c.p = true) (ht : c.t = true) (hc : c.cci = false) := CSpec.permits_all hp ht hc hr (pathNo p)
  refine ⟨?_, ?_, ?_, ?_, ?_, ?_, ?_, ?_⟩
  · intro op hop
    change onMail p s (fun d pn => d.unsupported pn op.toNat) = _
    refine onMail_to h ht ?_ (h.answerPath _ _)
    have unknown : cmdTable.find? (fun c => decide (c.opcode = op.toNat)) = none :=
      List.find?_eq_none.2 fun c hc => by simpa using hop c hc
    unfold Dev.unsupported
    rw [unknown]
    dsimp only
    rw [s.dev.command_takes h ht _ _ _ _ (CSpec.permits_any hr _) (fun l k => nomatch k) rfl (fun k => nomatch k)]
    exact Dev.close_read _ _ _ _ rfl rfl
  · intro op c hc hp
    change onMail p s (fun d pn => d.unsupported pn op.toNat) = _
    exact onMail_to h ht (Dev.unsupported_role h ht hc hp) (h.answerPath _ _)
  · intro log hlog
    change onMail p s (fun d pn => d.clearEvents pn log.toNat true []) = _
    exact onMail_effect h ht 0x0101 false rfl (all _ rfl rfl rfl) rfl (need_true (by simp [hlog])) (fun no => nomatch no) (by simp) rfl rfl (h.modLogs _ _)
  · intro vs hlen hvs
    change onMail p s (fun d pn => d.setPolicy pn vs) = _
    exact onMail_effect h ht 0x0103 false rfl (all _ rfl rfl rfl) rfl (need_true (by simpa [hlen] using hvs)) (fun no => nomatch no) rfl rfl rfl (h.modLogs _ _)
  · intro b hb hab
    change onMail p s (fun d pn => d.bgAbort pn) = _
    refine onMail_effect h ht 0x0005 false (fields := fun _ => none) (act := fun _ => (.good, s.dev.endBg (pathNo p) .aborted)) ?_ (all _ rfl rfl rfl) rfl rfl (fun no => nomatch no) rfl rfl rfl
      (h.endBg _ _)
    dsimp only [Dev.bgAbort]
    rw [hb]
    dsimp only [Option.isSome_some]
    rw [if_pos hab]
  · intro a len hw hb ha hl hlen has
    change onMail p s (fun d pn => d.scanMedia pn a.toNat len.toNat) = _
    exact onMail_effect h ht 0x4304 true rfl (all _ rfl rfl rfl) rfl (need_true (by simp [ha, hl, hlen, has])) (fun _ => hw) (Dev.background_starts (Dev.bgConflict_none hb fun _ _ _ _ => rfl) _ _ _)
      rfl rfl (Dev.Rest.startBg h.same _ _ _)
  · intro a n hw ha hrole has hn
    change onMail p s (fun d pn => d.injectPoison pn a.toNat) = _
    refine onMail_effect h ht 0x4301 true rfl (all _ rfl rfl rfl) rfl (need_true (by rw [hrole]; simp [ha, has])) (fun _ => hw) (a := .good) ?_ rfl rfl
      (Dev.Rest.setQpois h.same _ _ _)
    rw [hrole]
    dsimp only
    rw [if_neg (by simp [hn])]
    rfl
  · intro ho
    refine ⟨?_, ?_, ?_, ?_, ?_, ?_, ?_⟩
    · intro n hpn low high
      change onMail p s (fun d pn => d.setLimit pn n.toNat) = _
      exact onMail_effect h ht 0x0004 false rfl (CSpec.permits_cci rfl ho hpn) rfl (need_true (by simp [low, high])) (fun no => nomatch no) rfl rfl rfl (h.modPath _ _)
    · intro t hsync
      change onMail p s (fun d pn => d.setTime pn t) = _
      exact onMail_effect h ht 0x0301 false rfl (CSpec.permits_owner rfl rfl ho _) rfl rfl (fun no => nomatch no) (if_neg (by rw [hsync]; decide)) rfl rfl h.same
    · intro k v hk
      change onMail p s (fun d pn => d.setFeature pn k v) = _
      exact onMail_effect h ht 0x0502 false rfl (CSpec.permits_owner rfl rfl ho _) rfl (need_true (decide_eq_true hk)) (fun no => nomatch no) rfl rfl rfl h.same
    · intro v
      change onMail p s (fun d pn => d.setAlert pn v) = _
      exact onMail_effect h ht 0x4202 false rfl (CSpec.permits_owner rfl rfl ho _) rfl rfl (fun no => nomatch no) rfl rfl rfl h.same
    · intro len hlen
      change onMail p s (fun d pn => d.setRegion pn 0 (0#64).toNat len.toNat (0x10000000#64).toNat) = _
      exact onMail_read h ht 0x5602 rfl (CSpec.permits_owner rfl rfl ho _) rfl (need_true (by simp [hlen])) rfl rfl h
    · intro c bank row sub hsub hc hon hst hrow hfree
      change onMail p s (fun d pn => d.performMaint pn (1#8).toNat sub.toNat c { bank, row }) = _
      have known : maintCode 1 sub.toNat = none := by simp [maintCode, hsub]
      have unused : ((s.dev.usedFrames c).filter fun f => decide (f < s.dev.frames c) && decide (s.dev.rowOf c (f * 4096) = { bank, row })) = [] :=
        List.filter_eq_nil_iff.2 fun f hf => by simp [hfree f hf]
      refine onMail_effect h ht 0x0600 false rfl (CSpec.permits_owner rfl rfl ho _) rfl ?_ (fun no => nomatch no) (a := .good) ?_ rfl rfl (h.modCh c _ ?_ ?_)
      · change (match maintCode 1 sub.toNat with
          | some rc => some (.bad rc)
          | none => need _) = none
        rw [known]
        exact need_true (by simp [hc, hon, hst, hrow])
      · dsimp only
        rw [unused]
        refine congrArg (Prod.mk _) (Dev.modCh_congr _ _ _ _ ?_)
        split <;> rfl
      · exact fun x hx => hx
      · exact ⟨rfl, rfl⟩
    · intro tag
      refine ⟨fun hin hnew => ?_, fun hin => ?_⟩
      · change onMail p s (fun d pn => d.addRef pn tag) = _
        exact onMail_effect h ht 0x5606 false rfl (CSpec.permits_owner rfl rfl ho _) rfl (need_true hin) (fun no => nomatch no) (by rw [if_neg hnew]) rfl rfl h.same
      · change onMail p s (fun d pn => d.removeRef pn tag) = _
        exact onMail_effect h ht 0x5607 false rfl (CSpec.permits_owner rfl rfl ho _) rfl (need_true (decide_eq_true hin)) (fun no => nomatch no) rfl rfl rfl h.same

end Sys2Proof.Machine
end

section

/-! O41: firmware, Clear Poison, Sanitize and the end of a background command (R361, R364, R365, R367, R369, R530). -/

namespace Sys2Proof.Machine

/-! What the Tollhouse and the key tables change (R239, R243, R369). -/

/-- The second device differs from the first in its contexts, the Tollhouse, its draws and the key tables of its slices alone. -/
structure KeysOnly (d e : Dev) : Prop where
  rest : e.Rest
  mem : e.mem = d.mem
  mg : e.mg = d.mg
  lnd : e.lnd = d.lnd
  wharf : ∀ n, (e.ms n).wharf = (d.ms n).wharf
  held : ∀ n, (e.ms n).held = (d.ms n).held

theorem KeysOnly.refl {d : Dev} (h : d.Rest) : KeysOnly d d := ⟨h, rfl, rfl, rfl, fun _ => rfl, fun _ => rfl⟩

theorem KeysOnly.trans {a b c : Dev} (h : KeysOnly a b) (k : KeysOnly b c) : KeysOnly a c :=
  ⟨k.rest, k.mem.trans h.mem, k.mg.trans h.mg, k.lnd.trans h.lnd, fun n => (k.wharf n).trans (h.wharf n), fun n => (k.held n).trans (h.held n)⟩

theorem KeysOnly.modSeal {d : Dev} (h : d.Rest) (sl : Nat) (f : SealSt → SealSt) : KeysOnly d (d.modSeal sl f) := by
  have ms (n : Nat) : ((d.modSeal sl f).ms n).wharf = (d.ms n).wharf ∧ ((d.modSeal sl f).ms n).held = (d.ms n).held := by
    unfold Dev.modSeal
    rw [Dev.ms_modMs h]
    split
    · next hn => subst hn; exact ⟨rfl, rfl⟩
    · exact ⟨rfl, rfl⟩
  exact ⟨h.modSeal sl f, rfl, rfl, rfl, fun n => (ms n).1, fun n => (ms n).2⟩

theorem KeysOnly.modCtx {d : Dev} (h : d.Rest) (c : Nat) (f : CtxRec → CtxRec) : KeysOnly d (d.modCtx c f) :=
  ⟨h.modCtx _ (rises_tput _ _ _ _ h.tidy.ctx), rfl, rfl, rfl, fun _ => rfl, fun _ => rfl⟩

theorem KeysOnly.tlh {d : Dev} (h : d.Rest) (t : Tlh) : KeysOnly d { d with tlh := t } := ⟨h.same, rfl, rfl, rfl, fun _ => rfl, fun _ => rfl⟩

theorem KeysOnly.draw {d : Dev} (h : d.Rest) : KeysOnly d d.draw.2 := ⟨h.same, rfl, rfl, rfl, fun _ => rfl, fun _ => rfl⟩

theorem KeysOnly.seals (f : Dev → Nat → SealSt → SealSt) (l : List Nat) :
    ∀ {d : Dev}, d.Rest → KeysOnly d (l.foldl (fun d n => d.modSeal n (f d n)) d) ∧ (l.foldl (fun d n => d.modSeal n (f d n)) d).ctx = d.ctx := by
  induction l with
  | nil => exact fun h => ⟨.refl h, rfl⟩
  | cons n l ih =>
    intro d h
    have first := KeysOnly.modSeal h n (f d n)
    obtain ⟨others, ctx⟩ := ih first.rest
    exact ⟨first.trans others, ctx⟩

theorem Dev.ctxOf_modCtx_at {d : Dev} (h : d.Rest) (c k : Nat) (f : CtxRec → CtxRec) : (d.modCtx c f).ctxOf k = if k = c then f (d.ctxOf c) else d.ctxOf k :=
  tget_tput _ _ _ _ _ h.tidy.ctx

/-- R239: a context disabled. -/
theorem Dev.disableCtx_keys {d : Dev} (h : d.Rest) (c : Nat) :
    KeysOnly d (d.disableCtx c) ∧ ((d.disableCtx c).ctxOf c).st = .disabled ∧ ∀ k, k ≠ c → (d.disableCtx c).ctxOf k = d.ctxOf k := by
  have erased := KeysOnly.tlh h { d.tlh with wrapped := tput none d.tlh.wrapped c none }
  obtain ⟨keys, ctx⟩ := KeysOnly.seals (fun _ _ s => { s with keys := tput none s.keys c none, remap := s.remap.filter (· ≠ c), reload := s.reload.filter (· ≠ c) })
    d.units erased.rest
  unfold Dev.disableCtx
  refine ⟨(erased.trans keys).trans (.modCtx keys.rest _ _), ?_, fun k hk => ?_⟩
  · exact congrArg CtxRec.st ((Dev.ctxOf_modCtx_at keys.rest c c _).trans (if_pos rfl))
  · refine (Dev.ctxOf_modCtx_at keys.rest c k _).trans ((if_neg hk).trans ?_)
    unfold Dev.ctxOf
    rw [ctx]

/-- R369: contexts disabled one after another. -/
theorem Dev.disableAll (l : List Nat) : ∀ {d : Dev}, d.Rest → KeysOnly d (l.foldl (fun d c => d.disableCtx c) d) ∧
    ∀ k, (k ∈ l ∨ (d.ctxOf k).st = .disabled) → ((l.foldl (fun d c => d.disableCtx c) d).ctxOf k).st = .disabled := by
  induction l with
  | nil => exact fun h => ⟨.refl h, fun k hk => hk.resolve_left (by simp)⟩
  | cons c l ih =>
    intro d h
    obtain ⟨first, off, others⟩ := Dev.disableCtx_keys h c
    obtain ⟨keys, all⟩ := ih first.rest
    refine ⟨first.trans keys, fun k hk => all k ?_⟩
    by_cases same : k = c
    · exact .inr (same ▸ off)
    · rw [others k same]
      exact hk.imp_left fun listed => (List.mem_cons.1 listed).resolve_left same

/-- R243: base keys that arrive for a context leave every other context. -/
theorem Dev.keyArrives_keys {d : Dev} (h : d.Rest) (c : Nat) (base : BitVec 256 × BitVec 256) :
    KeysOnly d (d.keyArrives c base) ∧ ∀ k, k ≠ c → (d.keyArrives c base).ctxOf k = d.ctxOf k := by
  have wrapped := KeysOnly.tlh h { d.tlh with wrapped := tput none d.tlh.wrapped c (some base) }
  have enabled := KeysOnly.modCtx wrapped.rest c fun r => { r with st := .enabled, gen := r.gen + 1#8 }
  have loaded {e : Dev} (he : e.Rest) : KeysOnly e (e.loadKeys c) ∧ (e.loadKeys c).ctx = e.ctx := by
    unfold Dev.loadKeys
    split
    · exact ⟨.refl he, rfl⟩
    · next base _ => exact KeysOnly.seals (fun d _ s => { s with keys := tput none s.keys c (some (d.working c base)) }) _ he
  obtain ⟨keys, ctx⟩ := loaded enabled.rest
  refine ⟨(wrapped.trans enabled).trans keys, fun k hk => ?_⟩
  unfold Dev.keyArrives Dev.ctxOf
  dsimp only
  rw [ctx]
  exact (Dev.ctxOf_modCtx_at wrapped.rest c k _).trans (if_neg hk)

theorem mem_of_tget {α : Type} [DecidableEq α] {z : α} {t : Tbl α} {n : Nat} (h : tget z t n ≠ z) : (n, tget z t n) ∈ t := by
  induction t with
  | nil => exact absurd rfl h
  | cons x t ih =>
    obtain ⟨k, w⟩ := x
    by_cases hk : k = n
    · subst hk
      simp [tget]
    · have later : tget z ((k, w) :: t) n = tget z t n := if_neg hk
      rw [later] at h ⊢
      exact List.mem_cons_of_mem _ (ih h)

/-! Sanitize (R369). -/

theorem Slice.discard_atRest (x : Slice) (hx : x.atRest = true) : x.discard.atRest = true := hx

/-- A change of every listed slice leaves the device at rest. -/
theorem Dev.Rest.mapSlc {d : Dev} (h : d.Rest) (f : Slice → Slice) (hf : ∀ x, x.atRest = true → (f x).atRest = true) :
    ({ d with slc := d.slc.map fun x => (x.1, f x.2) } : Dev).Rest := by
  refine ⟨h.fence, h.blow, ?_, h.lnd, h.entry, h.chn, h.ovr, h.recs, { h.tidy with slc := (rises_map f d.slc).trans h.tidy.slc }⟩
  intro x hx
  obtain ⟨y, hy, rfl⟩ := List.mem_map.1 hx
  have quiet := hf y.2 (by simpa [Slice.atRest, and_assoc] using h.slc y hy)
  simpa [Slice.atRest, and_assoc] using quiet

theorem tget_map {α : Type} {z : α} (f : α → α) (t : Tbl α) (n : Nat) : tget z (t.map fun x => (x.1, f x.2)) n = f (tget z t n) ∨ tget z (t.map fun x => (x.1, f x.2)) n = z := by
  induction t with
  | nil => exact .inr rfl
  | cons x t ih =>
    by_cases hx : x.1 = n
    · left
      simp [tget, hx]
    · simpa [tget, hx] using ih

/-- R369: the memory is zeroed and every Wharf emptied. -/
def Dev.emptied (d : Dev) : Dev := { d.zeroPools with slc := d.zeroPools.slc.map fun x => (x.1, x.2.discard) }

theorem Dev.emptied_rest {d : Dev} (h : d.Rest) : d.emptied.Rest :=
  Dev.Rest.mapSlc (d := d.zeroPools) h.same Slice.discard Slice.discard_atRest

theorem Dev.emptied_wharf (d : Dev) (n : Nat) : (d.emptied.ms n).wharf.lines = [] ∧ (d.emptied.ms n).held = [] := by
  rcases tget_map (z := ({} : Slice)) Slice.discard d.slc n with listed | none
  · have slice : d.emptied.ms n = (d.ms n).discard := listed
    rw [slice]
    exact ⟨rfl, rfl⟩
  · have slice : d.emptied.ms n = {} := none
    rw [slice]
    exact ⟨rfl, rfl⟩

/-- The contexts Sanitize disables. -/
def Dev.ctxsOn (d : Dev) : List Nat := (d.ctx.filter fun x => decide (x.1 ≠ 0) && decide (x.2.st ≠ .disabled)).map (·.1)

theorem Dev.ctxsOn_of (d : Dev) {c : Nat} (h0 : c ≠ 0) : c ∈ d.ctxsOn ∨ (d.ctxOf c).st = .disabled := by
  by_cases off : (d.ctxOf c).st = .disabled
  · exact .inr off
  · have listed : (c, d.ctxOf c) ∈ d.ctx := mem_of_tget fun none => off (by rw [Dev.ctxOf, none])
    exact .inl (List.mem_map.2 ⟨_, List.mem_filter.2 ⟨listed, by simp [h0, off]⟩, rfl⟩)

/-- What Sanitize does at its acceptance. -/
def Dev.wiped (d : Dev) : Dev :=
  let off := d.emptied.ctxsOn.foldl (fun d c => d.disableCtx c) d.emptied
  (off.drawKeys false).2.keyArrives 0 (off.drawKeys false).1

theorem Dev.wiped_keys {d : Dev} (h : d.Rest) : KeysOnly d.emptied d.wiped ∧ ∀ c, c ≠ 0 → (d.wiped.ctxOf c).st = .disabled := by
  obtain ⟨off, disabled⟩ := Dev.disableAll d.emptied.ctxsOn (Dev.emptied_rest h)
  have drawn := KeysOnly.draw (KeysOnly.draw off.rest).rest
  obtain ⟨arrived, others⟩ := Dev.keyArrives_keys drawn.rest 0 ((d.emptied.ctxsOn.foldl (fun d c => d.disableCtx c) d.emptied).drawKeys false).1
  refine ⟨((off.trans (.draw off.rest)).trans drawn).trans arrived, fun c hc => ?_⟩
  exact (congrArg CtxRec.st (others c hc)).trans (disabled c (d.emptied.ctxsOn_of hc))

theorem Dev.path_answerPath {d : Dev} (h : d.Rest) (pn : Nat) (a : Ans) : ((d.answerPath pn a).path pn).ans = a := by
  have told : (d.modPath pn fun x => { x with ans := a }).path pn = { d.path pn with ans := a } := by rw [Dev.path_modPath h, if_pos rfl]
  have kept : (d.answerPath pn a).mg = (d.modPath pn fun x => { x with ans := a }).mg := by
    unfold Dev.answerPath
    dsimp only
    split
    · split <;> rfl
    · rfl
  unfold Dev.path at told ⊢
  rw [kept, told]

/-- An answer changes its path, and the landing it is told to, alone. -/
theorem Dev.answerPath_keeps (d : Dev) (pn : Nat) (a : Ans) :
    (d.answerPath pn a).mem = d.mem ∧ (d.answerPath pn a).slc = d.slc ∧ (d.answerPath pn a).ctx = d.ctx ∧ (d.answerPath pn a).pm = d.pm := by
  unfold Dev.answerPath
  dsimp only
  split
  · split <;> exact ⟨rfl, rfl, rfl, rfl⟩
  · exact ⟨rfl, rfl, rfl, rfl⟩

/-- What the answer to Sanitize leaves standing. -/
theorem KeysOnly.sanitized {d e : Dev} (keys : KeysOnly d.emptied e) (disabled : ∀ c, c ≠ 0 → (e.ctxOf c).st = .disabled) {pn : Nat} {t : Dev}
    (ht : t = (e.startBg pn 0x4400 .sanitize).acted.answerPath pn { rc := .bgStarted }) :
    t.mem = d.zeroPools.mem ∧ (t.path pn).ans = { rc := .bgStarted } ∧ (∀ n, (t.ms n).wharf.lines = [] ∧ (t.ms n).held = []) ∧
      ∀ c, c ≠ 0 → (t.ctxOf c).st = .disabled := by
  obtain ⟨mem, slc, ctx, -⟩ := (e.startBg pn 0x4400 .sanitize).acted.answerPath_keeps pn { rc := .bgStarted }
  rw [← ht] at mem slc ctx
  refine ⟨mem.trans keys.mem, ht ▸ Dev.path_answerPath (keys.rest.startBg _ _ _).acted _ _, fun n => ?_, fun c hc => ?_⟩
  · rw [Dev.ms_of_slc slc]
    obtain ⟨lines, held⟩ := d.emptied_wharf n
    exact ⟨(congrArg Wharf.lines (keys.wharf n)).trans lines, (keys.held n).trans held⟩
  · rw [Dev.ctxOf, ctx]
    exact disabled c hc

theorem Dev.sanitize_wipes {s : State} {p : CmdPath} (h : s.dev.Rest) (ht : s.dev.takes (pathNo p) = true) (hw : s.dev.works = true)
    (ho : s.dev.role (pathNo p) = .owner) (hb : s.dev.tlhBusy = false) (hr : ∀ r ∈ s.dev.recList, r.2.st ≠ .offered ∧ r.2.st ≠ .granted)
    (hp : ∀ x ∈ s.dev.mg.paths, x.2.bg = none) :
    exec (.sanitize p) s = .next (s.to ((s.dev.wiped.startBg (pathNo p) 0x4400 .sanitize).acted.answerPath (pathNo p) { rc := .bgStarted })) := by
  have noRecord : s.dev.recList.find? (fun r => decide (r.2.st = .offered) || decide (r.2.st = .granted)) = none :=
    List.find?_eq_none.2 fun r hmem => by simp [hr r hmem]
  have idle : (s.dev.path (pathNo p)).bg = none := by
    rcases tget_mem ({} : CPath) s.dev.mg.paths (pathNo p) with absent | ⟨x, hx, listed⟩
    · rw [Dev.path, absent]
    · rw [Dev.path, listed, hp x hx]
  have quiet := Dev.bgConflict_none idle (clash := fun b => decide (b.op = .sanitize)) fun x hx b hb => absurd hb (by rw [hp x hx]; exact nofun)
  change onMail p s (fun d pn => d.sanitize pn) = _
  refine onMail_effect h ht 0x4400 true rfl (CSpec.permits_owner rfl rfl ho _) rfl rfl (fun _ => hw) ?_ rfl rfl ((Dev.wiped_keys h).1.rest.startBg _ _ _)
  rw [noRecord]
  dsimp only
  rw [if_neg (by rw [hb]; decide), Dev.background_starts quiet]
  rfl

/-! Clear Poison (R367). -/

/-- A write that has its completion already and hits a dirty line lands. -/
theorem Dev.serveWrite_again {d : Dev} {sl k : Nat} {w : Work} {mv : MetaV} (hf : (d.ms sl).wharf.find w.line = some k)
    (hs : ((d.ms sl).wharf.get k).st = .dirty) (hm : (d.ms sl).misses = []) (ha : w.ack = true) (hk : w.req.kind = .wr mv) :
    d.serveWrite sl w {} = (none, d.modW sl fun v =>
      v.put k { (d.ms sl).wharf.get k with data := w.req.data, pois := w.req.poison, whole := true, cls := w.cls, age := 0, pf := false }) := by
  have lands := Dev.applyWrite_dirty (w := { w with ack := true }) hf hk hs 0#512 false {}
  simp only [Dev.serveWrite, hf, hs, hm, hk, ha, List.any_nil, Option.isSome_some, Option.isNone_some, Bool.or_true, Bool.true_or, Bool.and_false, Bool.false_and,
    Bool.not_true, Bool.not_false, Bool.and_true, Bool.false_eq_true, if_false, if_true, Dev.ackWrite, lands, reduceCtorEq, decide_false]

/-- The line Clear Poison leaves in the Wharf. -/
def WLine.cleared (l : WLine) (data : Line) : WLine := { l with data := data, pois := false, whole := true, cls := 0, age := 0, pf := false }

theorem Dev.get_modW_put {d : Dev} (h : d.Rest) (sl k : Nat) {l : WLine} (hl : l ≠ {}) : ((d.modW sl fun v => v.put k l).ms sl).wharf.get k = l := by
  rw [Dev.modW, Dev.ms_modMs h, if_pos rfl]
  exact tget_tput_same _ _ hl _ _

/-- What Clear Poison does to the device: the line is written, the poison lists of its issuer forget it. -/
def Dev.poisonCleared (d : Dev) (n sl k a : Nat) (data : Line) : Dev :=
  let written := d.modW sl fun v => v.put k (((d.ms sl).wharf.get k).cleared data)
  { written with logs := tmod {} written.logs n (written.endPoison a) }

theorem Dev.poisonCleared_rest {d : Dev} (h : d.Rest) (n sl k a : Nat) (data : Line) : (d.poisonCleared n sl k a data).Rest := by
  have written := h.modW sl fun v => v.put k (((d.ms sl).wharf.get k).cleared data)
  exact written.same

theorem Dev.clearPoison_hit {s : State} {p : CmdPath} {a : BitVec 64} {data : Line} {n k : Nat} (h : s.dev.Rest) (ht : s.dev.takes (pathNo p) = true)
    (hw : s.dev.works = true) (hi : s.dev.noInj = true) (hr : s.dev.role (pathNo p) = .tenant n) (ha : a.toNat % 64 = 0)
    (has : s.dev.issuerHas (.tenant n) a.toNat 64 = true) (hs : s.dev.sharedLine (a.toNat / 64) = false)
    (hf : (s.dev.ms (s.dev.homeOf (a.toNat / 4096))).wharf.find (a.toNat / 64) = some k)
    (hd : ((s.dev.ms (s.dev.homeOf (a.toNat / 4096))).wharf.get k).st = .dirty) (hm : (s.dev.ms (s.dev.homeOf (a.toNat / 4096))).misses = []) :
    exec (.clearPoison p a data {}) s =
      .next (s.to ((s.dev.poisonCleared n (s.dev.homeOf (a.toNat / 4096)) k a.toNat data).acted.answerPath (pathNo p) .good)) := by
  change onMail p s (fun d pn => d.clearPoison pn a.toNat data {}) = _
  refine onMail_effect h ht 0x4302 true rfl (CSpec.permits_all rfl rfl rfl (by rw [hr]; exact nofun) _) rfl (need_true (by rw [hr]; simp [ha, has])) (fun _ => hw) ?_
    rfl rfl (Dev.poisonCleared_rest h _ _ _ _ _)
  rw [hr]
  dsimp only
  rw [hs]
  rw [Dev.submit_served h]
  · rfl
  · simp only [Dev.serve, Bool.false_and, Bool.false_eq_true, if_false, Dev.serveLocal, Dev.tagCheck_sound hi, ReqKind.writes, if_true]
    exact Dev.serveWrite_again hf hd hm rfl rfl

/-- Settles O41. -/
theorem firmwareAndMediaCommands : Obligations.FirmwareAndMediaCommands := by
  unfold Obligations.FirmwareAndMediaCommands
  intro s p hrest
  dsimp only
  have h := s.dev.atRest_iff.1 hrest
  refine ⟨?_, ?_, ?_, ?_, ?_, ?_⟩
  · intro slot x ht ho h1 hspare
    refine ⟨?_, ?_, fun hb hbusy hroom => ?_⟩
    · change onMail p s (fun d pn => d.transferFw pn slot.toNat x) = _
      exact onMail_effect h ht 0x0201 false rfl (CSpec.permits_owner rfl rfl ho _) rfl (need_true (by simp [h1, hspare])) (fun no => nomatch no) rfl rfl rfl h.same
    · change onMail p s (fun d pn => d.activateFw pn slot.toNat false) = _
      exact onMail_effect h ht 0x0202 false rfl (CSpec.permits_owner rfl rfl ho _) rfl (need_true (by simp [h1, hspare])) (fun no => nomatch no) rfl rfl rfl h.same
    · change onMail p s (fun d pn => d.activateFw pn slot.toNat true) = _
      have posted : s.dev.post 7 [1, 0, 0, slot.toNat - 1, 0] ((s.dev.flash.bank (slot.toNat - 1)).sy.getD {}) =
          ((1, s.dev.tlh.nextTicket, 0), (s.dev.post 7 [1, 0, 0, slot.toNat - 1, 0] ((s.dev.flash.bank (slot.toNat - 1)).sy.getD {})).2) := by
        simp [Dev.post, hbusy, Nat.not_le.2 hroom]
      have kept : (s.dev.post 7 [1, 0, 0, slot.toNat - 1, 0] ((s.dev.flash.bank (slot.toNat - 1)).sy.getD {})).2.Rest := by
        unfold Dev.post
        split
        · exact h
        · split
          · exact h
          · exact h.same
      refine onMail_effect h ht 0x0202 false rfl (CSpec.permits_owner rfl rfl ho _) rfl (need_true (by simp [h1, hspare])) (fun no => nomatch no) ?_ rfl rfl
        (Dev.Rest.startBg kept.same _ _ _)
      rw [if_neg (by decide), Dev.bgConflict_none hb fun _ _ _ _ => rfl]
      dsimp only
      rw [posted]
      rfl
  · intro k x hup hst hk
    change onDev s (fun d => d.pldm (.bank x)) = _
    refine onDev_ends ?_ h.same
    simp [Dev.pldm, hst, hup, hk]
  · intro k x hup
    change onDev s (fun d => d.pldm (.pilot k x)) = _
    refine onDev_ends ?_ (h.modPlt _ (rises_tput _ _ _ _ h.tidy.plt))
    simp [Dev.pldm, hup]
  · intro a data n k ht hw hi hr ha has hs hf hd hm
    have rest : (s.dev.poisonCleared n (s.dev.homeOf (a.toNat / 4096)) k a.toNat data).Rest := Dev.poisonCleared_rest h _ _ _ _ _
    obtain ⟨mem, slc, -, pm⟩ := (s.dev.poisonCleared n (s.dev.homeOf (a.toNat / 4096)) k a.toNat data).acted.answerPath_keeps (pathNo p) .good
    refine ⟨_, Dev.clearPoison_hit h ht hw hi hr ha has hs hf hd hm, mem, pm, Dev.path_answerPath rest.acted _ _, ?_⟩
    rw [State.to_dev, Dev.ms_of_slc slc]
    refine Dev.get_modW_put h _ k fun none => ?_
    have dirty := congrArg WLine.st none
    rw [WLine.cleared, hd] at dirty
    cases dirty
  · intro ht hw ho hb hr hp
    obtain ⟨keys, disabled⟩ := Dev.wiped_keys h
    exact ⟨_, Dev.sanitize_wipes h ht hw ho hb hr hp, keys.sanitized disabled rfl⟩
  · intro b hb hbusy hop
    change onDev s (fun d => d.bgComplete1 (pathNo p) 0 {}) = _
    refine onDev_ends ?_ (h.endBg _ _)
    unfold Dev.bgComplete1
    rw [hb]
    dsimp only
    rw [if_neg (by rw [hbusy]; decide)]
    rcases hop with op | ⟨page, left, op, none⟩ | ⟨id, op, off⟩
    · rw [op]
    · rw [op]
      dsimp only
      have noPages : ((s.dev.pm.ents.map (·.1)).filter fun q => decide (page ≤ q) && decide (q < page + left)) = [] :=
        List.filter_eq_nil_iff.2 fun q hq => by
          obtain ⟨x, hx, rfl⟩ := List.mem_map.1 hq
          simpa using none x hx
      rw [Dev.scanPages, noPages]
      rfl
    · rw [op]
      dsimp only
      rw [if_neg (by rw [off]; decide)]

end Sys2Proof.Machine
end

section

/-! O43: the reading commands of the sets C4h to C9h (R373, R376 to R385, R463). -/

namespace Sys2Proof.Machine

/-- R358, R359: a command of a Rhaboind set that reads and may be issued answers what it computes. -/
theorem onMail_answers {s : State} {p : CmdPath} (h : s.dev.Rest) (ht : s.dev.takes (pathNo p) = true) {f : Dev → Nat → Dev} (c : CSpec) {n : Nat}
    {fields : Role → Option Ans} {act : Role → Ans × Dev} {a : Ans} {e : Dev}
    (hf : f s.dev (pathNo p) = s.dev.command (pathNo p) c n fields act) (hp : c.permits (s.dev.role (pathNo p)) (pathNo p) = true) (hl : c.len = some n)
    (active : c.active = true → s.dev.works = true) (hfields : fields (s.dev.role (pathNo p)) = none) (hact : act (s.dev.role (pathNo p)) = (a, e)) (he : e.Rest)
    (reads : c.effect = false := by rfl) (ha : a.dcode = 0 := by rfl) :
    onMail p s f = .next (s.to (e.answerPath (pathNo p) a)) := by
  refine onMail_to h ht (hf.trans ?_) (he.answerPath _ _)
  rw [s.dev.command_takes h ht c n fields act hp (fun l hn => by rw [hl] at hn; exact Option.some.inj hn) hfields active, hact,
    Dev.close_read _ _ _ _ reads ha]

/-- Table 12.7: a command of the three roles. -/
theorem CSpec.permits_roles {c : CSpec} (hp : c.p = true) (ht : c.t = true) (ho : c.o = true) (hc : c.cci = false) (r : Role) (pn : Nat) :
    c.permits r pn = true := by
  unfold CSpec.permits
  cases r with
  | owner => dsimp only; rw [hp, hc]; rfl
  | tenant n => dsimp only; rw [ht, hc]; rfl
  | operator => dsimp only; rw [ho, hc]; rfl

/-- A path's limit stays when its snapshot changes. -/
theorem Dev.limitOf_modPath {d : Dev} (h : d.Rest) (n m : Nat) (f : CPath → CPath) (hf : ∀ x, (f x).limit = x.limit) :
    (d.modPath n f).limitOf m = d.limitOf m := by
  unfold Dev.limitOf
  rw [Dev.path_modPath h]
  split <;> simp [*]

/-- Settles O43: each command is one that reads. -/
theorem rhaboindReadsAnswerFromState : Obligations.RhaboindReadsAnswerFromState := by
  unfold Obligations.RhaboindReadsAnswerFromState
  intro s p y hrest ht
  dsimp only
  have h := s.dev.atRest_iff.1 hrest
  refine ⟨?_, ?_, ?_, ?_, ?_, ?_, ?_, ?_, ?_, ?_, ?_, ?_⟩
  · intro len first most least which rsv all
    change onMail p s (fun d pn => d.getExtents pn y) = _
    refine onMail_answers h ht _ (by rw [Dev.getExtents]) (by exact CSpec.permits_roles rfl rfl rfl rfl _ _) (by rw [len]) (by exact fun no => nomatch no) ?_ ?_ h
    · refine need_true ?_
      cases s.dev.role (pathNo p) <;> simp [first, most, least, which, rsvd, rsv, all]
    · dsimp only
      cases s.dev.role (pathNo p) <;> simp only [all, if_true] <;> grind
  · intro len first most least rsv
    change onMail p s (fun d pn => d.ctxRecords pn y) = _
    exact onMail_answers h ht _ (by rw [Dev.ctxRecords]) (by exact CSpec.permits_roles rfl rfl rfl rfl _ _) (by rw [len]) (by exact fun no => nomatch no)
      (by exact need_true (by simp [first, most, least, rsvd, rsv])) rfl h
  · intro len first some last rsv owner
    change onMail p s (fun d pn => d.getClasses pn y) = _
    refine onMail_answers h ht _ (by rw [Dev.getClasses]) (by exact CSpec.permits_roles rfl rfl rfl rfl _ _) (by rw [len]) (by exact fun no => nomatch no)
      (by exact need_true (by simp [first, some, last, rsvd, rsv])) ?_ h
    rw [owner]
    rfl
  · intro len least most last rsv
    change onMail p s (fun d pn => d.getParam pn y) = _
    exact onMail_answers h ht _ (by rw [Dev.getParam]) (by exact CSpec.permits_roles rfl rfl rfl rfl _ _) (by rw [len]) (by exact fun no => nomatch no)
      (by exact need_true (by simp [least, most, last, rsvd, rsv])) rfl h
  · intro c len hy gen
    subst gen hy
    change onMail p s (fun d pn => d.manifest pn _) = _
    refine onMail_answers h ht _ (by rw [Dev.manifest]) (by exact CSpec.permits_roles rfl rfl rfl rfl _ _) rfl (by exact fun no => nomatch no) (by decide) ?_
      (Dev.Rest.modPath h.same _ _)
    rw [if_pos (show fld (le 4 0 ++ zeros 4) 0 4 = 0 by decide)]
    exact Prod.ext (congrArg (fun k => Ans.good (List.take k _)) (Dev.limitOf_modPath (Dev.Rest.same h) _ _ _ fun _ => rfl)) rfl
  · intro hy user
    subst hy
    change onMail p s (fun d pn => d.getPower pn _) = _
    exact onMail_answers h ht _ (by rw [Dev.getPower]) (by exact CSpec.permits_all rfl rfl rfl user _) rfl (by exact fun no => nomatch no) rfl rfl h
  · intro owner works len page least most rsv inside
    change onMail p s (fun d pn => d.getEntries pn y) = _
    exact onMail_answers h ht _ (by rw [Dev.getEntries]) (by exact CSpec.permits_owner rfl rfl owner _) (by rw [len]) (by exact fun _ => works)
      (by exact need_true (by simp [page, least, most, rsvd, rsv, inside])) rfl h
  · intro owner works len sec rsv1 first rsv4
    change onMail p s (fun d pn => d.capacityStatus pn y) = _
    refine onMail_answers h ht _ (by rw [Dev.capacityStatus]) (by exact CSpec.permits_owner rfl rfl owner _) (by rw [len]) (by exact fun _ => works)
      (by exact need_true (by simp [sec, first, rsvd, rsv1, rsv4])) ?_ h
    dsimp only
    simp only [sec, if_true]
  · intro owner works len cls rsv
    change onMail p s (fun d pn => d.occupancy pn y) = _
    exact onMail_answers h ht _ (by rw [Dev.occupancy]) (by exact CSpec.permits_owner rfl rfl owner _) (by rw [len]) (by exact fun _ => works)
      (by exact need_true (by simp [cls, rsvd, rsv])) rfl h
  · intro owner len least most rsv
    change onMail p s (fun d pn => d.getFaults pn y) = _
    refine onMail_answers h ht _ (by rw [Dev.getFaults]) (by exact CSpec.permits_owner rfl rfl owner _) (by rw [len]) (by exact fun no => nomatch no)
      (by exact need_true (by simp [least, most, rsvd, rsv])) ?_ h
    dsimp only
    cases ((s.dev.lko.recs.filter fun x => decide (fld y 0 4 ≤ x.seq)).take (s.dev.fit (pathNo p) 64 (fld y 4 2))).getLast? <;> rfl
  · intro owner hy
    subst hy
    change onMail p s (fun d pn => d.getGangway pn _) = _
    exact onMail_answers h ht _ (by rw [Dev.getGangway]) (by exact CSpec.permits_owner rfl rfl owner _) rfl (by exact fun no => nomatch no) rfl rfl h
  · intro owner len most
    change onMail p s (fun d pn => d.getPlog pn y) = _
    refine onMail_answers h ht _ (by rw [Dev.getPlog]) (by exact CSpec.permits_owner rfl rfl owner _) (by rw [len]) (by exact fun no => nomatch no)
      (by exact need_true (by simp [most])) ?_ h
    dsimp only
    cases (fitEntries (min (fld y 4 4) (s.dev.limitOf (pathNo p) - 8)) (s.dev.plog.ents.filter fun e => decide (fld y 0 4 ≤ e.lseq))).getLast? <;> rfl

end Sys2Proof.Machine
end

section

/-! O44: the commands of set C4h that change pages, pins, epochs, Adrift lines and host queues (R109, R128, R187, R198, R230, R346, R373, R374). -/

namespace Sys2Proof.Machine

theorem Dev.command_acts {d : Dev} (h : d.Rest) {pn : Nat} (ht : d.takes pn = true) (c : CSpec) {n : Nat} {fields : Role → Option Ans}
    {act : Role → Ans × Dev} {a : Ans} {e : Dev} (hp : c.permits (d.role pn) pn = true) (hl : c.len = some n) (active : c.active = true → d.works = true)
    (hfields : fields (d.role pn) = none) (hact : act (d.role pn) = (a, e)) (acts : c.effect = true) (hr : a.rc.did = true) (ha : a.dcode = 0) :
    d.command pn c n fields act = e.acted.answerPath pn a := by
  rw [d.command_takes h ht c n fields act hp (fun l hn => by rw [hl] at hn; exact Option.some.inj hn) hfields active, hact, Dev.close_effect _ _ _ _ acts hr ha]

/-- R358, R359: a command of a Rhaboind set that sets something and may be issued does so, is counted and answered. -/
theorem onMail_acts {s : State} {p : CmdPath} (h : s.dev.Rest) (ht : s.dev.takes (pathNo p) = true) {f : Dev → Nat → Dev} (c : CSpec) {n : Nat}
    {fields : Role → Option Ans} {act : Role → Ans × Dev} {a : Ans} {e : Dev}
    (hf : f s.dev (pathNo p) = s.dev.command (pathNo p) c n fields act)
    (hp : c.permits (s.dev.role (pathNo p)) (pathNo p) = true) (hl : c.len = some n) (active : c.active = true → s.dev.works = true)
    (hfields : fields (s.dev.role (pathNo p)) = none) (hact : act (s.dev.role (pathNo p)) = (a, e)) (he : e.Rest)
    (acts : c.effect = true := by rfl) (hr : a.rc.did = true := by rfl) (ha : a.dcode = 0 := by rfl) :
    onMail p s f = .next (s.to (e.acted.answerPath (pathNo p) a)) :=
  onMail_to h ht (hf.trans (Dev.command_acts h ht c hp hl active hfields hact acts hr ha)) (he.acted.answerPath _ _)

/-- The same, with the internal work that follows left standing. -/
theorem onMail_acts_settle {s : State} {p : CmdPath} (h : s.dev.Rest) (ht : s.dev.takes (pathNo p) = true) {f : Dev → Nat → Dev} (c : CSpec) {n : Nat}
    {fields : Role → Option Ans} {act : Role → Ans × Dev} {a : Ans} {e : Dev}
    (hf : f s.dev (pathNo p) = s.dev.command (pathNo p) c n fields act)
    (hp : c.permits (s.dev.role (pathNo p)) (pathNo p) = true) (hl : c.len = some n) (active : c.active = true → s.dev.works = true)
    (hfields : fields (s.dev.role (pathNo p)) = none) (hact : act (s.dev.role (pathNo p)) = (a, e))
    (hb : (settle s.dev (e.acted.answerPath (pathNo p) a)).blow = 0#2048)
    (acts : c.effect = true := by rfl) (hr : a.rc.did = true := by rfl) (ha : a.dcode = 0 := by rfl) :
    onMail p s f = .next (s.to (settle s.dev (e.acted.answerPath (pathNo p) a))) :=
  onMail_settle h ht (hf.trans (Dev.command_acts h ht c hp hl active hfields hact acts hr ha)) hb

/-! Pilot events. -/

theorem tget_of_mem {α : Type} (z : α) {t : Tbl α} {lo : Nat} (h : Tbl.risesFrom lo t = true) {x : Nat × α} (hx : x ∈ t) : tget z t x.1 = x.2 ∧ lo ≤ x.1 := by
  induction t generalizing lo with
  | nil => cases hx
  | cons y t ih =>
    obtain ⟨k, w⟩ := y
    simp only [Tbl.risesFrom, Bool.and_eq_true, decide_eq_true_eq] at h
    rcases List.mem_cons.1 hx with rfl | hx
    · exact ⟨by simp [tget], h.1⟩
    · obtain ⟨value, above⟩ := ih h.2 hx
      refine ⟨?_, by omega⟩
      rw [tget, if_neg (by omega), value]

/-- R437: an event is told to no module when none runs. -/
theorem Dev.tellPilots_idle {d : Dev} (h : Tbl.rises d.plt = true) (idle : ∀ k, (d.pilot k).run = none) (kind arg : Nat) : d.tellPilots kind arg = d := by
  have keep : d.plt.map (fun x => (x.1, x.2.push kind arg)) = d.plt := by
    refine (List.map_congr_left fun x hx => ?_).trans (List.map_id d.plt)
    have run : x.2.run = none := by
      rw [← (tget_of_mem {} h hx).1]
      exact idle x.1
    simp [Pilot.push, run]
  unfold Dev.tellPilots
  rw [keep]

theorem foldl_modMs_plt (f : Nat → Slice → Slice) (ns : List Nat) (d : Dev) : (ns.foldl (fun d n => d.modMs n (f n)) d).plt = d.plt := by
  induction ns generalizing d with
  | nil => rfl
  | cons n ns ih => rw [List.foldl_cons, ih]; rfl

/-- R128: giving every slice the next epoch leaves the page map's own epoch, so each slice takes the same one. -/
theorem foldl_modMs_epoch (ns : List Nat) (d : Dev) : ns.foldl (fun d n => d.modMs n fun x => { x with epoch := d.pm.epoch + 1#4 }) d =
    ns.foldl (fun e n => e.modMs n fun x => { x with epoch := d.pm.epoch + 1#4 }) d := by
  induction ns generalizing d with
  | nil => rfl
  | cons n ns ih => rw [List.foldl_cons, List.foldl_cons, ih]; rfl

theorem Dev.Rest.epoch {e : Dev} (h : e.Rest) (epoch : BitVec 4) (sweep : Bool) : ({ e with pm := { e.pm with epoch, sweep } } : Dev).Rest := h.same

theorem Dev.tellPilots_pm {d e : Dev} (plt : e.plt = d.plt) (h : Tbl.rises d.plt = true) (idle : ∀ k, (d.pilot k).run = none) (pm : PageMap) (kind arg : Nat) :
    ({ e with pm } : Dev).tellPilots kind arg = { e with pm } := by
  refine Dev.tellPilots_idle ?_ (fun k => ?_) kind arg
  · exact (congrArg Tbl.rises plt).trans h
  · exact (congrArg (fun t => (tget ({} : Pilot) t k).run) plt).trans (idle k)

/-- R230: with every filter empty no line is Adrift. -/
theorem noLines_of_emptyFilters {slc : Tbl Slice} (empty : ∀ x ∈ slc, x.2.filt = {}) (adrift : List FEnt → List Nat) (nil : adrift [] = []) :
    (slc.flatMap fun s => adrift ((s.2.filt.ents.map (·.2)).filter (·.valid)) ++ adrift s.2.filt.store) = [] := by
  refine List.flatMap_eq_nil_iff.2 fun x hx => ?_
  rw [empty x hx]
  exact (congrArg₂ (· ++ ·) nil nil)

/-- Settles O44. -/
theorem tieringCommandsTakeEffect : Obligations.TieringCommandsTakeEffect := by
  unfold Obligations.TieringCommandsTakeEffect
  intro s p y hrest ht owner works
  dsimp only
  have h := s.dev.atRest_iff.1 hrest
  refine ⟨?_, ?_, ?_, ?_, ?_, ?_, ?_⟩
  · intro sweep idle
    change onMail p s (fun d pn => d.advanceEpoch pn []) = _
    refine onMail_acts h ht _ (by rw [Dev.advanceEpoch]) (by exact CSpec.permits_owner rfl rfl owner _) rfl (by exact fun _ => works) rfl ?_ ?_
    · rw [if_neg (by rw [sweep]; decide)]
      dsimp only
      rw [foldl_modMs_epoch]
      exact congrArg (Prod.mk _) (Dev.tellPilots_pm (foldl_modMs_plt _ _ _) h.tidy.plt idle _ _ _)
    · exact Dev.Rest.epoch (foldl_rest _ (fun d n hd => hd.modMs n _) _ _ h) _ _
  · intro len page one value rsv inside differs
    change onMail p s (fun d pn => d.setPagePin pn y) = _
    refine onMail_acts h ht _ (by rw [Dev.setPagePin]) (by exact CSpec.permits_owner rfl rfl owner _) (by rw [len]) (by exact fun _ => works)
      (by exact need_true (by simp [page, one, value, rsvd, rsv, inside])) ?_ (h.setEnt _ _)
    have picked : ((List.range 1).map fun i => fld y 0 8 / 4096 + i).filter (fun q => (s.dev.ent q).pin != decide (fld y 12 1 = 1)) = [fld y 0 8 / 4096] := by
      simp [List.range_succ, differs]
    dsimp only
    rw [one, picked]
    rfl
  · intro len page one value rsv inside granted pinned hb
    change onMail p s (fun d pn => d.wharfPin pn y) = _
    refine onMail_acts_settle h ht _ (by rw [Dev.wharfPin]) (by exact CSpec.permits_owner rfl rfl owner _) (by rw [len]) (by exact fun _ => works)
      (by exact need_true (by simp [page, one, value, rsvd, rsv, inside])) ?_ hb
    simp only [one, granted, value, if_true, List.range_succ, List.range_zero, List.nil_append, List.map_cons, List.map_nil, List.foldl_cons,
      List.foldl_nil, Nat.add_zero, Nat.reduceDiv, pinned]
    rfl
  · intro op len first last least rsv inside granted idle which hb
    change onMail p s (fun d pn => d.wharfMaint pn y) = _
    have code : fld y 16 1 = 1 ∨ fld y 16 1 = 2 := which.imp And.left And.left
    have named : (if fld y 16 1 = 1 then MaintOp.clean else .invalidate) = op := by
      rcases which with ⟨k, rfl⟩ | ⟨k, rfl⟩ <;> simp [k]
    refine onMail_acts_settle h ht _ (by rw [Dev.wharfMaint]) (by exact CSpec.permits_owner rfl rfl owner _) (by rw [len]) (by exact fun _ => works)
      (by exact need_true (by simp [first, last, least, rsvd, rsv, inside, code])) ?_ hb
    dsimp only
    rw [granted, named]
    exact Dev.background_starts (Dev.bgConflict_none idle fun _ _ _ _ => rfl) _ _ _
  · intro len first last least mode rsv inside empty
    change onMail p s (fun d pn => d.clearAdriftCmd pn y) = _
    refine onMail_acts h ht _ (by rw [Dev.clearAdriftCmd]) (by exact CSpec.permits_owner rfl rfl owner _) (by rw [len]) (by exact fun _ => works)
      (by exact need_true (by simp [first, last, least, mode, rsvd, rsv, inside])) ?_ h
    dsimp only
    rw [noLines_of_emptyFilters empty _ rfl]
    rfl
  · intro len all value rsv idle
    change onMail p s (fun d pn => d.pageAudit pn y) = _
    have mine : (s.dev.path (pathNo p)).bg = none := by
      rcases tget_mem ({} : CPath) s.dev.mg.paths (pathNo p) with free | ⟨x, hx, is⟩
      · exact congrArg CPath.bg free
      · exact (congrArg CPath.bg is).trans (idle x hx)
    refine onMail_acts h ht _ (by rw [Dev.pageAudit]) (by exact CSpec.permits_owner rfl rfl owner _) (by rw [len]) (by exact fun _ => works)
      (by exact need_true (by simp [all, value, rsvd, rsv])) ?_ (h.startBg _ _ _)
    rw [if_pos all]
    exact Dev.background_starts (Dev.bgConflict_none mine fun x hx b hb => by rw [idle x hx] at hb; cases hb) _ _ _
  · intro len landing inUse rsv
    refine ⟨fun allow => ?_, fun forbid enabled free => ?_⟩
    · change onMail p s (fun d pn => d.hostQueue pn y) = _
      refine onMail_acts h ht _ (by rw [Dev.hostQueue]) (by exact CSpec.permits_owner rfl rfl owner _) (by rw [len]) (by exact fun _ => works)
        (by exact need_true (by simp [landing, inUse, allow, rsvd, rsv])) ?_ (h.modBg _ _)
      refine congrArg (Prod.mk _) (Dev.modBg_congr _ _ _ _ ?_)
      simp [allow]
    · change onMail p s (fun d pn => d.hostQueue pn y) = _
      refine onMail_acts h ht _ (by rw [Dev.hostQueue]) (by exact CSpec.permits_owner rfl rfl owner _) (by rw [len]) (by exact fun _ => works)
        (by exact need_true (by simp [landing, inUse, forbid, rsvd, rsv])) ?_ (h.modBg _ _)
      refine congrArg (Prod.mk _) (Dev.modBg_congr _ _ _ _ ?_)
      simp [forbid, enabled, BrgCh.disable, free]

end Sys2Proof.Machine
end

section

/-! O45: where the statement about the setting commands fails (R391). -/

namespace Sys2Proof.Machine

/-- An active device over its I3C path; a way conversion runs, and a value is kept that p0171 would take at a later reset. -/
def converting : State :=
  { dev := { active := true, fmnBusy := false, fmn := { st := .running }, boot := { phase := .active }, pwr := { st := .underway }, moor := { i3c := some 9 }
             mg := { pend := [(0x171, some 2)], convTo := some 3 } } }

/-- A request that sets parameter 0160 to 12. -/
def set0160 : List Byte := le 2 1 ++ zeros 6 ++ le 2 0x160 ++ zeros 6 ++ le 8 12

/-- Parameter 0160 is set while p0171 does not stand at the value kept for it: the command is answered Busy. -/
theorem setParameter_busy : (ended (exec (.setParameter .i3c set0160) converting)).map (fun d => (d.path 32).ans.rc) = some .busy := by decide +kernel

/-- Refutes O45: the statement has every parameter other than p0171 set, but while a way conversion runs Set Parameter is answered Busy whenever the value kept for p0171
differs from its present one, whatever the parameter it names. The statement leaves open which values the state keeps for later. -/
theorem not_deviceSettingsTakeEffect : ¬ Obligations.DeviceSettingsTakeEffect := by
  unfold Obligations.DeviceSettingsTakeEffect
  intro h
  obtain ⟨-, -, -, -, -, -, param, -⟩ := h converting .i3c set0160 (by decide +kernel) (by decide +kernel) (by decide +kernel) (by decide +kernel)
  have set := congrArg (fun o => (ended o).map fun d => (d.path 32).ans.rc) (param 0x160 12 (by decide +kernel) (by decide +kernel) (by decide +kernel)
    (by decide +kernel) (by decide +kernel) (by decide +kernel) (by decide +kernel) (by decide +kernel) (by decide +kernel) (by decide +kernel) (by decide +kernel)
    (by decide +kernel))
  rw [setParameter_busy] at set
  exact absurd set (by decide +kernel)

end Sys2Proof.Machine
end

section

/-! O42: capacity is offered, accepted, released and withdrawn (R87 to R92, R371, R372). -/

namespace Sys2Proof.Machine

/-! What follows a command that changes extent records: the check for overcommit (R87) and nothing else. -/

/-- Nothing of the work inside the block waits at a device at rest whose records have changed. -/
theorem Dev.calm_ext {d : Dev} (h : d.Rest) (x : Extents) : ({ d with ext := x } : Dev).calm = { d with ext := x } := by
  have fences : Dev.applyFences fenceFuel ({ d with ext := x } : Dev) = { d with ext := x } := by
    simp [fenceFuel, Dev.applyFences, h.fence]
  have colls : ({ d with ext := x } : Dev).finishColls = { d with ext := x } := foldl_keep _ _ _ fun y hy => by rw [(h.slc y hy).2.1]; rfl
  have waits : ({ d with ext := x } : Dev).retryAll = { d with ext := x } := foldl_keep _ _ _ fun y hy => by rw [(h.slc y hy).1]; rfl
  have credits : ({ d with ext := x } : Dev).grantCredits = { d with ext := x } := foldl_keep _ _ _ fun y hy => by rw [(h.slc y hy).2.2]; rfl
  have pumped : ({ d with ext := x } : Dev).pumpAll = { d with ext := x } := by
    unfold Dev.pumpAll
    rw [map_pump d.lnd h.lnd]
  unfold Dev.calm
  dsimp only
  rw [fences]
  split
  · rfl
  · rw [colls, waits, credits, pumped, fences]

theorem Dev.retirePending_ext {d : Dev} (h : d.Rest) (x : Extents) : ({ d with ext := x } : Dev).retirePending = { d with ext := x } := by
  unfold Dev.retirePending
  rcases h.chn with busy | none
  · exact if_pos busy
  · split
    · rfl
    · refine foldl_keep _ _ _ fun y hy => ?_
      have empty : (d.ch y.1).retQ = [] := by
        rcases tget_mem ({} : Chan) d.chn y.1 with free | ⟨z, hz, is⟩
        · exact congrArg Chan.retQ free
        · exact (congrArg Chan.retQ is).trans (none z hz)
      dsimp only
      rw [show (({ d with ext := x } : Dev).ch y.1).retQ = [] from empty]
      rfl

/-- Syust has nothing to log of a device at rest, whatever its extent records, its events and its count of changes. -/
theorem Dev.syustLogs_ext {d : Dev} (h : d.Rest) (x : Extents) (pool : Logs) (mg : Mgmt) : ({ d with ext := x, pool, mg } : Dev).syustLogs = { d with ext := x, pool, mg } := by
  unfold Dev.syustLogs
  rcases h.recs with busy | held
  · exact if_pos busy
  · split
    · rfl
    · obtain ⟨logged, acked⟩ := held_keep _ held
      rw [logged]
      dsimp only
      rw [acked]
      rfl

/-- R87: the check for overcommit changes the mark and the Pool owner's events. -/
theorem Dev.overcommit_ext (d : Dev) (x : Extents) : ∃ ovr pool stateseq,
    ({ d with ext := x } : Dev).overcommit = { d with ext := { x with ovr }, pool, mg := { d.mg with stateseq } } := by
  unfold Dev.overcommit
  split
  · exact ⟨x.ovr, d.pool, d.mg.stateseq, rfl⟩
  · dsimp only
    split
    · exact ⟨x.ovr, d.pool, d.mg.stateseq, rfl⟩
    · split
      · exact ⟨_, _, _, rfl⟩
      · exact ⟨_, d.pool, d.mg.stateseq, rfl⟩

theorem settle_ext (old : Dev) {d : Dev} (h : d.Rest) (x : Extents) : ∃ ovr pool stateseq,
    settle old ({ d with ext := x } : Dev) = { d with ext := { x with ovr }, pool, mg := { d.mg with stateseq } } := by
  obtain ⟨ovr, pool, stateseq, checked⟩ := d.overcommit_ext x
  have watched : Dev.entryWatch old ({ d with ext := x } : Dev) = { d with ext := x } := by
    unfold Dev.entryWatch
    rw [h.entry]
  refine ⟨ovr, pool, stateseq, ?_⟩
  unfold settle
  rw [Dev.calm_ext h, watched, Dev.retirePending_ext h, checked]
  exact Dev.syustLogs_ext h _ _ _

theorem Dev.answerPath_ext (d : Dev) (x : Extents) (pn : Nat) (a : Ans) : ({ d with ext := x } : Dev).answerPath pn a = { d.answerPath pn a with ext := x } := by
  unfold Dev.answerPath
  dsimp only
  split
  · split <;> rfl
  · rfl

/-- A mailbox command that changes the extent records of a device at rest leaves them so and answers. -/
theorem onMail_ext {s : State} {p : CmdPath} (h : s.dev.Rest) (ht : s.dev.takes (pathNo p) = true) {f : Dev → Nat → Dev} {d : Dev} (hd : d.Rest) (x : Extents)
    (hf : f s.dev (pathNo p) = ({ d with ext := x } : Dev).acted.answerPath (pathNo p) .good) :
    ∃ t, onMail p s f = .next t ∧ t.dev.ext.recs = x.recs ∧ (t.dev.path (pathNo p)).ans = .good := by
  have answered : ({ d with ext := x } : Dev).acted.answerPath (pathNo p) .good = { d.acted.answerPath (pathNo p) .good with ext := x } :=
    d.acted.answerPath_ext x (pathNo p) .good
  have rest := hd.acted.answerPath (pathNo p) .good
  obtain ⟨ovr, pool, stateseq, settled⟩ := settle_ext s.dev rest x
  refine ⟨_, onMail_settle h ht (hf.trans answered) ?_, ?_, ?_⟩
  · rw [settled]
    exact rest.blow
  · exact congrArg (fun e : Dev => e.ext.recs) settled
  · exact (congrArg (fun e : Dev => (e.path (pathNo p)).ans) settled).trans (Dev.path_answerPath hd.acted (pathNo p) .good)

/-- One record takes another state; that state is not Free. -/
theorem onMail_record {s : State} {p : CmdPath} (h : s.dev.Rest) (ht : s.dev.takes (pathNo p) = true) {f : Dev → Nat → Dev} {d : Dev} (hd : d.Rest) (offers : List Offer)
    (same : d.ext = s.dev.ext) {k : Nat} {st : ExtSt} (used : st ≠ .free)
    (hf : f s.dev (pathNo p) = ({ d with ext := { d.ext with offers, recs := tmod {} d.ext.recs k fun r => { r with st } } } : Dev).acted.answerPath (pathNo p) .good) :
    ∃ t, onMail p s f = .next t ∧ t.dev.xrec k = { s.dev.xrec k with st } ∧ (∀ j, j ≠ k → t.dev.xrec j = s.dev.xrec j) ∧ (t.dev.path (pathNo p)).ans = .good := by
  obtain ⟨t, next, recs, ans⟩ := onMail_ext h ht hd _ hf
  rw [same] at recs
  refine ⟨t, next, ?_, fun j hj => ?_, ans⟩
  · unfold Dev.xrec
    rw [recs]
    exact tget_tput_same _ _ (fun free => used (congrArg ExtRec.st free)) _ _
  · unfold Dev.xrec
    rw [recs]
    exact tget_tput_ne _ _ _ hj

theorem Dev.xrec_modRec_st (d : Dev) (k : Nat) {st : ExtSt} (used : st ≠ .free) : (d.modRec k fun r => { r with st }).xrec k = { d.xrec k with st } :=
  tget_tput_same (α := ExtRec) {} _ (fun free => used (congrArg ExtRec.st free)) _ _

/-- R93: a record that other landings do not share is released without a snoop. -/
theorem Dev.releaseRec_alone {d : Dev} {k : Nat} (alone : (d.xrec k).shared = false) : d.releaseRec k = d.modRec k fun r => { r with st := .releasing } := by
  unfold Dev.releaseRec Dev.drainSnoops
  dsimp only
  rw [d.xrec_modRec_st k (by decide)]
  simp [alone]

theorem Dev.evHost_ext (d : Dev) (n : Nat) (k : EvKind) (args : List Nat) (sev : Nat) : (d.evHost n k args sev).ext = d.ext := by
  unfold Dev.evHost
  dsimp only
  split <;> rfl

/-- R358, R359: a standard command that sets something and succeeds. -/
theorem Dev.std_good {d : Dev} (h : d.Rest) {pn : Nat} (ht : d.takes pn = true) (op : Nat) (active : Bool) {fields : Role → Option Ans} {act : Role → Ans × Dev} {e : Dev}
    (hp : (stdSpec op active true).permits (d.role pn) pn = true) (hl : (stdSpec op active true).len = none) (hfields : fields (d.role pn) = none)
    (hw : active = true → d.works = true) (hact : act (d.role pn) = (.good, e)) : d.std1 pn op active true fields act = e.acted.answerPath pn .good := by
  rw [Dev.std_effect h ht op active fields act hp hl hfields hw (by rw [hact]; rfl) (by rw [hact]; rfl), hact]

/-- R91: the host takes the one offer that stands. -/
theorem Dev.addResponse_one {d : Dev} (h : d.Rest) {pn n k : Nat} (ht : d.takes pn = true) {x : Nat × Nat} {l : Nat} (role : d.role pn = .tenant n)
    (found : d.recOf n .offered x = some k) (offer : d.ext.offers = [{ ld := n, recs := [k], limit := l }]) :
    d.addResponse pn [x] = ({ d with ext := { d.ext with offers := [], recs := tmod {} d.ext.recs k fun r => { r with st := .granted } } } : Dev).acted.answerPath pn .good := by
  refine Dev.std_good h ht 0x4802 false (CSpec.permits_tenant rfl rfl role _) rfl rfl (fun no => nomatch no) ?_
  simp [role, Role.landing, found, offer, Dev.modRec, List.eraseDups_cons]

theorem Dev.dcRelease_one {d : Dev} (h : d.Rest) {pn n k : Nat} (ht : d.takes pn = true) {x : Nat × Nat} (role : d.role pn = .tenant n)
    (found : d.recOf n .granted x = some k) (alone : (d.xrec k).shared = false) :
    d.dcRelease pn [x] = (d.modRec k fun r => { r with st := .releasing }).acted.answerPath pn .good := by
  refine Dev.std_good h ht 0x4803 false (CSpec.permits_tenant rfl rfl role _) rfl rfl (fun no => nomatch no) ?_
  simp [role, Role.landing, found, Dev.releaseRec_alone alone, List.eraseDups_cons]

/-- R92: what the Pool owner's release of one record does, forced or asked for. -/
theorem Dev.initiateRelease_one {d : Dev} (h : d.Rest) {pn k : Nat} (ht : d.takes pn = true) {x : Nat × Nat} {q : DcReq} (role : d.role pn = .owner)
    (works : d.works = true) (low : q.ld < 16) (ok : d.extentsOk q.exts = true) (one : q.exts = [x]) (found : d.recOf q.ld .granted x = some k) (force : Bool) :
    d.initiateRelease pn q force = (if force then
      (d.evHost q.ld .forcedRelease [k, (d.xrec k).base, (d.xrec k).nblk1 + 1] 4).releaseRec k
      else d.evHost q.ld .releaseCapacity [k, (d.xrec k).base, (d.xrec k).nblk1 + 1] 4).acted.answerPath pn .good := by
  refine Dev.std_good h ht 0x5605 true (CSpec.permits_owner rfl rfl role _) rfl (need_true (by simp [low, ok])) (fun _ => works) ?_
  cases force <;> simp [one, found, List.eraseDups_cons]

/-- Settles O42. -/
theorem capacityMovesByItsCommands : Obligations.CapacityMovesByItsCommands := by
  unfold Obligations.CapacityMovesByItsCommands
  intro s p hrest ht
  dsimp only
  have h := s.dev.atRest_iff.1 hrest
  refine ⟨fun n k x role => ⟨fun found => ?_, fun found alone => ?_⟩, fun owner => ⟨fun q k works low ok => ⟨fun sound hb => ?_, fun x one found => ⟨?_, fun alone => ?_⟩⟩, ?_, ?_⟩⟩
  · rintro ⟨l, offer⟩
    change ∃ t, onMail p s (fun d pn => d.addResponse pn [x]) = .next t ∧ _
    exact onMail_record h ht h [] rfl (by decide) (Dev.addResponse_one h ht role found offer)
  · change ∃ t, onMail p s (fun d pn => d.dcRelease pn [x]) = .next t ∧ _
    exact onMail_record h ht h s.dev.ext.offers rfl (by decide) (Dev.dcRelease_one h ht role found alone)
  · change onMail p s (fun d pn => d.initiateAdd pn q) = _
    refine onMail_settle h ht (Dev.std_good h ht 0x5604 true (CSpec.permits_owner rfl rfl owner _) rfl (need_true (by simp [low, ok])) (fun _ => works) ?_) hb
    rw [sound]
  · change onMail p s (fun d pn => d.initiateRelease pn q false) = _
    exact onMail_to h ht (Dev.initiateRelease_one h ht owner works low ok one found false) ((h.evHost _ _ _ _).acted.answerPath _ _)
  · change ∃ t, onMail p s (fun d pn => d.initiateRelease pn q true) = .next t ∧ _
    have told := h.evHost q.ld .forcedRelease [k, (s.dev.xrec k).base, (s.dev.xrec k).nblk1 + 1] 4
    have same := s.dev.evHost_ext q.ld .forcedRelease [k, (s.dev.xrec k).base, (s.dev.xrec k).nblk1 + 1] 4
    have released := Dev.initiateRelease_one h ht owner works low ok one found true
    generalize s.dev.evHost q.ld .forcedRelease [k, (s.dev.xrec k).base, (s.dev.xrec k).nblk1 + 1] 4 = e at told same released
    rw [if_pos rfl, Dev.releaseRec_alone (by rw [Dev.xrec, same]; exact alone)] at released
    exact onMail_record h ht told e.ext.offers same (by decide) released
  · intro y len inside ctx flags landing inUse rsv none
    change onMail p s (fun d pn => d.stageAttrs pn y) = _
    refine onMail_acts h ht _ (by rw [Dev.stageAttrs]) (by exact CSpec.permits_owner rfl rfl owner _) (by rw [len]) (by exact fun no => nomatch no)
      (by exact need_true (by simp [inside, ctx, flags, landing, inUse, rsvd, rsv, none]; omega)) ?_ h.same
    rw [if_neg (by omega), none]
    rfl
  · intro y len low rsv seq offered hb
    change onMail p s (fun d pn => d.withdraw pn y) = _
    exact onMail_acts_settle h ht _ (by rw [Dev.withdraw]) (by exact CSpec.permits_owner rfl rfl owner _) (by rw [len]) (by exact fun no => nomatch no)
      (by exact need_true (by simp [low, rsvd, rsv, seq])) (by exact if_pos offered) hb

end Sys2Proof.Machine
end

section

/-! O46: power states and warm resets (R384, R480 to R487, R526, R527). -/

namespace Sys2Proof.Machine

/-- Table 12.12: the fields of a Set Power State request. -/
theorem powerPayload_fields : ∀ (target : Fin 2) (ld : Fin 16) (st : Fin 4), (powerPayload target ld st).length = 8 ∧ fld (powerPayload target ld st) 0 1 = target ∧
    fld (powerPayload target ld st) 1 1 = ld ∧ fld (powerPayload target ld st) 2 1 = st ∧ rsvd (powerPayload target ld st) 3 5 = true := by decide +kernel

/-- Whether a Set Power State request changes a state (R483). -/
def Dev.powerChanges (d : Dev) (target ld st : Nat) : Bool :=
  if target = 1 then decide ((d.ld ld).moored ≠ decide (st = 2)) else decide (d.pwr.st = .moored) && decide (st = 1)

/-- R381, R483: a Set Power State request of the Pool owner is answered when it is done at once, and a device entry is prepared first. -/
theorem Dev.setPower_owner {d : Dev} (h : d.Rest) {pn : Nat} (ht : d.takes pn = true) (role : d.role pn = .owner) (target : Fin 2) (ld : Fin 16) (st : Fin 4)
    (least : 1 ≤ st.val) (most : st.val ≤ if target.val = 1 then 2 else 3) (known : target.val = 0 ∨ d.on ld = true) {ans : Option Ans} {e : Dev}
    (act : d.powerAct pn target ld st = (ans, e)) :
    d.setPower pn (powerPayload target ld st) = ans.elim e fun a => e.close pn (powerSpec (d.powerChanges target ld st)) a := by
  obtain ⟨len, first, second, third, rsv⟩ := powerPayload_fields target ld st
  unfold Dev.setPower
  dsimp only
  rw [first, second, third, rsv, len]
  have fits : need (decide (target.val < 2) && true && decide (1 ≤ st.val) && decide (st.val ≤ (if target.val = 1 then 2 else 3)) &&
      (decide (target.val = 0) || (decide (ld.val < 16) && d.on ld)) && true) = none := by
    refine need_true ?_
    have low : st.val ≤ 3 := by omega
    rcases known with zero | on
    · simp [zero, least, low]
    · simp [target.isLt, ld.isLt, least, most, on]
  rw [d.gate_takes h ht (powerSpec _) 8 _ (by rw [role]; rfl) (fun l hl => Option.some.inj hl) (by rw [role]; exact fits) (fun no => nomatch no)]
  dsimp only
  rw [act]
  cases ans <;> rfl

theorem Dev.setPower_answers {d : Dev} (h : d.Rest) {pn : Nat} (ht : d.takes pn = true) (role : d.role pn = .owner) (target : Fin 2) (ld : Fin 16) (st : Fin 4)
    (least : 1 ≤ st.val) (most : st.val ≤ if target.val = 1 then 2 else 3) (known : target.val = 0 ∨ d.on ld = true) {e : Dev}
    (act : d.powerAct pn target ld st = (some .good, e)) (changes : d.powerChanges target ld st = true) :
    d.setPower pn (powerPayload target ld st) = e.acted.answerPath pn .good := by
  rw [Dev.setPower_owner h ht role target ld st least most known act, changes]
  exact Dev.close_effect _ _ _ _ rfl rfl rfl

theorem Dev.warmReset_takes {d : Dev} (h : d.Rest) {pn : Nat} (ht : d.takes pn = true) (role : d.role pn = .owner) (works : d.works = true) {y : List Byte}
    (len : y.length = 8) (key : fld y 0 2 = 0x5752) (rsv : fld y 2 6 = 0) :
    d.warmReset pn y = ({ d with mg := { d.mg with warm := some d.time } } : Dev).acted.answerPath pn .good := by
  simp only [Dev.works, Bool.and_eq_true, Option.isNone_iff_eq_none] at works
  refine Dev.command_acts h ht _ (CSpec.permits_owner rfl rfl role _) (by rw [len]) (fun no => nomatch no) (need_true (by simp [key, rsvd, rsv])) ?_ rfl rfl rfl
  simp [works.2, h.entry]

theorem Dev.syustLogs_time (d : Dev) : d.syustLogs.time = d.time := by
  unfold Dev.syustLogs
  split <;> rfl

/-- Settles O46. -/
theorem powerStatesFollowTheirCommands : Obligations.PowerStatesFollowTheirCommands := by
  unfold Obligations.PowerStatesFollowTheirCommands
  intro s p _
  dsimp only
  refine ⟨fun hrest ht owner => ?_, ?_, ?_, ?_, ?_, ?_⟩
  · have h := s.dev.atRest_iff.1 hrest
    refine ⟨fun n on => ⟨fun underway up aspm hb => ?_, fun moored hb => ?_⟩, fun works => ⟨fun underway sound hb => ?_, fun underway sound hb => ?_, fun moored hb => ?_,
      fun y len key rsv hb => ?_⟩⟩
    · change onMail p s (fun d pn => d.setPower pn (powerPayload 1 n 2)) = _
      refine onMail_settle h ht (Dev.setPower_answers h ht owner 1 n 2 (by decide) (by decide) (.inr on) ?_ ?_) hb
      · simp [Dev.powerAct, underway, up, aspm]
      · simp [Dev.powerChanges, underway]
    · change onMail p s (fun d pn => d.setPower pn (powerPayload 1 n 1)) = _
      refine onMail_settle h ht (Dev.setPower_answers h ht owner 1 n 1 (by decide) (by decide) (.inr on) ?_ ?_) hb
      · simp [Dev.powerAct]
      · simp [Dev.powerChanges, moored]
    all_goals obtain ⟨active, calm⟩ : s.dev.active = true ∧ s.dev.mg.warm = none := by simpa [Dev.works] using works
    · change onMail p s (fun d pn => d.setPower pn (powerPayload 0 0 2)) = _
      refine onMail_settle h ht (Dev.setPower_owner h ht owner 0 0 2 (by decide) (by decide) (.inl rfl) (ans := none) ?_) hb
      simp [Dev.powerAct, active, calm, h.entry, underway, sound]
    · change onMail p s (fun d pn => d.setPower pn (powerPayload 0 0 3)) = _
      refine onMail_settle h ht (Dev.setPower_owner h ht owner 0 0 3 (by decide) (by decide) (.inl rfl) (ans := none) ?_) hb
      simp [Dev.powerAct, active, calm, h.entry, underway, sound]
    · change onMail p s (fun d pn => d.setPower pn (powerPayload 0 0 1)) = _
      refine onMail_settle h ht (Dev.setPower_answers h ht owner 0 0 1 (by decide) (by decide) (.inl rfl) ?_ ?_) hb
      · simp [Dev.powerAct, active, calm, h.entry, moored]
      · simp [Dev.powerChanges, moored]
    · change onMail p s (fun d pn => d.warmReset pn y) = _
      exact onMail_settle h ht (Dev.warmReset_takes h ht owner works len key rsv) hb
  · intro e entry req sound ended hb
    change onDev s (fun d => d.mooredCommit) = _
    refine onDev_settle ?_ hb
    unfold Dev.mooredCommit
    rw [entry]
    dsimp only
    rw [if_neg (by rw [req]; decide), sound]
    dsimp only
    rw [if_neg (by rw [ended]; decide), Dev.close_effect _ _ (powerSpec true) .good rfl rfl rfl]
  · intro e x entry req sound prepared hb
    change onDev s (fun d => d.laidUpCommit) = _
    refine onDev_settle ?_ hb
    unfold Dev.laidUpCommit
    rw [entry]
    dsimp only
    rw [if_neg (by rw [req]; decide), sound]
    dsimp only
    rw [prepared]
    dsimp only
    rw [Dev.close_effect _ _ (powerSpec true) .good rfl rfl rfl]
  · intro x warm prepared fmn tlh hb
    change onDev s (fun d => d.warmDone) = _
    refine onDev_settle ?_ hb
    unfold Dev.warmDone
    rw [if_neg (by simpa [Option.isSome_iff_ne_none] using warm), prepared]
    dsimp only
    rw [fmn, tlh, x.syustLogs_time]
    rfl
  · intro warm busy hb
    change onDev s (fun d => d.warmEscalate) = _
    refine onDev_settle ?_ hb
    unfold Dev.warmEscalate
    rw [if_neg (by simpa [Option.isSome_iff_ne_none] using warm), busy]
    rfl
  · intro x held old hb
    change onDev s (fun d => d.snapExpiry (pathNo p)) = _
    refine onDev_settle ?_ hb
    unfold Dev.snapExpiry
    rw [held]
    exact if_pos old

end Sys2Proof.Machine
end

section

/-! O47: where the statement about monitor calls fails (R411). -/

namespace Sys2Proof.Machine

/-- Syust runs; the first byte of call block 0 is listed three times in the shared SRAM. -/
def blockThrice : State := { dev := { fmnBusy := false, sram := [(callBlock 0, 1), (callBlock 0, 0), (callBlock 0, 9)] } }

/-- A byte written as zero leaves its place to what is listed next: after TM_VERSION the block names function 9. -/
theorem tmVersion_leaves_nine : (ended (exec (.tmVersion 0) blockThrice)).map (fun d => tget 0#8 d.sram (callBlock 0)) = some 9#8 := by decide +kernel

/-- Refutes O47: the statement leaves open in which form the shared SRAM lists its bytes. Where the first byte of a call block is listed three times, the call's two writes
of its function number, which is 0, uncover the third. -/
theorem not_monitorCallsFillTheirBlock : ¬ Obligations.MonitorCallsFillTheirBlock := by
  unfold Obligations.MonitorCallsFillTheirBlock
  intro h
  obtain ⟨-, version, -⟩ := h blockThrice 0 (by decide +kernel) (by decide +kernel)
  obtain ⟨t, next, filled, -⟩ := version
  have left := tmVersion_leaves_nine
  rw [next] at left
  have zero := (Option.some.inj left).symm.trans (filled 0 (by decide))
  exact absurd zero (by decide +kernel)

end Sys2Proof.Machine
end

section

/-! O48: the Tollhouse, power requests and debug reads (R270, R412, R413, R415, R421, R427 to R431). -/

namespace Sys2Proof.Machine

/-- R365: an activation goes on only while the Ferryman quiesces. -/
theorem Dev.activateNext_running {d : Dev} (h : d.fmn.st ≠ .quiescing) : d.activateNext = d := by
  unfold Dev.activateNext
  split
  · exact if_pos h
  · rfl

/-- R415: the Tollhouse serves its oldest request. -/
theorem Dev.tlhServe_first {d : Dev} (up : d.tlhBusy = false) {q : TlhReq} {qs : List TlhReq} (reqs : d.tlh.reqs = q :: qs) :
    d.tlhServe = (d.tlhDo q).2.endTicket q.ticket (d.tlhDo q).1.1 (d.tlhDo q).1.2.1 (d.tlhDo q).1.2.2 := by
  unfold Dev.tlhServe
  rw [if_neg (by rw [up]; decide), reqs]

/-- R413, R421: an anti-rollback commit in range blows the fuses that raise the count. -/
theorem Dev.tlhDo_commit {d : Dev} {q : TlhReq} (commit : q.fn = 8) (syust : q.args.getD 0 0 = 1) (least : d.arbf ≤ q.args.getD 1 0) (most : q.args.getD 1 0 ≤ 64) :
    d.tlhDo q = ((0, q.args.getD 1 0, 0), { d with blow := d.blow ||| d.arbBits 1 (q.args.getD 1 0), fz := d.fz ||| d.arbBits 1 (q.args.getD 1 0) }) := by
  obtain ⟨ticket, fn, args, img⟩ := q
  dsimp only at commit syust least most ⊢
  subst commit
  change (if args.getD 1 0 < (if args.getD 0 0 = 1 then (d.arbf, 64) else (d.arbt, 32)).1 ∨ (if args.getD 0 0 = 1 then (d.arbf, 64) else (d.arbt, 32)).2 < args.getD 1 0 then
    ((tmInval, 0, 0), d) else ((0, args.getD 1 0, 0),
      { d with blow := d.blow ||| d.arbBits (args.getD 0 0) (args.getD 1 0), fz := d.fz ||| d.arbBits (args.getD 0 0) (args.getD 1 0) })) = _
  rw [syust, if_pos rfl]
  exact if_neg (by omega)

/-- A command that leaves nothing but fuses to blow ends with them blown. -/
theorem onDev_blows {s : State} {f : Dev → Dev} {d : Dev} (h : d.Rest) {b : BitVec 2048} (hf : f s.dev = { d with blow := b }) :
    onDev s f = .next { s with dev := d, otp := { s.otp with map := s.otp.map ||| b } } := by
  unfold onDev
  rw [hf, settle_calm _ _ (h.calm.blown b)]
  dsimp only
  rw [← h.blow]

/-- A device whose core fuses and Tollhouse changed is at rest as before. -/
theorem Dev.Rest.fused {d : Dev} (h : d.Rest) (fz : BitVec 2048) (tlh : Tlh) : ({ d with fz, tlh } : Dev).Rest := h.same

/-- R413, R421: the commit's ticket ends with the new count, the fuses waiting to be blown. -/
theorem Dev.commit_served {d : Dev} (h : d.Rest) (up : d.tlhBusy = false) (fmn : d.fmn.st ≠ .quiescing) {q : TlhReq} {qs : List TlhReq} (reqs : d.tlh.reqs = q :: qs)
    {n : Nat} {b : BitVec 2048} (served : d.tlhDo q = ((0, n, 0), { d with blow := d.blow ||| b, fz := d.fz ||| b })) :
    d.tlhServe.activateNext = { ({ d with fz := d.fz ||| b, tlh := (d.endTicket q.ticket 0 n 0).tlh } : Dev) with blow := b } := by
  rw [Dev.tlhServe_first up reqs, served, h.blow, BitVec.zero_or]
  exact Dev.activateNext_running fmn

/-- What PWR.REQ leaves when it is carried out (R429). -/
def Dev.pwrSet (d : Dev) (target action : Nat) (clkOff pwrOff : List Nat) : Dev := { d with pwr := { d.pwr with target, action, result := 1, clkOff, pwrOff } }

theorem Dev.pwrReq_done {d : Dev} (up : d.fmnBusy = false) (n : Fin 64)
    (known : (if n.val < 16 then d.on n else if n.val < 32 then d.on (n.val - 16) else decide (n.val < 38)) = true) (act : Nat)
    (free : ¬((act = 0 ∨ act = 2) ∧ d.secHold.getLsbD n = true)) :
    d.pwrReq n act = d.pwrSet n act
      (if act = 0 then (if n.val ∈ d.pwr.clkOff then d.pwr.clkOff else d.pwr.clkOff ++ [n.val]) else if act = 1 then d.pwr.clkOff.filter (· ≠ n.val) else d.pwr.clkOff)
      (if act = 2 then (if n.val ∈ d.pwr.pwrOff then d.pwr.pwrOff else d.pwr.pwrOff ++ [n.val]) else if act = 3 then d.pwr.pwrOff.filter (· ≠ n.val) else d.pwr.pwrOff) := by
  unfold Dev.pwrReq
  dsimp only
  rw [if_neg (by rw [up]; decide), known, if_neg (by decide), if_neg free, Nat.mod_eq_of_lt n.isLt]
  rfl

/-- Settles O48. -/
theorem tollhouseServesAndRestarts : Obligations.TollhouseServesAndRestarts := by
  unfold Obligations.TollhouseServesAndRestarts
  intro s
  dsimp only
  refine ⟨fun up fmn q qs reqs => ⟨fun _ kept hb => ?_, fun hrest commit syust least most => ?_⟩, fun n fmn waits hb => ?_, fun up hb => ?_,
    fun i down bank sound _ quiet hb => ?_, fun n hrest fmn known => ⟨fun free => ⟨fun on => ?_, fun on => ?_⟩, ?_, ?_⟩, fun hrest => ⟨fun g bs unlocked got => ?_, fun g shut => ?_⟩⟩
  · change onDev s (fun d => d.tlhServe.activateNext) = _
    refine onDev_settle ?_ hb
    rw [Dev.tlhServe_first up reqs]
    exact Dev.activateNext_running (by rw [show ((s.dev.tlhDo q).2.endTicket _ _ _ _).fmn = _ from kept]; exact fmn)
  · change ∃ t, onDev s (fun d => d.tlhServe.activateNext) = .next t ∧ _
    have h := s.dev.atRest_iff.1 hrest
    exact ⟨_, onDev_blows (h.fused _ _) (Dev.commit_served h up fmn reqs (Dev.tlhDo_commit commit syust least most)), rfl, rfl, rfl⟩
  · change onDev s (fun d => (d.ticketTimeout n).activateNext) = _
    refine onDev_settle ?_ hb
    unfold Dev.ticketTimeout
    rw [if_pos waits]
    exact Dev.activateNext_running fmn
  · change onDev s (fun d => d.tlhRestart) = _
    exact onDev_settle (if_neg (not_not.2 up)) hb
  · change onDev s (fun d => d.tlhRestartDone true) = _
    refine onDev_settle ?_ hb
    unfold Dev.tlhRestartDone
    rw [if_neg (not_not.2 down), bank]
    dsimp only
    rw [if_pos (by rw [sound]; rfl)]
    exact foldl_keep _ _ _ fun n _ => if_neg (Nat.not_lt.2 (Nat.le_of_eq (quiet n)))
  all_goals have h := s.dev.atRest_iff.1 hrest
  · change onDev s (fun d => d.pwrReq n 0) = _
    refine onDev_ends ?_ h.same
    rw [Dev.pwrReq_done fmn n known 0 (by simp [free])]
    simp [Dev.pwrSet, on]
  · change onDev s (fun d => d.pwrReq n 2) = _
    refine onDev_ends ?_ h.same
    rw [Dev.pwrReq_done fmn n known 2 (by simp [free])]
    simp [Dev.pwrSet, on]
  · change onDev s (fun d => d.pwrReq n 1) = _
    refine onDev_ends ?_ h.same
    rw [Dev.pwrReq_done fmn n known 1 (by simp)]
    simp [Dev.pwrSet]
  · change onDev s (fun d => d.pwrReq n 3) = _
    refine onDev_ends ?_ h.same
    rw [Dev.pwrReq_done fmn n known 3 (by simp)]
    simp [Dev.pwrSet]
  · change onDev s (fun d => d.debugRead g) = _
    refine onDev_ends ?_ h.same
    simp [Dev.debugRead, unlocked, got]
  · change onDev s (fun d => d.debugRead g) = _
    refine onDev_ends ?_ h.same
    have refused : (if (decide (s.dev.dbgLock = 3) || (decide (s.dev.dbgLock = 1) && s.dev.tlh.unlock.isNone)) = true then (none, s.dev) else s.dev.debugGet g) = (none, s.dev) := by
      rcases shut with closed | none
      · rw [if_pos (by simp [closed])]
      · rw [none, ite_self]
    unfold Dev.debugRead
    dsimp only
    rw [refused]

end Sys2Proof.Machine
end

section

/-! O49: Pilot modules: API calls, scheduler ticks, activations and restarts (R434 to R439). -/

namespace Sys2Proof.Machine

theorem Dev.pilot_modPilot {d : Dev} (h : Tbl.rises d.plt = true) (n m : Nat) (f : Pilot → Pilot) : (d.modPilot n f).pilot m = if m = n then f (d.pilot n) else d.pilot m :=
  tget_tput _ _ _ _ _ h

theorem Dev.pilot_modPilot_ne (d : Dev) {n m : Nat} (f : Pilot → Pilot) (h : m ≠ n) : (d.modPilot n f).pilot m = d.pilot m := tget_tput_ne _ _ _ h

theorem Dev.rises_modPilot {d : Dev} (h : Tbl.rises d.plt = true) (n : Nat) (f : Pilot → Pilot) : Tbl.rises (d.modPilot n f).plt = true := rises_tput _ _ _ _ h

theorem Dev.modPilot_modPilot {d : Dev} (h : Tbl.rises d.plt = true) (n : Nat) (f g : Pilot → Pilot) : (d.modPilot n f).modPilot n g = d.modPilot n fun p => g (f p) := by
  have got : tget {} (tput {} d.plt n (f (tget {} d.plt n))) n = f (tget {} d.plt n) := (tget_tput _ _ _ _ _ h).trans (if_pos rfl)
  unfold Dev.modPilot tmod
  rw [got, tput_tput _ _ _ _ _ h]

theorem Dev.modPilot_congr (d : Dev) (n : Nat) (f g : Pilot → Pilot) (h : f (d.pilot n) = g (d.pilot n)) : d.modPilot n f = d.modPilot n g := by
  unfold Dev.pilot at h
  unfold Dev.modPilot tmod
  rw [h]

/-! One call (R436, R437). -/

/-- A call has been counted. -/
def Dev.called (d : Dev) (k : Nat) : Dev := d.modPilot k fun p => { p with calls := p.calls + 1 }

theorem Dev.pilot_called {d : Dev} (h : Tbl.rises d.plt = true) (k : Nat) : (d.called k).pilot k = { d.pilot k with calls := (d.pilot k).calls + 1 } :=
  (Dev.pilot_modPilot h _ _ _).trans (if_pos rfl)

/-- A module that runs and does not wait makes a call. -/
theorem Dev.api_calls {d : Dev} (up : d.fmnUp = true) {k : Nat} {pk : Pkg} (run : (d.pilot k).run = some pk) (wait : (d.pilot k).wait = none)
    (few : (d.pilot k).calls < 20000) {f : Dev → (Int × List Nat) × Dev} {r : Int} {v : List Nat} {e : Dev} (acts : f (d.called k) = ((r, v), e)) :
    d.api k f = e.modPilot k fun p => { p with ret := r, val := v } := by
  unfold Dev.api
  dsimp only
  rw [if_neg (by simp [up, run, wait]), if_neg (by omega), show f (d.modPilot k fun p => { p with calls := p.calls + 1 }) = ((r, v), e) from acts]

/-! The scheduler (R436). -/

/-- One slot of a scheduler tick, with the time used by the slots before it. -/
def tickStep (us : List PilotUse) (r : Nat × Dev) (s : Nat) : Nat × Dev :=
  let u := (us.find? fun u => decide (u.slot.val = s)).getD { slot := 0 }
  (r.1 + (if (r.2.pilot s).run.isSome then (r.2.pilot s).used + u.ns else 0), r.2.tickSlot s u r.1)

theorem Dev.pilotTick_steps {d : Dev} (up : d.fmnUp = true) (us : List PilotUse) : d.pilotTick us = ((List.range 8).foldl (tickStep us) (0, d)).2 :=
  if_neg (by rw [up]; decide)

theorem tickStep_idle (us : List PilotUse) (r : Nat × Dev) {s : Nat} (idle : (r.2.pilot s).run = none) : tickStep us r s = r := by
  unfold tickStep Dev.tickSlot
  rw [idle]
  rfl

theorem foldl_tickStep_idle (us : List PilotUse) (r : Nat × Dev) (ss : List Nat) (idle : ∀ s ∈ ss, (r.2.pilot s).run = none) : ss.foldl (tickStep us) r = r :=
  foldl_keep _ _ _ fun s hs => tickStep_idle us r (idle s hs)

theorem range_around : ∀ k : Fin 8, List.range 8 = List.range k ++ k.val :: List.range' (k + 1) (7 - k) := by decide

/-- A millisecond of a module within its limits. -/
theorem Dev.tickSlot_within {d : Dev} (h : Tbl.rises d.plt = true) (k : Fin 8) (ns : Nat) {pk : Pkg} (run : (d.pilot k).run = some pk) (wait : (d.pilot k).wait = none)
    (used : (d.pilot k).used + ns ≤ 10000000) (cb : (d.pilot k).cb.getD 0 + 1000000 ≤ 10000000) (sec : (d.pilot k).secTicks < 999) (win : (d.pilot k).winTicks < 99) :
    d.tickSlot k { slot := k, ns } 0 = d.modPilot k fun p =>
      { p with used := p.used + ns, cb := p.cb.map (· + 1000000), secTicks := p.secTicks + 1, winTicks := p.winTicks + 1 } := by
  have still : (if (false : Bool) = true then d.callbackEnds k else d) = d := if_neg (by decide)
  have short : ¬10000000 < ((d.pilot k).cb.map (· + 1000000)).getD 0 := by
    cases hcb : (d.pilot k).cb with
    | none => simp
    | some t => rw [hcb] at cb; simpa using cb
  unfold Dev.tickSlot
  rw [if_neg (by simp [run])]
  dsimp only
  rw [still, Dev.pilot_modPilot h, if_pos rfl, wait]
  dsimp only
  rw [if_neg short, if_neg (by omega), Dev.modPilot_modPilot h]
  refine Dev.modPilot_congr _ _ _ _ ?_
  have second : ¬1000 ≤ (d.pilot k).secTicks + 1 := by omega
  have window : ¬100 ≤ (d.pilot k).winTicks + 1 := by omega
  simp only [wait, second, window, if_false]

theorem Dev.pilotTick_one {d : Dev} (h : Tbl.rises d.plt = true) (up : d.fmnUp = true) (k : Fin 8) (ns : Nat) {pk : Pkg} (run : (d.pilot k).run = some pk)
    (wait : (d.pilot k).wait = none) (alone : ∀ j, j ≠ k.val → (d.pilot j).run = none)
    (used : (d.pilot k).used + ns ≤ 10000000) (cb : (d.pilot k).cb.getD 0 + 1000000 ≤ 10000000) (sec : (d.pilot k).secTicks < 999) (win : (d.pilot k).winTicks < 99) :
    d.pilotTick [{ slot := k, ns }] = d.modPilot k fun p =>
      { p with used := p.used + ns, cb := p.cb.map (· + 1000000), secTicks := p.secTicks + 1, winTicks := p.winTicks + 1 } := by
  have before : ∀ j ∈ List.range k.val, (d.pilot j).run = none := fun j hj => alone j (by have := List.mem_range.1 hj; omega)
  have own : tickStep [{ slot := k, ns }] (0, d) k = ((d.pilot k).used + ns, d.modPilot k fun p =>
      { p with used := p.used + ns, cb := p.cb.map (· + 1000000), secTicks := p.secTicks + 1, winTicks := p.winTicks + 1 }) := by
    unfold tickStep
    simp only [List.find?_cons, decide_true, Option.getD_some, run, Option.isSome_some, if_true, Nat.zero_add, Dev.tickSlot_within h k ns run wait used cb sec win]
  rw [Dev.pilotTick_steps up, range_around k, List.foldl_append, foldl_tickStep_idle _ (0, d) (List.range k) before, List.foldl_cons, own, foldl_tickStep_idle]
  intro j hj
  have after := (List.mem_range'_1.1 hj).1
  rw [Dev.pilot_modPilot_ne _ _ (by omega)]
  exact alone j (by omega)

/-! Loading (R434, R435). -/

theorem Dev.run_modPilot (d : Dev) {n : Nat} {f : Pilot → Pilot} {pk : Pkg} (runs : (f (d.pilot n)).run = some pk) : ((d.modPilot n f).pilot n).run = some pk := by
  have put : (d.modPilot n f).pilot n = f (d.pilot n) := tget_tput_same _ _ (fun free => by rw [Dev.pilot, free] at runs; cases runs) _ _
  rw [put, runs]

theorem Dev.loadModule_runs {d e : Dev} {slot : Nat} {k : Pkg} {survived : Bool} (loaded : d.loadModule slot k survived = (none, e)) : (e.pilot slot).run = some k := by
  unfold Dev.loadModule at loaded
  split at loaded
  · cases loaded
  split at loaded
  · cases loaded
  extract_lets code total sp at loaded
  split at loaded
  · cases loaded
  split at loaded
  · cases loaded
  split at loaded
  · cases loaded
  cases loaded
  exact Dev.run_modPilot _ rfl

theorem Dev.loadSlot_loads {d e : Dev} {slot : Nat} {k : Pkg} (inst : (d.pilot slot).inst = some k) (loaded : d.loadModule slot k false = (none, e)) :
    d.loadSlot slot = e := by
  unfold Dev.loadSlot
  rw [inst]
  dsimp only
  rw [loaded]

theorem foldl_modBg_plt (f : Nat → BrgCh → BrgCh) (cs : List Nat) (d : Dev) : (cs.foldl (fun d c => d.modBg c (f c)) d).plt = d.plt := by
  induction cs generalizing d with
  | nil => rfl
  | cons c cs ih => rw [List.foldl_cons, ih]; rfl

theorem Dev.pilot_clearRegions (d : Dev) (slot n : Nat) : (d.clearRegions slot).pilot n = d.pilot n := rfl

/-- A slot keeps its package when its module is stopped and its regions are cleared. -/
theorem Dev.inst_stopped {d : Dev} (h : Tbl.rises d.plt = true) (slot : Nat) :
    (((d.stopModule slot).clearRegions slot).pilot slot).inst = (d.pilot slot).inst ∧ Tbl.rises ((d.stopModule slot).clearRegions slot).plt = true := by
  unfold Dev.stopModule
  dsimp only
  have kept := foldl_modBg_plt (fun _ b => b.stopNow.release) ((List.range 64).filter fun c => decide ((d.bg c).slot = some slot)) d
  have tidy := (congrArg Tbl.rises kept).trans h
  refine ⟨?_, Dev.rises_modPilot tidy slot fun p => { p with run := none, cb := none, wait := none, events := [] }⟩
  rw [Dev.pilot_clearRegions, Dev.pilot_modPilot tidy, if_pos rfl]
  exact congrArg (fun t => (tget ({} : Pilot) t slot).inst) kept

/-- Settles O49. -/
theorem pilotModulesRun : Obligations.PilotModulesRun := by
  unfold Obligations.PilotModulesRun
  intro s k pk htidy up
  dsimp only
  have h := (s.dev.tidy_iff.1 htidy).plt
  refine ⟨fun run wait few => ⟨?_, ?_, ?_, ?_, ?_, ?_, ?_, ?_, ?_, ?_⟩, fun inst on => ⟨fun fresh e loaded => ⟨fun hb => ?_, Dev.loadModule_runs loaded⟩,
    fun stopped held faults e loaded => ⟨fun hb => ?_, Dev.loadModule_runs loaded⟩⟩⟩
  · intro hb
    change onDev s (fun d => d.pltTime k) = _
    exact onDev_settle (Dev.api_calls up run wait few rfl) hb
  · intro hb
    change onDev s (fun d => d.pltScratch k) = _
    refine onDev_settle (Dev.api_calls up run wait few ?_) hb
    rw [Dev.pilot_called h]
    rfl
  · intro n hn hb
    change onDev s (fun d => d.pltCounter k n) = _
    exact onDev_settle (Dev.api_calls up run wait few (if_pos hn)) hb
  · intro l m hm hb
    change onDev s (fun d => d.pltLog k l m) = _
    exact onDev_settle (Dev.api_calls up run wait few (if_neg (by omega))) hb
  · intro ns
    refine ⟨fun e es events hb => ?_, fun events hb => ?_⟩
    · change onDev s (fun d => d.pltWait k ns.toNat) = _
      refine onDev_settle (Dev.api_calls up run wait few ?_) hb
      rw [Dev.pilot_called h, events]
      rfl
    · change onDev s (fun d => d.pltWait k ns.toNat) = _
      refine onDev_settle (Dev.api_calls up run wait few ?_) hb
      rw [Dev.pilot_called h, events]
      rfl
  · intro op y len cmds hb
    change onDev s (fun d => d.pltCmd k op.toNat y) = _
    refine onDev_settle (Dev.api_calls up run wait few ?_) hb
    rw [Dev.pilot_called h, if_neg (by omega), if_neg (by dsimp only; omega)]
    rfl
  · intro n least mine all enough hb
    change onDev s (fun d => d.pltClaim k n) = _
    refine onDev_settle (Dev.api_calls up run wait few ?_) hb
    exact (if_neg (by omega)).trans (if_neg (not_or.2 ⟨Nat.not_lt.2 mine, not_or.2 ⟨Nat.not_lt.2 all, Nat.not_lt.2 enough⟩⟩))
  · intro c held
    refine ⟨fun hb => ?_, fun xs e may posted hb => ?_⟩
    · change onDev s (fun d => d.pltRelease k c) = _
      exact onDev_settle (Dev.api_calls up run wait few (if_pos held)) hb
    · change onDev s (fun d => d.pltPost k c xs) = _
      refine onDev_settle (Dev.api_calls up run wait few ?_) hb
      rw [if_neg (not_not.2 (show ((s.dev.called k).bg c).slot = some k.val from held)), if_neg (by simpa using may), show (s.dev.called k).postRing (.qp k) c xs = (true, e) from posted]
  · intro pages e most pagewise internal room posted hb
    change onDev s (fun d => d.pltBallast k pages) = _
    refine onDev_settle (Dev.api_calls up run wait few ?_) hb
    have sound : ¬(4096 < pages.length ∨ (pages.any fun a => decide (a % 4096 ≠ 0) || decide (2 ^ 45 ≤ a)) = true) := by
      rintro (long | bad)
      · omega
      · obtain ⟨a, ha, wrong⟩ := List.any_eq_true.1 bad
        obtain ⟨aligned, low⟩ := pagewise a ha
        simp only [aligned, ne_eq, not_true_eq_false, decide_false, Bool.false_or, decide_eq_true_eq] at wrong
        omega
    have fits : ¬(((s.dev.called k).bg 63).space ≠ 1 ∨ ((s.dev.called k).bg 63).ringSize < pages.length + (((s.dev.called k).bg 63).tail - ((s.dev.called k).bg 63).head).toNat) :=
      not_or.2 ⟨not_not.2 internal, Nat.not_lt.2 room⟩
    rw [if_neg sound, if_neg fits, show (s.dev.called k).postRing .qs 63 (pages.map packDesc) = (true, e) from posted]
  · intro ns alone used cb sec win hb
    change onDev s (fun d => d.pilotTick [{ slot := k, ns }]) = _
    exact onDev_settle (Dev.pilotTick_one h up k ns run wait alone used cb sec win) hb
  · change onDev s (fun d => d.activateModule k) = _
    refine onDev_settle ?_ hb
    obtain ⟨kept, tidy⟩ := Dev.inst_stopped h k.val
    unfold Dev.activateModule
    rw [if_neg (by simp [up, on, fresh, inst])]
    refine Dev.loadSlot_loads ?_ loaded
    refine (congrArg Pilot.inst ((Dev.pilot_modPilot tidy _ _ _).trans (if_pos rfl))).trans ?_
    exact kept.trans inst
  · change onDev s (fun d => d.pilotAgain k) = _
    refine onDev_settle ?_ hb
    unfold Dev.pilotAgain
    rw [if_neg (by simp [up, on, stopped, held, faults])]
    exact Dev.loadSlot_loads inst loaded

end Sys2Proof.Machine
end

section

/-! O50: where the statement about fault records fails (R455). -/

namespace Sys2Proof.Machine

/-- The record of a stopped slip of the Barge, logged and gone from the store, as Syust wrote it to the persistent log. -/
def loggedSlip : FRec := { seq := 0, src := 0x6C4, arr := .corrected, fin := .corrected, time := 0, path := {}, ack := true, logged := true }

/-- The Ferryman is down, the store is empty, the slips of the Barge are set to be Corrected, and one has been logged at the present time. -/
def slipLogged : State := { dev := { fmnBusy := true, boot := { phase := .active }, prm := [(0x9C4, some 1)], plog := { ents := [{ lseq := 0, kind := 1, frec := some loggedSlip }] } } }

/-- The next report of the source merges into the logged record: the store stays empty. -/
theorem faultReport_merges : (ended (exec (.faultReport 0x6C4 0 0 false) slipLogged)).map (·.lko.recs) = some [] := by decide +kernel

/-- Refutes O50: the statement has every report of a source without a record in the store make one, but the reports of a storm source (R455) merge into its record of the
last p0281, one that has been logged and has left the store included. -/
theorem not_faultsAreRecorded : ¬ Obligations.FaultsAreRecorded := by
  unfold Obligations.FaultsAreRecorded
  intro h
  obtain ⟨reported, -⟩ := h slipLogged (by decide +kernel) (by decide +kernel)
  obtain ⟨recorded, -⟩ := reported 0x6C4 ⟨.fatal, none, 0, 2, 0x00, false⟩ rfl rfl (by decide +kernel) rfl (by decide +kernel) (by decide +kernel)
  obtain ⟨t, next, recs, -⟩ := recorded 0 0 false (by decide +kernel)
  have merged := faultReport_merges
  rw [next] at merged
  exact absurd ((Option.some.inj merged).symm.trans recs) (List.cons_ne_nil _ _).symm

end Sys2Proof.Machine
end

section

/-! O51: windows, device time, sensors, throttling, the thermal trip and wakes (R407, R471 to R473, R477 to R479, R484, R488, R492, R493). -/

namespace Sys2Proof.Machine

theorem Dev.units_nodup (d : Dev) : d.units.Nodup := List.Nodup.filter _ List.nodup_range

/-- Every entry named once is changed once. -/
theorem tget_foldl_tmod {α : Type} [DecidableEq α] (z : α) (f : Nat → α → α) {ns : List Nat} (once : ns.Nodup) {t : Tbl α} (h : Tbl.rises t = true) :
    Tbl.rises (ns.foldl (fun t n => tmod z t n (f n)) t) = true ∧
      ∀ n, tget z (ns.foldl (fun t n => tmod z t n (f n)) t) n = if n ∈ ns then f n (tget z t n) else tget z t n := by
  induction ns generalizing t with
  | nil => exact ⟨h, fun n => rfl⟩
  | cons k ns ih =>
    obtain ⟨new, once⟩ := List.nodup_cons.1 once
    obtain ⟨rises, got⟩ := ih once (rises_tput z (f k (tget z t k)) t k h)
    refine ⟨rises, fun n => (got n).trans ?_⟩
    rw [tget_tput _ _ _ _ _ h]
    by_cases hn : n = k
    · subst hn
      simp [new]
    · simp [hn]

theorem tget_map_of_fixed {α : Type} {z : α} (f : α → α) (fixed : f z = z) (t : Tbl α) (n : Nat) : tget z (t.map fun x => (x.1, f x.2)) n = f (tget z t n) := by
  induction t with
  | nil => exact fixed.symm
  | cons x t ih =>
    by_cases hx : x.1 = n
    · simp [tget, hx]
    · simpa [tget, hx] using ih

/-- R471, R407: a window boundary with WINLEN unchanged. -/
theorem Dev.windowBoundary_same {d : Dev} (core : d.coreOn = true) (len : d.p 0x220 = d.tele.winlen) : ∃ acc chm, d.windowBoundary =
    { d with time := (d.time / d.tele.winlen + 1) * d.tele.winlen
             tele := { d.tele with acc, chm, ldm := d.tele.ldm.map fun x => (x.1, x.2.latch)
                                   pages := d.units.foldl (fun g n => tmod {} g n fun p =>
                                     p.update ((d.time / d.tele.winlen + 1) * d.tele.winlen) (d.p (0x210 + n)) (tget {} (d.tele.ldm.map fun x => (x.1, x.2.latch)) n))
                                     d.tele.pages } } := by
  unfold Dev.windowBoundary
  rw [if_neg (by rw [core]; decide)]
  exact ⟨_, _, if_pos len⟩

/-! Sensors (R479). -/

/-- What sensor `k` shows of a sample `v`. -/
def Dev.sensed (d : Dev) (k : Nat) (v : Int) : Int × Bool :=
  (if k < 22 then BitVec.toInt (BitVec.ofInt 12 v) else ((BitVec.ofInt 12 v).toNat : Int), !d.sensorBad k)

theorem tget_foldl_sensed (d : Dev) (vals : List Int) (lo : Nat) {t : Tbl (Int × Bool)} (h : Tbl.rises t = true) (k : Nat) :
    Tbl.rises ((vals.zipIdx lo).foldl (fun t x => tput (0, false) t x.2 (d.sensed x.2 x.1)) t) = true ∧
      tget (0, false) ((vals.zipIdx lo).foldl (fun t x => tput (0, false) t x.2 (d.sensed x.2 x.1)) t) k =
        if lo ≤ k then ((vals[k - lo]?).map (d.sensed k)).getD (tget (0, false) t k) else tget (0, false) t k := by
  induction vals generalizing lo t with
  | nil => exact ⟨h, by simp⟩
  | cons v vals ih =>
    obtain ⟨rises, got⟩ := ih (lo + 1) (rises_tput (0, false) (d.sensed lo v) t lo h)
    refine ⟨rises, got.trans ?_⟩
    rw [tget_tput _ _ _ _ _ h]
    by_cases own : k = lo
    · subst own
      simp
    · by_cases after : lo ≤ k
      · obtain ⟨j, rfl⟩ : ∃ j, k = lo + 1 + j := ⟨k - (lo + 1), by omega⟩
        have place : lo + 1 + j - lo = j + 1 := by omega
        simp only [own, place, List.getElem?_cons_succ, if_false, after, if_true, show lo + 1 ≤ lo + 1 + j by omega, Nat.add_sub_cancel_left]
      · simp [own, after, show ¬lo + 1 ≤ k by omega]

theorem Dev.sensorSample_on {d : Dev} (on : d.boot.phase ≠ .off) (vals : List Int) :
    d.sensorSample vals = { d with tele := { d.tele with sens := ((vals.take 24).zipIdx 0).foldl (fun t x => tput (0, false) t x.2 (d.sensed x.2 x.1)) d.tele.sens } } :=
  if_neg on

/-! Throttling (R492). -/

/-- The junction's throttle step. -/
def Dev.throttled (d : Dev) (jact : Bool) (jstep : Nat) : Dev := { d with pwr := { d.pwr with jact, jstep } }

theorem Dev.throttleRise_hot {d : Dev} (core : d.coreOn = true) {k : Nat} {v : Int} (hottest : d.hottest = some (k, v)) (hot : (d.p 0x82 : Int) < v)
    (cool : ∀ c ∈ d.units, ¬d.p 0x19D < 10 * (d.ch c).temp) (stepped : ∀ c ∈ d.units, d.step c ≠ 0) :
    d.throttleRise = (d.throttled true (min 7 (d.pwr.jstep + 1))).recompute := by
  unfold Dev.throttleRise
  rw [if_neg (by rw [core]; decide)]
  extract_lets sensor before src rise e dimms f
  have hotter : sensor = some k := by
    unfold sensor
    rw [hottest]
    exact if_pos hot
  have none : before = [] := List.filter_eq_nil_iff.2 fun c hc => by simpa using stepped c hc
  have risen : e = d.throttled true (min 7 (d.pwr.jstep + 1)) := by
    unfold e
    rw [hotter, none]
    rfl
  have cold : dimms = [] := by
    unfold dimms
    rw [risen]
    exact List.filter_eq_nil_iff.2 fun c hc => by rw [decide_eq_true_eq]; exact cool c hc
  have still : f = e := by
    unfold f
    rw [cold]
    rfl
  rw [hotter, cold, still, risen]
  rfl

theorem Dev.throttleFall_cool {d : Dev} (core : d.coreOn = true) {k : Nat} {v : Int} (hottest : d.hottest = some (k, v)) (low : v + 50 ≤ (d.p 0x82 : Int))
    (flat : ∀ c ∈ d.units, (d.ch c).dimmStep = 0) :
    d.throttleFall = (d.throttled false (d.pwr.jstep - 1)).recompute := by
  unfold Dev.throttleFall
  rw [if_neg (by rw [core]; decide)]
  extract_lets under above src e dimms
  have lower : under = true := by
    unfold under
    rw [hottest]
    exact decide_eq_true low
  have fallen : above = false := by
    unfold above
    rw [hottest]
    exact decide_eq_false (by omega)
  have eased : e = d.throttled false (d.pwr.jstep - 1) := by
    unfold e
    rw [lower, fallen]
    rfl
  have none : dimms = [] := by
    unfold dimms
    rw [eased]
    exact List.filter_eq_nil_iff.2 fun c hc => by rw [show ((d.throttled false (d.pwr.jstep - 1)).ch c).dimmStep = 0 from flat c hc]; simp
  rw [none, eased]
  rfl

/-! Wakes (R488). -/

/-- A Moored device that a wake has brought up. -/
def Dev.wokenBy (d : Dev) (b n : Nat) : Dev := ({ d with pwr := { d.pwr with wake := setBit d.pwr.wake b true, wakeLd := n } } : Dev).leaveMoored

theorem Dev.wakeUp_moored {d : Dev} (core : d.coreOn = true) (moored : d.pwr.st = .moored) {b : Nat} (enabled : bits (d.p 0x80) b 1 = 1) (n : Nat) :
    d.wakeUp b n = d.wokenBy b (if b = 5 then n else d.pwr.wakeLd) := by
  have up : d.boot.phase ≠ .laidUp := by
    intro laid
    simp [Dev.coreOn, laid] at core
  unfold Dev.wakeUp
  rw [if_neg (by omega)]
  dsimp only
  rw [if_neg up, if_pos moored]
  rfl

/-- Settles O51. -/
theorem telemetryAndWakes : Obligations.TelemetryAndWakes := by
  unfold Obligations.TelemetryAndWakes
  intro s hrest core
  dsimp only
  have h := s.dev.atRest_iff.1 hrest
  have on : s.dev.boot.phase ≠ .off := by
    intro off
    simp [Dev.coreOn, off] at core
  refine ⟨fun len pages _ => ?_, fun n off source small => ?_, ?_, fun vals k hk sens v hv => ?_, fun k v hottest cool => ⟨fun hot stepped hb => ?_, fun low flat hb => ?_⟩,
    fun k _ trip hb => ?_, fun n used moored aspm up => ?_, fun moored => ⟨fun i3c enabled hb => ?_, fun k ns enabled long hb => ?_, fun n used l1 enabled hb => ?_⟩⟩
  · change ∃ t, onDev s (fun d => d.windowBoundary) = .next t ∧ _
    obtain ⟨acc, chm, closed⟩ := Dev.windowBoundary_same core len
    refine ⟨_, onDev_ends closed h.same, rfl, rfl, rfl, rfl, fun n hn => ?_⟩
    refine ((tget_foldl_tmod {} _ s.dev.units_nodup pages).2 n).trans ((if_pos hn).trans ?_)
    rw [tget_map_of_fixed Meter.latch rfl]
  · change onDev s (fun d => d.ptmDialog off) = _
    refine onDev_ends ?_ h.same
    simp only [Dev.ptmDialog, source, core, small, Bool.not_true, Bool.false_eq_true, if_false, if_true]
  · change onDev s (fun d => d.ptmTimeout) = _
    exact onDev_ends rfl h.same
  · change ∃ t, onDev s (fun d => d.sensorSample vals) = .next t ∧ _
    refine ⟨_, onDev_ends (Dev.sensorSample_on on vals) h.same, ?_⟩
    refine (tget_foldl_sensed s.dev (vals.take 24) 0 sens k).2.trans ?_
    simp [show k < 24 by omega, hv, Dev.sensed, hk]
  · change onDev s (fun d => d.throttleRise) = _
    exact onDev_settle (Dev.throttleRise_hot core hottest hot cool stepped) hb
  · change onDev s (fun d => d.throttleFall) = _
    exact onDev_settle (Dev.throttleFall_cool core hottest low flat) hb
  · change onDev s (fun d => d.thermTrip k) = _
    refine onDev_settle ?_ hb
    have known : ¬(s.dev.boot.phase = .off ∨ 22 ≤ k.val) := not_or.2 ⟨on, Nat.not_le.2 k.isLt⟩
    unfold Dev.thermTrip
    rw [if_neg known]
    exact if_neg (show ¬(s.dev.pwr.trip || !s.dev.coreOn) = true by rw [trip, core]; decide)
  · change onUnit n s (fun d => d.aspmEntry n) = _
    exact onUnit_modLd h used n _ (if_pos (by simp [moored, aspm, up]))
  · change onDev s (fun d => d.i3cMatch) = _
    exact onDev_settle ((if_pos i3c).trans (Dev.wakeUp_moored core moored enabled 0)) hb
  · change onDev s (fun d => d.wakePin k _ ns) = _
    refine onDev_settle ?_ hb
    refine (if_pos (by simp [long, k.isLt])).trans ?_
    rw [Dev.wakeUp_moored core moored enabled, if_neg (by omega)]
    rfl
  · change onUnit n s (fun d => d.linkActivity n) = _
    rw [onUnit_on _ _ _ used]
    refine onDev_settle ?_ hb
    refine (if_neg (by rw [l1, core]; decide)).trans ?_
    exact Dev.wakeUp_moored (d := s.dev.modLd n _) core moored enabled n

end Sys2Proof.Machine
end

section

/-! O52: the Gangway and its board fuses (R494 to R510). -/

namespace Sys2Proof.Machine

theorem risesFrom_filter {α : Type} (q : Nat × α → Bool) {t : Tbl α} {lo : Nat} (h : Tbl.risesFrom lo t = true) : Tbl.risesFrom lo (t.filter q) = true := by
  induction t generalizing lo with
  | nil => rfl
  | cons x t ih =>
    obtain ⟨k, v⟩ := x
    simp only [Tbl.risesFrom, Bool.and_eq_true, decide_eq_true_eq] at h
    obtain ⟨low, rises⟩ := h
    by_cases kept : q (k, v) = true
    · rw [List.filter_cons_of_pos kept]
      simp [Tbl.risesFrom, low, ih rises]
    · rw [List.filter_cons_of_neg kept]
      exact risesFrom_mono (by omega) _ (ih rises)

/-- What a cold reset leaves is at rest. -/
theorem Dev.Rest.coldOff {d : Dev} (h : d.Rest) : d.coldOff.Rest where
  fence := rfl
  blow := rfl
  slc := fun _ hx => nomatch hx
  lnd := fun x hx => by
    obtain ⟨y, -, rfl⟩ := List.mem_map.1 hx
    rfl
  entry := rfl
  chn := .inl rfl
  ovr := .inl rfl
  recs := .inl rfl
  tidy :=
    { lnd := (rises_map (fun l : Landing => ({ link := { perst := l.link.perst } } : Landing)) d.lnd).trans h.tidy.lnd
      slc := rfl, chn := rfl, brg := rfl
      prm := risesFrom_filter _ h.tidy.prm
      paths := rfl, ctx := rfl
      plt := (rises_map (fun p : Pilot => ({ inst := p.inst } : Pilot)) d.plt).trans h.tidy.plt }

/-- The parameters of the board fuses are listed in order. -/
theorem rises_boardParams (b : Nat) : Tbl.rises (boardParams b) = true := by
  have put : ∀ (is : List Nat) (t : Tbl (Option Nat)), Tbl.rises t = true → Tbl.rises (is.foldl (fun t i => tput none t (0xC0 + i) (boardFuse b (0xC0 + i))) t) = true := by
    intro is
    induction is with
    | nil => exact fun t h => h
    | cons i is ih => exact fun t h => ih _ (rises_tput _ _ _ _ h)
  exact put _ _ rfl

/-- A device at rest stays so when its power, Gangway, mooring, start and parameters change. -/
theorem Dev.Rest.mooring {d : Dev} (h : d.Rest) (ha : d.active = false) (prm : Tbl (Option Nat)) (hp : Tbl.rises prm = true) (pwr : Pwr) (gwy : Gwy) (moor : Moor) (boot : Boot) :
    ({ d with prm, pwr, gwy, moor, boot } : Dev).Rest :=
  ⟨h.fence, h.blow, h.slc, h.lnd, h.entry, h.chn, .inl ha, h.recs, ⟨h.tidy.lnd, h.tidy.slc, h.tidy.chn, h.tidy.brg, hp, h.tidy.paths, h.tidy.ctx, h.tidy.plt⟩⟩

theorem Dev.Rest.modG {d : Dev} (h : d.Rest) (f : Gwy → Gwy) : (d.modG f).Rest := h.same

/-- R504, R508: what a trip with PG low leaves. -/
def Dev.tripped (d : Dev) (code src array : Nat) : Dev :=
  (d.retain src array).modG fun g => { g with
    st := if d.p 0xC7 = 1 ∧ 0 < d.gwy.retries then .cooling else .latched, atLimit := false, brk := 0, flt := true, lastfault := code, interval := false }

theorem Dev.trip_low {d : Dev} (low : d.gwy.pg = false) (code src array : Nat) : d.trip code src array = d.tripped code src array := by
  unfold Dev.trip Dev.gateOff
  dsimp only
  rw [if_neg (by rw [show (d.retain src array).gwy.pg = false from low]; decide)]
  rfl

theorem Dev.Rest.tripped {d : Dev} (h : d.Rest) (code src array : Nat) : (d.tripped code src array).Rest := h.same

theorem Dev.tripped_ret {d : Dev} (room : d.moor.ret.length < 16) (code src array : Nat) :
    (d.tripped code src array).moor.ret = d.moor.ret ++ [{ src, time := d.time, array }] := if_pos room

/-- R395, Table 19.2: what auxiliary power leaves, whatever the board fuses hold. -/
theorem Dev.auxOn_leaves {d : Dev} (h : d.Rest) (off : d.boot.phase = .off) {b : Nat} {prm : Tbl (Option Nat)} (fused : boardParams b = prm) :
    (d.auxOn b).Rest ∧ (d.auxOn b).boot.phase = .aux ∧ (d.auxOn b).gwy.st = .standby ∧ (d.auxOn b).prm = prm ∧ (d.auxOn b).gwy.retries = (d.auxOn b).p 0xC8 ∧
      (d.auxOn b).moor.ret = [] ∧ (d.auxOn b).mem = [] ∧ (d.auxOn b).active = false := by
  have rises := rises_boardParams b
  unfold Dev.auxOn
  rw [if_neg (not_not.2 off), fused]
  rw [fused] at rises
  exact ⟨(h.coldOff.mooring rfl prm rises {} {} { clk := d.moor.clk } { marks := d.boot.marks ++ [(1, 0, 0)] }).modG _, rfl, rfl, rfl, rfl, rfl, rfl, rfl⟩

/-- R504 to R506: presence ends the wait in Standby. -/
theorem Dev.presenceOn_ramps {d : Dev} (on : d.boot.phase ≠ .off) {vin : Nat} (standby : d.gwy.st = .standby) (wait : d.gwy.interval = true) (cool : d.fetsCool = true)
    (low : 10200 < vin) (high : vin < 14000) :
    d.presenceOn vin = { d with gwy := { d.gwy with present := true, vin, vinOk := true, st := .ramping, n := d.p 0xC4 } } := by
  have ok : (d.gwy.vinOk || (decide (10200 < vin) && decide (vin < 14000))) = true := by simp [low, high]
  refine (if_neg on).trans ((if_pos ?_).trans ?_)
  · change (decide (d.gwy.st = .standby) && true && (d.gwy.vinOk || (decide (10200 < vin) && decide (vin < 14000))) && d.gwy.interval && d.fetsCool) = true
    rw [ok, standby, wait, cool]
    rfl
  · simp only [Dev.modG, ok]
    rfl

/-- R505: a board pull with PG low. -/
theorem Dev.boardPull_low {d : Dev} (on : d.boot.phase ≠ .off) (down : d.gwy.pg = false) (sound : d.gwy.st ≠ .shorted) :
    d.boardPull = { d with gwy := { d.gwy with present := false, retries := d.p 0xC8, st := .standby, atLimit := false, brk := 0, flt := false, lastfault := 7 } } := by
  unfold Dev.boardPull Dev.gateOff
  rw [if_neg on]
  dsimp only [Dev.modG]
  rw [if_neg sound, if_neg (by rw [down]; decide)]

/-- R497: VIN out of its range with PG low. -/
theorem Dev.vinFault_low {d : Dev} (on : d.boot.phase ≠ .off) (down : d.gwy.pg = false) (sound : d.gwy.st ≠ .shorted) {vin : Nat} (wild : vin < 9600 ∨ 14500 < vin) :
    d.vinFault vin = { d with gwy := { d.gwy with vin, vinOk := false, st := .inputFault, atLimit := false, brk := 0, lastfault := if vin < 9600 then 5 else 6 } } := by
  unfold Dev.vinFault Dev.gateOff
  rw [if_neg (by rintro (off | tame); exacts [on off, by omega])]
  dsimp only [Dev.modG]
  rw [if_neg sound, if_neg (by rw [down]; decide)]

theorem Dev.vinBack_away {d : Dev} (on : d.boot.phase ≠ .off) {vin : Nat} (low : 10200 < vin) (high : vin < 14000) (fault : d.gwy.st = .inputFault)
    (away : d.gwy.present = false) : d.vinBack vin = { d with gwy := { d.gwy with vin, vinOk := true, st := .standby } } := by
  unfold Dev.vinBack Dev.tryRamp
  rw [if_neg (by rintro (off | _ | _); exacts [on off, by omega, by omega])]
  dsimp only [Dev.modG]
  rw [if_pos fault]
  exact if_neg (by simp [away])

/-- R501: with no FET modelled a step of the model takes the readings alone. -/
theorem Dev.fetModel_none {d : Dev} (on : d.boot.phase ≠ .off) (none : d.gwy.n = 0) (vin vout i : Nat) (diode : Int) :
    d.fetModel vin vout i diode = { d with gwy := { d.gwy with vin, vout, iin := i } } := by
  unfold Dev.fetModel
  rw [if_neg on, none]
  rfl

theorem Dev.limitOff_limiting {d : Dev} (lim : d.gwy.st = .limiting) (held : Nat) (clear : Bool) :
    d.limitOff held clear = { d with gwy := { d.gwy with
      st := if d.gwy.pg then .on else .qualifying, atLimit := false, brk := if clear then 0 else d.gwy.brk + held } } := by
  unfold Dev.limitOff Dev.modG
  dsimp only
  rw [if_pos lim]
  cases clear <;> rfl

/-- R504: a retry out of Cooling. -/
theorem Dev.retryStart_cooling {d : Dev} (cooling : d.gwy.st = .cooling) (cool : d.fetsCool = true) :
    d.retryStart = { d with gwy := { d.gwy with interval := true, st := .ramping, retries := d.gwy.retries - 1, flt := false } } := by
  unfold Dev.retryStart
  exact (if_pos cooling).trans (if_pos cool)

/-- R507, R511: PG falls while the core die has power. -/
theorem Dev.pgFall_drops {d : Dev} (up : d.gwy.pg = true) {vout : Nat} (low : vout < d.gwy.pgTh) (phase : d.boot.phase ≠ .aux) :
    d.pgFall vout = { (d.modG fun g => { g with lastfault := 8, vout, pg := false }).coldOff with boot := { d.boot with phase := .aux, pgFell := true } } := by
  unfold Dev.pgFall Dev.pgDrop
  rw [if_pos (by simp [up, low])]
  exact if_neg phase

theorem Dev.Rest.boot {d : Dev} (h : d.Rest) (boot : Boot) : ({ d with boot } : Dev).Rest := h.same

/-- Settles O52. -/
theorem gangwayFollowsItsTable : Obligations.GangwayFollowsItsTable := by
  unfold Obligations.GangwayFollowsItsTable
  intro s hrest
  dsimp only
  have h := s.dev.atRest_iff.1 hrest
  refine ⟨fun off => ?_, fun on => ⟨?_, fun vin standby wait cool low high => ?_, fun down sound => ⟨?_, fun vin wild => ?_⟩, fun vin low high fault away => ?_,
    fun vout gate sound high room => ?_, fun vin vout i diode none => ?_⟩, fun vin vout ramp near => ?_, fun vin qual free => ?_, fun i gate high => ?_,
    fun held clear lim => ?_, fun held lim short => ?_, fun down room => ⟨fun held lim long => ?_, fun i gate high => ?_⟩, fun cooling cool => ?_, fun up => ⟨?_, fun vout low phase => ?_⟩,
    fun v isOpen => ?_⟩
  · change ∃ t, onDev s (fun d => d.auxOn s.otp.board.toNat) = .next t ∧ _
    obtain ⟨rest, phase, standby, prm, retries, ret, mem, active⟩ := Dev.auxOn_leaves h off (b := s.otp.board.toNat) rfl
    exact ⟨_, onDev_ends rfl rest, phase, standby, prm, retries, ret, mem, active, rfl⟩
  · change ∃ t, onDev s (fun d => d.auxOff) = .next t ∧ _
    exact ⟨_, onDev_ends (if_neg on) (h.coldOff.mooring rfl _ rfl _ _ _ _), rfl, rfl, rfl, rfl, rfl, rfl, rfl⟩
  · change onDev s (fun d => d.presenceOn vin) = _
    exact onDev_ends (Dev.presenceOn_ramps on standby wait cool low high) h.same
  · change onDev s (fun d => d.boardPull) = _
    exact onDev_ends (Dev.boardPull_low on down sound) h.same
  · change onDev s (fun d => d.vinFault vin) = _
    exact onDev_ends (Dev.vinFault_low on down sound wild) h.same
  · change onDev s (fun d => d.vinBack vin) = _
    exact onDev_ends (Dev.vinBack_away on low high fault away) h.same
  · change onDev s (fun d => d.fetShort vout) = _
    refine onDev_ends ?_ h.same
    unfold Dev.fetShort Dev.retain
    dsimp only
    rw [if_neg (by simp [on, gate, sound]; omega), if_pos room]
    rfl
  · change onDev s (fun d => d.fetModel vin vout i diode) = _
    exact onDev_ends (Dev.fetModel_none on none vin vout i diode) h.same
  · change onDev s (fun d => d.rampDone vin vout) = _
    exact onDev_ends (if_pos ⟨ramp, near⟩) h.same
  · change onDev s (fun d => d.pgAssert vin) = _
    exact onDev_ends (if_pos ⟨qual, by rw [free]; rfl⟩) h.same
  · change onDev s (fun d => d.limitOn i) = _
    exact onDev_ends (if_pos (by rw [gate, decide_eq_true high]; rfl)) h.same
  · change onDev s (fun d => d.limitOff held clear) = _
    exact onDev_ends (Dev.limitOff_limiting lim held clear) h.same
  · change onDev s (fun d => d.breaker held) = _
    exact onDev_ends ((if_neg (not_not.2 lim)).trans (if_neg (Nat.not_le.2 short))) h.same
  · change ∃ t, onDev s (fun d => d.breaker held) = .next t ∧ _
    have trips : s.dev.breaker held = (s.dev.modG fun g => { g with brk := g.brk + held }).tripped 1 0x780 0 :=
      (if_neg (not_not.2 lim)).trans ((if_pos long).trans (Dev.trip_low (d := s.dev.modG fun g => { g with brk := g.brk + held }) down _ _ _))
    exact ⟨_, onDev_ends trips ((h.modG _).tripped _ _ _), rfl, rfl, rfl, rfl, rfl, rfl, Dev.tripped_ret (d := s.dev.modG fun g => { g with brk := g.brk + held }) room _ _ _, rfl⟩
  · change ∃ t, onDev s (fun d => d.fastTrip i) = .next t ∧ _
    have trips : s.dev.fastTrip i = s.dev.tripped 2 0x781 0 := (if_pos (by rw [gate, decide_eq_true high]; rfl)).trans (Dev.trip_low down _ _ _)
    exact ⟨_, onDev_ends trips (h.tripped _ _ _), rfl, rfl, rfl, rfl, rfl, rfl, Dev.tripped_ret room _ _ _, rfl⟩
  · change onDev s (fun d => d.retryStart) = _
    exact onDev_ends (Dev.retryStart_cooling cooling cool) h.same
  · change onDev s (fun d => d.retryReload) = _
    exact onDev_ends (if_pos up) h.same
  · change ∃ t, onDev s (fun d => d.pgFall vout) = .next t ∧ _
    exact ⟨_, onDev_ends (Dev.pgFall_drops up low phase) ((h.modG _).coldOff.boot _), rfl, rfl, rfl, rfl, rfl, rfl, rfl⟩
  · exact congrArg Host.Outcome.next (if_pos isOpen)

end Sys2Proof.Machine
end

section

/-! O54: reference clocks, the test port, register writes and SPDM requests (R13, R14, R402, R405, R425, R432, R488, R540, R545). -/

namespace Sys2Proof.Machine

/-- The high bit of a value's low word is bit 31 of the value. -/
theorem bits_low_word (v : Nat) : bits (bits v 0 32) 31 1 = bits v 31 1 := by
  unfold bits
  omega

/-- R402: a register page write in ACCVIOL's word with its bit 31 clears the count and the first violation. -/
theorem Dev.wrLandingPage_accviol (d : Dev) (n : Nat) {v : BitVec 64} (clear : bits v.toNat 31 1 = 1) :
    d.wrLandingPage n 0xC 4 v = d.modLd n fun l => { l with acc := { l.acc with count := 0#24, first := 0#4 } } := by
  have sized : hostSized 0xC 4 = true := by decide
  have word : word4 0xC 4 0xC v = some (bits v.toNat 0 32) := if_pos (by decide)
  have other : ∀ reg, reg ≠ 0xC → word4 0xC 4 reg v = none := fun reg ne => if_neg (by omega)
  unfold Dev.wrLandingPage Dev.hostWrite
  rw [if_pos sized, word, other 4 (by decide), other 8 (by decide), other 0x20 (by decide)]
  exact if_pos ((bits_low_word _).trans clear)

/-- A write to a landing's own register runs as one on the device. -/
theorem registerWrite_landing {s : State} {n : Ld} {r : RegId} {v : BitVec 64} {d : Dev} (unit : regUnit r = some n.val) (bell : bargeReg r = false)
    (quiet : s.dev.bellHook r = s.dev) (on : s.dev.on n = true) (writes : s.dev.writeReg r v = d) (rest : d.Rest) :
    exec (.registerWrite r v) s = .next (s.to d) := by
  change onReg s r v = _
  unfold onReg
  dsimp only
  rw [unit]
  refine onUnit_ends on ?_ rest
  rw [bell, quiet]
  exact writes

/-- A write to a register of the device runs as one on the device. -/
theorem registerWrite_device {s : State} {r : RegId} {v : BitVec 64} {d : Dev} (unit : regUnit r = none) (bell : bargeReg r = false)
    (quiet : s.dev.bellHook r = s.dev) (writes : s.dev.writeReg r v = d) (rest : d.Rest) :
    exec (.registerWrite r v) s = .next (s.to d) := by
  change onReg s r v = _
  unfold onReg
  dsimp only
  rw [unit]
  refine onDev_ends ?_ rest
  rw [bell, quiet]
  exact writes

/-- R540, R545: a clock that comes while the landings wait, or of a pair that lost it, is noted alone. -/
theorem Dev.clockOn_noted {d : Dev} {pair : Nat} (waits : d.boot.released = false ∨ pair ∈ d.moor.clkLost) :
    d.clockOn pair = { d with moor := { d.moor with clk := tput false d.moor.clk pair true } } := by
  unfold Dev.clockOn
  refine if_pos ?_
  rcases waits with held | lost
  · simp [held]
  · simp [lost]

/-- R540: a pair whose clock goes is noted and both its landings report it. -/
theorem Dev.clockOff_reports {d : Dev} {pair : Nat} (clk : tget false d.moor.clk pair = true) (core : d.coreOn = true) (even : d.on (2 * pair) = true)
    (live : (d.ld (2 * pair)).link.st ≠ .absorbed) (first : pair ∉ d.moor.clkLost) {e : Dev}
    (he : ({ d with moor := { d.moor with clk := tput false d.moor.clk pair false, clkLost := d.moor.clkLost ++ [pair] } } : Dev).report { src := ldSrc (2 * pair) 0x0A } = e)
    (live' : (e.ld (2 * pair + 1)).link.st ≠ .absorbed) (odd : e.on (2 * pair + 1) = true) :
    d.clockOff pair = e.report { src := ldSrc (2 * pair + 1) 0x0A } := by
  unfold Dev.clockOff
  rw [clk, if_neg (by decide)]
  extract_lets _ a _ b
  have core' : a.coreOn = true := core
  rw [core', if_neg (by decide)]
  have hb : b = { d with moor := { d.moor with clk := tput false d.moor.clk pair false, clkLost := d.moor.clkLost ++ [pair] } } := by
    unfold b
    dsimp only [a]
    rw [if_neg first]
  have tells : ∀ (x : Dev) (n : Nat), x.on n = true → (x.ld n).link.st ≠ .absorbed →
      (if x.on n && decide ((x.ld n).link.st ≠ .absorbed) then x.report { src := ldSrc n 0x0A } else x) = x.report { src := ldSrc n 0x0A } :=
    fun x n on up => if_pos (by rw [on, decide_eq_true up]; rfl)
  rw [hb]
  simp only [List.foldl_cons, List.foldl_nil]
  rw [tells { d with moor := { d.moor with clk := tput false d.moor.clk pair false, clkLost := d.moor.clkLost ++ [pair] } } _ even live, he, tells e _ odd live']

theorem Dev.jtagBalls_channel {d : Dev} {c : Nat} (on : d.boot.phase ≠ .off) (ok : d.chOk c = true) : d.jtagBalls [] [c] = d.alertN c 0 .lasting :=
  (if_neg on).trans (if_pos ok)

theorem Dev.spdmRequest_mctp {d : Dev} (fmn : d.fmnBusy = false) (tlh : d.tlhBusy = false) (msg : List Byte) :
    d.spdmRequest none none msg = (d.spdm none none msg).2.modPath 32 fun x => { x with ans := .good (d.spdm none none msg).1 } :=
  if_neg (by simp [fmn, tlh])

theorem Dev.spdmRequest_doe {d : Dev} (fmn : d.fmnBusy = false) (tlh : d.tlhBusy = false) (n : Nat) (msg : List Byte) :
    d.spdmRequest (some n) none msg = (d.spdm (some n) none msg).2.doeAnswer n 1 (d.spdm (some n) none msg).1 :=
  (if_neg (by simp [fmn])).trans (if_neg (by simp [tlh]))

/-- Settles O54, each clause from the lemma about its event; a register write runs on the unit its register names. -/
theorem clocksRegistersAndSpdm : Obligations.ClocksRegistersAndSpdm := by
  unfold Obligations.ClocksRegistersAndSpdm
  intro s hrest
  dsimp only
  have h := s.dev.atRest_iff.1 hrest
  refine ⟨fun p waits => ?_, fun p clk core even _ live first live' odd blow => ?_, fun c on ok blow => ?_,
    fun n v on => ⟨registerWrite_landing rfl rfl rfl on rfl (h.modLd _ _), registerWrite_landing rfl rfl rfl on rfl (h.modLd _ _),
      registerWrite_landing rfl rfl rfl on rfl (h.modLd _ _), registerWrite_landing rfl rfl rfl on rfl (h.modLd _ _), fun clear => ?_, fun off size odd => ?_⟩,
    fun v => ⟨registerWrite_device rfl rfl rfl rfl h.same, registerWrite_device rfl rfl rfl ?_ h.same, registerWrite_device rfl rfl rfl rfl h.same⟩,
    fun msg fmn tlh => ⟨fun blow => ?_, fun n blow => ?_⟩, ?_⟩
  · change onDev s (fun d => d.clockOn p) = _
    exact onDev_ends (Dev.clockOn_noted waits) h.same
  · change onDev s (fun d => d.clockOff p) = _
    exact onDev_settle (Dev.clockOff_reports clk core even live first rfl live' odd) blow
  · change onDev s (fun d => d.jtagBalls [] [c]) = _
    exact onDev_settle (Dev.jtagBalls_channel on ok) blow
  · exact registerWrite_landing rfl rfl rfl on (Dev.wrLandingPage_accviol _ _ clear) (h.modLd _ _)
  · exact registerWrite_landing rfl rfl rfl on (if_neg (by simp [odd])) (h.modLd _ _)
  · change (if bits v.toNat 31 1 = 1 then { s.dev with pinLoss := 0 } else s.dev) = _
    split
    · rfl
    · rfl
  · change onDev s (fun d => d.spdmRequest none none msg) = _
    exact onDev_settle (Dev.spdmRequest_mctp fmn tlh msg) blow
  · change onDev s (fun d => d.spdmRequest (some n.val) none msg) = _
    exact onDev_settle (Dev.spdmRequest_doe fmn tlh n.val msg) blow
  · change onDev s (fun d => d.unlockEnds) = _
    exact onDev_ends rfl h.same

end Sys2Proof.Machine
end

section

/-! O53: where the statement about a start fails (R100, R274). -/

namespace Sys2Proof.Machine

/-- A memory-active device in a start, its landings released, with one block granted and one channel populated. -/
def startedActive : State := { dev := {
  active := true
  boot := { phase := .starting, released := true }
  ext := { recs := [(0, { st := .granted })] }
  chn := [(0, { pop := { gib := 16, dpc := 1 }, st := .active })] } }

/-- With the channel's memory gone more blocks are in use than are nominal, which the event of R100 notes. -/
theorem channelBringUpComplete_overcommits :
    (ended (exec (.channelBringUpComplete 0 {}) startedActive)).map (·.ext.ovr) = some true := by decide +kernel

/-- Refutes O53: the statement does not tie the start's phase to a device that is not yet memory-active. Where it is memory-active, the channel that comes up absent takes
the capacity of the granted block away, and the command does not end without the overcommit event. -/
theorem not_startRunsItsSteps : ¬ Obligations.StartRunsItsSteps := by
  unfold Obligations.StartRunsItsSteps
  intro h
  obtain ⟨-, -, -, -, starting, -⟩ := h startedActive (by decide +kernel)
  obtain ⟨channels, -⟩ := starting rfl rfl
  obtain ⟨absent, -⟩ := channels 0 {} rfl (by decide) (by decide) rfl rfl
  have overcommitted := channelBringUpComplete_overcommits
  rw [absent rfl] at overcommitted
  exact absurd overcommitted (by decide +kernel)

end Sys2Proof.Machine
end

section

/-! O38: where the statement about page operations fails. -/

namespace Sys2Proof.Machine

/-- Page 0 is listed twice, first bound to context 1 and then with a poisoned quad; channel 0 is to bind it to context 0, to which its block is bound. -/
def entryTwice : State := { dev := {
  pm := { ents := [(0, some { ctx := 1 }), (0, some { qpois := 1 })] }
  ctx := [(0, { st := .enabled })]
  ext := { recs := [(0, { st := .granted })] }
  slc := [(0, { pmc := [(0, { valid := true, page := 0 })] })]
  brg := [(0, some { owner := .syust, cur := some { op := 8, len := 1 } })] } }

/-- The entry bound as its block is leaves its place to the one listed second, whose quad counts as poisoned by the operation. -/
theorem rekey_counts_poison : (ended (exec (.rekey 0 1 {}) entryTwice)).map (fun d => (d.bg 0).prog.ppois) = some 1 := by decide +kernel

/-- Refutes O38: the statement leaves open in which form the page-map entries are listed. Where page 0 is listed twice, its REKEY to the context of its block takes away
the entry listed first, and ends with the poison of the one listed second (code 1, where the statement has 0). -/
theorem not_pageOperationsAct : ¬ Obligations.PageOperationsAct := by
  unfold Obligations.PageOperationsAct
  intro h
  obtain ⟨-, rekeys, -⟩ := h entryTwice 0 { op := 8, len := 1 } (by decide +kernel) (by decide +kernel) rfl rfl rfl rfl (by decide +kernel) (by decide +kernel)
    (by decide +kernel) (by decide +kernel) rfl (by decide +kernel)
  have ends := rekeys 0 (by decide +kernel) (by decide +kernel) rfl rfl (by decide) (by decide +kernel) (by decide +kernel) (by decide +kernel) (by decide +kernel)
  have poisoned := rekey_counts_poison
  rw [ends] at poisoned
  exact absurd poisoned (by decide +kernel)

end Sys2Proof.Machine
end

section

/-! O16: a down declaration of a landing with nothing outstanding (R64, R66, R68 to R70, R74, R82, Table 2.5, Table 2.8). -/

namespace Sys2Proof.Machine

/-- No request waits at a slice and its filter is empty. -/
def Slice.Quiet (x : Slice) : Prop := x.waitq = [] ∧ x.misses = [] ∧ x.filt = {}

/-- No request waits at a landing or in its boarding queue. -/
def Landing.Quiet (l : Landing) : Prop := l.wait = [] ∧ l.coh.board = []

theorem Slice.Quiet.orphans {x : Slice} (h : x.Quiet) (n : Nat) : x.orphans n = x := by
  obtain ⟨waitq, misses, filt⟩ := h
  cases x
  dsimp only at waitq misses filt
  subst waitq misses filt
  rfl

theorem Landing.Quiet.orphans {l : Landing} (h : l.Quiet) (n : Nat) : l.orphans n = l := by
  obtain ⟨wait, board⟩ := h
  unfold Landing.orphans
  rw [wait, board]
  exact (congrArg₂ (fun b w => { l with coh := { l.coh with board := b }, wait := w }) board wait).symm

theorem Slice.orphans_atRest {x : Slice} (n : Nat) (h : x.atRest = true) : (x.orphans n).atRest = true := by
  unfold Slice.atRest at h ⊢
  simp only [Bool.and_eq_true, List.isEmpty_iff] at h ⊢
  obtain ⟨⟨waitq, colls⟩, cred⟩ := h
  exact ⟨⟨by rw [Slice.orphans, waitq]; rfl, by rw [Slice.orphans, colls]; rfl⟩, cred⟩

/-- What the work of a down declaration keeps before the landing itself is reset: with nothing outstanding anywhere only landing `n` changes, its link not included. -/
structure Dev.Quieted (n : Nat) (d e : Dev) : Prop where
  rest : e.Rest
  slc : ∀ k, (e.ms k).Quiet
  ms : ∀ k, e.ms k = d.ms k
  lnd : ∀ k, (e.ld k).Quiet
  ld : ∀ k, k ≠ n → e.ld k = d.ld k
  xfers : (e.ld n).coh.xfers = []
  msgs : (e.ld n).pool.msgs = []
  link : (e.ld n).link = (d.ld n).link
  same : e = { d with slc := e.slc, lnd := e.lnd }

namespace Dev.Quieted

variable {n : Nat} {d e : Dev}

/-- A change that leaves the slice it is made at as it was. -/
theorem modMs (q : Dev.Quieted n d e) (k : Nat) (f : Slice → Slice) (keeps : f (e.ms k) = e.ms k) (rest : ∀ x, x.atRest = true → (f x).atRest = true) :
    Dev.Quieted n d (e.modMs k f) := by
  have ms : ∀ j, (e.modMs k f).ms j = e.ms j := fun j => by
    rw [Dev.ms_modMs q.rest]
    split
    · next at_k => rw [at_k, keeps]
    · rfl
  exact { rest := q.rest.modMs k f rest, slc := fun j => ms j ▸ q.slc j, ms := fun j => (ms j).trans (q.ms j), lnd := q.lnd, ld := q.ld, xfers := q.xfers, msgs := q.msgs,
          link := q.link, same := congrArg (fun x : Dev => { x with slc := (e.modMs k f).slc }) q.same }

/-- A change of landing `n` that leaves its link and nothing outstanding. -/
theorem modOwn (q : Dev.Quieted n d e) (f : Landing → Landing) (quiet : (f (e.ld n)).Quiet) (xfers : (f (e.ld n)).coh.xfers = []) (msgs : (f (e.ld n)).pool.msgs = [])
    (link : (f (e.ld n)).link = (e.ld n).link) (rest : ∀ l, l.pool.txq = [] → (f l).pool.txq = []) : Dev.Quieted n d (e.modLd n f) := by
  have own := Dev.ld_modLd_self q.rest n f
  have others : ∀ k, k ≠ n → (e.modLd n f).ld k = e.ld k := fun k ne => (Dev.ld_modLd q.rest n k f).trans (if_neg ne)
  refine { rest := q.rest.modLd n f rest, slc := q.slc, ms := q.ms, lnd := fun k => ?_, ld := fun k ne => (others k ne).trans (q.ld k ne), xfers := own ▸ xfers,
           msgs := own ▸ msgs, link := (congrArg Landing.link own).trans (link.trans q.link), same := congrArg (fun x : Dev => { x with lnd := (e.modLd n f).lnd }) q.same }
  by_cases at_n : k = n
  · rw [at_n, own]
    exact quiet
  · rw [others k at_n]
    exact q.lnd k

/-- A change that leaves the landing it is made at as it was. -/
theorem modLd (q : Dev.Quieted n d e) (k : Nat) (f : Landing → Landing) (keeps : f (e.ld k) = e.ld k) (rest : ∀ l, l.pool.txq = [] → (f l).pool.txq = []) :
    Dev.Quieted n d (e.modLd k f) := by
  have ld : ∀ j, (e.modLd k f).ld j = e.ld j := fun j => by
    rw [Dev.ld_modLd q.rest]
    split
    · next at_k => rw [at_k, keeps]
    · rfl
  exact { rest := q.rest.modLd k f rest, slc := q.slc, ms := q.ms, lnd := fun j => ld j ▸ q.lnd j, ld := fun j ne => (ld j).trans (q.ld j ne), xfers := ld n ▸ q.xfers,
          msgs := ld n ▸ q.msgs, link := (congrArg Landing.link (ld n)).trans q.link, same := congrArg (fun x : Dev => { x with lnd := (e.modLd k f).lnd }) q.same }

theorem of_eq {e' : Dev} (q : Dev.Quieted n d e) (same : e' = e) : Dev.Quieted n d e' := same ▸ q

theorem foldl {β : Type} (f : Dev → β → Dev) (step : ∀ e b, Dev.Quieted n d e → Dev.Quieted n d (f e b)) (l : List β) (q : Dev.Quieted n d e) :
    Dev.Quieted n d (l.foldl f e) := by
  induction l generalizing e with
  | nil => exact q
  | cons b l ih => exact ih (step e b q)

/-- R66: with no message received nothing leaves the pool. -/
theorem drainPool (q : Dev.Quieted n d e) : Dev.Quieted n d (e.drainPool n) := by
  unfold Dev.drainPool
  rw [q.msgs]
  exact q.modOwn _ (q.lnd n) q.xfers rfl rfl fun _ h => h

/-- Table 2.5: with no request outstanding none is marked. -/
theorem orphans (q : Dev.Quieted n d e) : Dev.Quieted n d (e.orphans n) := by
  unfold Dev.orphans
  refine foldl _ (fun e k q => q.modLd k _ ((q.lnd k).orphans n) fun _ h => h) _ (foldl _ (fun e k q => ?_) _ q)
  split
  · exact q.modMs k _ ((q.slc k).orphans n) fun _ => Slice.orphans_atRest n
  · exact q

/-- R227: with empty filters no home slice has a sector to settle. -/
theorem loseLanding (q : Dev.Quieted n d e) (xs : List Xfer) : e.loseLanding n xs = e := by
  refine foldl_keep _ e _ fun sl _ => ?_
  have filt : ∀ k, (e.ms k).filt = {} := fun k => (q.slc k).2.2
  have ents : e.entsOf sl = [] := by
    unfold Dev.entsOf
    rw [filt, filt]
    rfl
  simp only [filt sl, List.length_nil, List.range_zero, List.foldl_nil, ents, List.filter_nil, List.map_nil]

/-- Table 2.5: an empty boarding queue has nothing to give back. -/
theorem returnBoard (q : Dev.Quieted n d e) : Dev.Quieted n d (e.returnBoard n) := by
  have empty := (q.lnd n).2
  unfold Dev.returnBoard
  rw [empty]
  exact q.modOwn _ ⟨(q.lnd n).1, rfl⟩ q.xfers q.msgs rfl fun _ h => h

theorem sendLoss (e : Dev) (n : Nat) : e.sendLoss n [] = e := foldl_keep _ e _ fun _ _ => rfl

/-- The answers of the landing to the collections of each slice, of which there are none. -/
theorem collAnswers (q : Dev.Quieted n d e) :
    e.units.foldl (fun d sl => (d.ms sl).filt.colls.foldl (fun d c => if decide (n ∈ c.wait) then d.collAnswer sl c.id n else d) d) e = e := by
  refine foldl_keep _ e _ fun sl _ => ?_
  rw [(q.slc sl).2.2]
  rfl

/-- The landing asks for no shared credit. -/
theorem credReqs (q : Dev.Quieted n d e) : Dev.Quieted n d (e.units.foldl (fun d sl => d.modF sl fun f => { f with credReq := f.credReq.erase n }) e) := by
  refine foldl _ (fun e sl q => q.modMs sl _ ?_ fun x h => ?_) _ q
  · have none : (e.ms sl).filt.credReq.erase n = (e.ms sl).filt.credReq := by
      rw [(q.slc sl).2.2]
      rfl
    exact congrArg (fun c => { e.ms sl with filt := { (e.ms sl).filt with credReq := c } }) none
  · unfold Slice.atRest at h ⊢
    simp only [Bool.and_eq_true, List.isEmpty_iff] at h ⊢
    exact ⟨h.1, by rw [h.2]; rfl⟩

end Dev.Quieted

/-- What `Dev.still` says of every slice and every landing. -/
theorem Dev.quieted_of_still {d : Dev} {n : Nat} (h : d.Rest) (still : d.still n = true) : Dev.Quieted n d d := by
  unfold Dev.still at still
  simp only [Bool.and_eq_true, List.isEmpty_iff, List.all_eq_true, decide_eq_true_eq] at still
  obtain ⟨⟨⟨slc, lnd⟩, xfers⟩, msgs⟩ := still
  refine { rest := h, slc := fun k => ?_, ms := fun _ => rfl, lnd := fun k => ?_, ld := fun _ _ => rfl, xfers, msgs, link := rfl, same := rfl }
  · by_cases unlisted : d.ms k = {}
    · rw [unlisted]
      exact ⟨rfl, rfl, rfl⟩
    · obtain ⟨⟨waitq, misses⟩, filt⟩ := slc _ (mem_of_tget unlisted)
      exact ⟨waitq, misses, filt⟩
  · by_cases unlisted : d.ld k = {}
    · rw [unlisted]
      exact ⟨rfl, rfl⟩
    · exact lnd _ (mem_of_tget unlisted)

/-- A link declared down, and the count of the declarations. -/
def Link.lostOnce (k : Link) : Link := { k with st := .down, downcnt := if k.downcnt = 0xFF#8 then k.downcnt else k.downcnt + 1#8 }

/-- R66: with nothing outstanding a down declaration resets the landing and reports its cause. -/
theorem Dev.declareDown_quiet {d : Dev} {n : Nat} (h : d.Rest) (still : d.still n = true) (live : (d.ld n).link.st.live = true) (cause : Nat) (st : LinkSt) :
    ∃ e, Dev.Quieted n (d.modLd n fun l => { l with link := l.link.lostOnce }) e ∧
      d.declareDown n cause st = (e.landingReset n st).evPool .landingDown [n, cause] 1 := by
  have quiet := Dev.quieted_of_still h still
  unfold Dev.declareDown
  rw [live, if_neg (by decide)]
  extract_lets upd a b xfers c f g i j
  have own : a.ld n = _ := Dev.ld_modLd_self h n _
  have start : Dev.Quieted n a a := by
    refine { rest := h.modLd _ _, slc := quiet.slc, ms := fun _ => rfl, lnd := fun k => ?_, ld := fun _ _ => rfl, xfers := own ▸ quiet.xfers, msgs := own ▸ quiet.msgs,
             link := rfl, same := rfl }
    rw [Dev.ld_modLd h]
    split
    · exact quiet.lnd n
    · exact quiet.lnd k
  have drained : Dev.Quieted n a b := start.drainPool.orphans
  have quieted : Dev.Quieted n a c := drained.modOwn _ (drained.lnd n) rfl drained.msgs rfl fun _ h => h
  have boarded : Dev.Quieted n a f := quieted.returnBoard.of_eq (congrArg (fun x => Dev.returnBoard x n) (quieted.loseLanding xfers))
  have unsent : g = f := (congrArg (f.sendLoss n) drained.xfers).trans (Dev.Quieted.sendLoss f n)
  have reported : Dev.Quieted n a g := boarded.of_eq unsent
  have answered : Dev.Quieted n a i := reported.of_eq reported.collAnswers
  exact ⟨j, answered.credReqs, rfl⟩

/-- What a down declaration of landing `n` into state `st` leaves of device `d`. -/
def Dev.DownAs (d : Dev) (n : Nat) (st : LinkSt) (e : Dev) : Prop :=
  (e.ld n).link.st = st ∧ (e.ld n).link.memen = false ∧ (e.ld n).link.speed = 0#3 ∧
    (e.ld n).link.downcnt = (if (d.ld n).link.downcnt = 0xFF#8 then 0xFF#8 else (d.ld n).link.downcnt + 1#8) ∧
    (e.ld n).acc.dec = {} ∧ (e.ld n).acc.lbits = 0#3 ∧ (e.ld n).acc.lpos = 0x2D#6 ∧ (e.ld n).ideMem = {} ∧ (e.ld n).ideIo = {} ∧
    (e.ld n).pool.msgs = [] ∧ (e.ld n).pool.replay = [] ∧ e.bg n = (d.bg n).disable ∧
    (∀ m, m ≠ n → e.ld m = d.ld m) ∧ (∀ m, e.ms m = d.ms m) ∧ e.mem = d.mem ∧ e.pm = d.pm

/-- The landing-reset parameters in force at landing `n` (R391). -/
def Landing.withParams (l : Landing) (d : Dev) (n : Nat) : Landing :=
  { l with link := { l.link with latOpt := decide (d.p 0x102 = 1), maxSpeed := d.p 0x103 }
           pool := { l.pool with mins := (List.range 6).map fun i => (if (d.ld n).link.merged then 2 else 1) * d.p (0x120 + i) } }

theorem Dev.applyLr_none {d : Dev} (pend : d.mg.pend = []) (n : Nat) : d.applyLr n = d.modLd n fun l => l.withParams d n := by
  unfold Dev.applyLr
  extract_lets ids e k
  have kept : e = d := foldl_keep _ d ids fun i _ => by rw [pend]; rfl
  rw [kept]
  dsimp only [k]
  rw [kept]
  rfl

/-- R70: with no parameter pending a landing reset changes the landing and its host's Barge channel. -/
theorem Dev.landingReset_none {e : Dev} (pend : e.mg.pend = []) (n : Nat) (st : LinkSt) :
    ∃ x : Dev, e.landingReset n st = ((e.modLd n fun l => l.resetTo st).modLd n fun l => l.withParams x n).modBg n BrgCh.disable := by
  have pending : (e.modLd n fun l => l.resetTo st).mg.pend = [] := pend
  refine ⟨e.modLd n fun l => l.resetTo st, ?_⟩
  unfold Dev.landingReset
  dsimp only
  rw [Dev.applyLr_none pending]

section

variable {e : Dev} (h : e.Rest) (n : Nat) (f g : Landing → Landing) (b : BrgCh → BrgCh) (hf : ∀ l, l.pool.txq = [] → (f l).pool.txq = [])

include h hf

theorem Dev.ld_modLd_twice (m : Nat) : (((e.modLd n f).modLd n g).modBg n b).ld m = if m = n then g (f (e.ld n)) else e.ld m := by
  change ((e.modLd n f).modLd n g).ld m = _
  rw [Dev.ld_modLd (h.modLd n f hf), Dev.ld_modLd h, Dev.ld_modLd h, if_pos rfl]
  split
  · rfl
  · rfl

theorem Dev.bg_modLd_twice (hg : ∀ l, l.pool.txq = [] → (g l).pool.txq = []) : (((e.modLd n f).modLd n g).modBg n b).bg n = b (e.bg n) :=
  (Dev.bg_modBg ((h.modLd n f hf).modLd n g hg) n n b).trans (if_pos rfl)

end

/-- A report to the Pool owner changes no landing. -/
theorem Dev.DownAs.evPool {d e : Dev} {n : Nat} {st : LinkSt} (h : d.DownAs n st e) (k : EvKind) (args : List Nat) (sev : Nat) : d.DownAs n st (e.evPool k args sev) := h

/-- R69: PERST_N asserted is noted at the landing that is down. -/
theorem Dev.DownAs.perst {d e : Dev} {n : Nat} {st : LinkSt} (rest : e.Rest) (h : d.DownAs n st e) :
    d.DownAs n st (e.modLd n fun l => { l with link := { l.link with perst := true } }) := by
  have own := Dev.ld_modLd_self rest n fun l => { l with link := { l.link with perst := true } }
  have others : ∀ m, m ≠ n → (e.modLd n fun l => { l with link := { l.link with perst := true } }).ld m = e.ld m := fun m ne => (Dev.ld_modLd rest n m _).trans (if_neg ne)
  unfold Dev.DownAs at h ⊢
  rw [own]
  obtain ⟨state, memen, speed, count, dec, lbits, lpos, mem, io, msgs, replay, brg, ld, ms⟩ := h
  exact ⟨state, memen, speed, count, dec, lbits, lpos, mem, io, msgs, replay, brg, fun m ne => (others m ne).trans (ld m ne), ms⟩

/-- R70, Table 2.8: the reset of a landing whose down declaration left nothing outstanding. -/
theorem Dev.Quieted.downAs {n : Nat} {d e : Dev} (h : d.Rest) (pend : d.mg.pend = []) (q : Dev.Quieted n (d.modLd n fun l => { l with link := l.link.lostOnce }) e)
    (st : LinkSt) : d.DownAs n st (e.landingReset n st) ∧ (e.landingReset n st).Rest ∧ (e.landingReset n st).pool = d.pool ∧ (e.landingReset n st).time = d.time := by
  have same : ∀ {α : Type} (f : Dev → α), f e = f { d with slc := e.slc, lnd := e.lnd } := fun f => congrArg f q.same
  have count : (e.ld n).link.downcnt = if (d.ld n).link.downcnt = 0xFF#8 then 0xFF#8 else (d.ld n).link.downcnt + 1#8 := by
    rw [q.link, Dev.ld_modLd_self h]
    change (if (d.ld n).link.downcnt = 0xFF#8 then (d.ld n).link.downcnt else _) = _
    split
    · assumption
    · rfl
  have others : ∀ m, m ≠ n → e.ld m = d.ld m := fun m ne => (q.ld m ne).trans ((Dev.ld_modLd h n m _).trans (if_neg ne))
  obtain ⟨x, reset⟩ := Dev.landingReset_none ((same fun x => x.mg.pend).trans pend) n st
  have empty : ∀ l : Landing, l.pool.txq = [] → (l.resetTo st).pool.txq = [] := fun _ _ => rfl
  have kept : ∀ l : Landing, l.pool.txq = [] → (l.withParams x n).pool.txq = [] := fun _ h => h
  have ld := Dev.ld_modLd_twice q.rest n _ (fun l => l.withParams x n) BrgCh.disable empty
  have brg := Dev.bg_modLd_twice q.rest n _ (fun l => l.withParams x n) BrgCh.disable empty kept
  have own := (ld n).trans (if_pos rfl)
  rw [reset]
  refine ⟨?_, ((q.rest.modLd n _ empty).modLd n _ kept).modBg n _, same fun x => x.pool, same fun x => x.time⟩
  unfold Dev.DownAs
  rw [own]
  exact ⟨rfl, rfl, rfl, count, rfl, rfl, rfl, rfl, rfl, rfl, rfl, brg.trans (congrArg BrgCh.disable (same fun x => x.bg n)),
    fun m ne => ((ld m).trans (if_neg ne)).trans (others m ne), q.ms, same fun x => x.mem, same fun x => x.pm⟩

theorem Dev.evPool_tells {d e : Dev} (pool : e.pool = d.pool) (time : e.time = d.time) (k : EvKind) (args : List Nat) (sev : Nat) :
    (e.evPool k args sev).pool = d.pool.add { kind := k, args, sev, time := d.time } := by
  unfold Dev.evPool
  dsimp only
  rw [pool, time]

/-- Each cause of a down declaration takes a live landing with nothing outstanding down, and the Pool owner is told. -/
theorem Dev.declareDown_leaves {d : Dev} {n : Nat} (h : d.Rest) (still : d.still n = true) (live : (d.ld n).link.st.live = true) (pend : d.mg.pend = []) (cause : Nat)
    (st : LinkSt) : d.DownAs n st (d.declareDown n cause st) ∧ (d.declareDown n cause st).Rest ∧
      (d.declareDown n cause st).pool = d.pool.add { kind := .landingDown, args := [n, cause], sev := 1, time := d.time } := by
  obtain ⟨e, quieted, declared⟩ := Dev.declareDown_quiet h still live cause st
  obtain ⟨down, rest, pool, time⟩ := quieted.downAs h pend st
  rw [declared]
  exact ⟨down.evPool _ _ _, rest.evPool _ _ _, Dev.evPool_tells pool time _ _ _⟩

/-- R69: a released landing that is live goes to reset when PERST_N is asserted for 1 µs or more. -/
theorem Dev.perstOn_live {d : Dev} {n ns : Nat} (long : 1000 ≤ ns) (released : (d.ld n).link.released = true) (live : (d.ld n).link.st.live = true) :
    d.perstOn n ns = (d.declareDown n 2 .reset).modLd n fun l => { l with link := { l.link with perst := true } } := by
  have enabled : (d.ld n).link.st ≠ .disabled := fun st => by rw [st] at live; cases live
  have own : (d.ld n).link.st ≠ .absorbed := fun st => by rw [st] at live; cases live
  unfold Dev.perstOn
  dsimp only
  rw [if_neg (by simp [long, released, enabled, own]), if_pos live]

/-- Settles O16: every cause goes through the one down declaration. -/
theorem downDeclarationResetsTheLanding : Obligations.DownDeclarationResetsTheLanding := by
  unfold Obligations.DownDeclarationResetsTheLanding
  intro s n hrest on still live _ pend _
  have h := s.dev.atRest_iff.1 hrest
  have leaves := Dev.declareDown_leaves h still live pend
  refine ⟨fun lost => ?_, fun ns long released => ?_, ?_, ?_⟩
  · change ∃ t, onUnit n s (fun d => d.tdown n) = .next t ∧ _
    obtain ⟨down, rest, told⟩ := leaves 1 .down
    exact ⟨_, onUnit_ends on (if_pos lost) rest, down, told⟩
  · change ∃ t, onUnit n s (fun d => d.perstOn n ns) = .next t ∧ _
    obtain ⟨down, rest, told⟩ := leaves 2 .reset
    exact ⟨_, onUnit_ends on (Dev.perstOn_live long released live) (rest.modLd n _), down.perst rest, told,
      congrArg (fun l : Landing => l.link.perst) (Dev.ld_modLd_self rest n fun l => { l with link := { l.link with perst := true } })⟩
  · change ∃ t, onUnit n s (fun d => d.declareDown n 3 .down) = .next t ∧ _
    obtain ⟨down, rest, told⟩ := leaves 3 .down
    exact ⟨_, onUnit_ends on rfl rest, down, told⟩
  · change ∃ t, onUnit n s (fun d => d.declareDown n 4 .down) = .next t ∧ _
    obtain ⟨down, rest, told⟩ := leaves 4 .down
    exact ⟨_, onUnit_ends on rfl rest, down, told⟩

end Sys2Proof.Machine
end
